-- ==== Sys2Proof/Word.lean ====
section
/-! DEFINITION. The widths and moduli of the Gobrant GL64: bytes, station time, network time, counters. -/

namespace Sys2Proof

/-- One byte. Bit 7 is the most significant (R195). -/
abbrev Byte := BitVec 8

/-- Station time: the 48-bit count of REFCLK cycles (R188). -/
abbrev StationTime := BitVec 48

/-- A free-running 32-bit count (00_scope.md, Conventions: it wraps at 2^32; for the as-run counts DEDUCED, log 17). -/
abbrev Count32 := BitVec 32

/-- A value of the 90 kHz timeline, modulo 2^33 (00_scope.md, Three timelines). -/
abbrev Time90 := BitVec 33

/-- A packet identifier, 13 bits (12.1). -/
abbrev Pid := BitVec 13

/-- A continuity counter, 4 bits (12.1). -/
abbrev CC := BitVec 4

/-- A take generation, an insertion record's or an alert entry's generation: 8 bits, wrapping (R23, R110, R115). -/
abbrev Generation := BitVec 8

/-- The address of a 16-byte beat divided by 16: 36 bits of a 40-bit byte address (R151). -/
abbrev BeatAddr := BitVec 36

/-- The 16 bytes of a beat; byte `i` is bits `8*i+7 .. 8*i`. -/
abbrev BeatData := BitVec 128

/-- The 16 byte enables of a write beat; bit `i` enables byte `i`. -/
abbrev Enables := BitVec 16

/-- A 64-bit service set; bit `s` names service `s` (12.4). -/
abbrev ServiceSet := BitVec 64

/-- M, the modulus of the clock-reference timeline: 2^33 × 300 (00_scope.md, Three timelines). -/
def clockModulus : Nat := 2576980377600

/-- The null PID, 8191 (R15, R21). -/
def nullPid : Pid := 8191

/-- The sync byte of a transport packet (12.1). -/
def syncByte : Byte := 0x47

/-- The number of bytes of a transport packet (R3). -/
def packetLength : Nat := 188

/-- One past the last 40-bit byte address (R151). -/
def addressLimit : Nat := 1099511627776

end Sys2Proof
end

