-- ==== Sys2Proof/Syntax.lean ====
section
/-! DEFINITION. The commands of the GL64: one constructor for each row of spec/opcode_table.json, and their operands.
The fields of a cue and of a configuration record are operands as the record's bytes give them, at the widths of 12.3 and
12.4, so that a malformed value can be written and is refused by the checks (R54, R197). -/

namespace Sys2Proof

/-- What identifies a taken cue in its answer: the cue number, the ring slot and the tag (R52, R56). -/
structure CueRef where
  number : Count32
  slot : Nat
  tag : BitVec 32
  deriving DecidableEq, Repr

/-- Where a configuration record comes from: a CONFIGURE cue (R67), the EEPROM or the boot block (R192). -/
inductive Origin
  | cue (ref : CueRef)
  | eeprom
  | boot
  deriving DecidableEq, Repr

/-- The body of a SPLICE_AT_TIME or SPLICE_AT_MARK cue (12.3); `t` is not read in a mark cue. -/
structure SpliceBody where
  service : Byte
  content : Byte
  endAtContent : Bool
  cueId : BitVec 32
  t : BitVec 64
  w : BitVec 32
  d : BitVec 32
  deriving DecidableEq, Repr

/-- The body of an ALERT_START cue (12.3). -/
structure AlertBody where
  alertId : BitVec 16
  groups : Byte
  priority : Byte
  mode : Byte
  content : Byte
  duration : BitVec 16
  deriving DecidableEq, Repr

/-- The body of a CONTENT_DEFINE cue (12.3); component `i` is the 16-bit field at bits `16*i+15 .. 16*i` of `comps`. -/
structure DefineBody where
  content : Byte
  count : Byte
  stride : BitVec 16
  base : BitVec 40
  packets : BitVec 32
  comps : BitVec 128
  deriving DecidableEq, Repr

/-- The payload of a WINDOW record (12.4). -/
structure WindowRec where
  index : Byte
  kind : Byte
  stride : BitVec 16
  base : BitVec 40
  count : BitVec 32
  rate : BitVec 32
  source : Byte
  deriving DecidableEq, Repr

/-- One component of a SERVICE record as its bytes give it (12.4). -/
structure RawComponent where
  source : Pid
  output : Pid
  role : Byte
  deriving DecidableEq, Repr

/-- The payload of a SERVICE record (12.4), with the components at index below the component count that R197 has read
(at most the eight of the layout). -/
structure ServiceRec where
  index : Byte
  window : Byte
  count : Byte
  clock : Byte
  comps : List RawComponent
  deriving DecidableEq, Repr

/-- The payload of a GROUP record (12.4). -/
structure GroupRec where
  index : Byte
  set : ServiceSet
  deriving DecidableEq, Repr

/-- The payload of an ARBITER record (12.4): 16 phase codes, phase `i` at bits `8*i+7 .. 8*i`. -/
structure ArbiterRec where
  codes : BitVec 128
  deriving DecidableEq, Repr

/-- The payload of a LIMITS record (12.4, R194): the set flags and the six values in the order of the LIMITS table. -/
structure LimitsRec where
  flags : BitVec 6
  silence : BitVec 32
  tolerance : BitVec 32
  close : BitVec 32
  fetch : BitVec 32
  holdoff : BitVec 32
  threshold : BitVec 32
  deriving DecidableEq, Repr

/-- One entry of a POLICY record as its bytes give it (12.4). -/
structure PolicyItemRec where
  kind : Byte
  masked : Bool
  severity : Byte
  deriving DecidableEq, Repr

/-- The payload of a POLICY record (12.4): the entry count and the entries it counts (none where the count is out of its
range). -/
structure PolicyRec where
  count : Byte
  items : List PolicyItemRec
  deriving DecidableEq, Repr

/-- One beat returned by memory: its bytes and its status, OK or ERROR (R151). -/
structure MemBeat where
  data : BeatData
  ok : Bool
  deriving DecidableEq, Repr

/-- Where an EEPROM read is not acknowledged (R190). -/
inductive NackAt
  | deviceWrite
  | wordHigh
  | wordLow
  | deviceRead
  deriving DecidableEq, Repr

/-- How a 64-byte sequential EEPROM read ends (R190). -/
inductive EepromRead
  | record (bytes : List Byte)
  | unreadable (step : NackAt)
  deriving DecidableEq, Repr

/-- The thirteen error kinds, in the order of the error table of 10.1. -/
inductive ErrorKind
  | syncLoss
  | sequenceBreak
  | ingestOverrun
  | playoutOvertake
  | ccGap
  | transportFlag
  | malformedPacket
  | fetchLate
  | fetchFail
  | contentGuard
  | viewWrite
  | reportWriteFail
  | configError
  deriving DecidableEq, Repr

/-- The commands, one constructor per row of spec/opcode_table.json, in the table's order. -/
inductive Instr
  /-- RESET_N becomes asserted (R189). -/
  | resetNAssert
  /-- RESET_N is released with the straps at these levels (R189). -/
  | resetNRelease (mode1 mode0 : Bool)
  /-- BYPASS_N becomes asserted (R185). -/
  | bypassNAssert
  /-- BYPASS_N is released (R185). -/
  | bypassNRelease
  /-- The processor presents one write beat; `last` marks the last beat of its burst (R151, R153). -/
  | processorWriteBeat (beat : BeatAddr) (data : BeatData) (enables : Enables) (last : Bool)
  /-- The processor presents a read burst of `more + 1` beats, tagged `tag`, that touches no view packet byte (R155). -/
  | passThroughRead (tag : Nat) (beat : BeatAddr) (more : Fin 16)
  /-- The processor presents a read burst of `more + 1` beats that touches view packet bytes (R135). -/
  | viewRead (tag : Nat) (beat : BeatAddr) (more : Fin 16)
  /-- Memory answers the `run`-th write run in flight, the oldest being 0 (R154). -/
  | forwardedWriteResponse (run : Nat) (ok : Bool)
  /-- One beat of the pass-through read with memory tag `tag` returns (R151). -/
  | passThroughReadData (tag : Fin 32) (data : BeatData) (ok : Bool)
  /-- All beats of a staging buffer's ring-slot read return (R140). -/
  | stagingSlotReadData (tag : Fin 32) (beats : List MemBeat)
  /-- One beat of a view read's prefix, padding or other pass-through bytes returns (R135). -/
  | viewPrefixReadData (tag : Fin 32) (data : BeatData) (ok : Bool)
  /-- All beats of a prefetch fetch return (R86). -/
  | prefetchDataArrival (tag : Fin 32) (beats : List MemBeat)
  /-- All beats of a demand fetch return (R88). -/
  | demandDataArrival (tag : Fin 32) (beats : List MemBeat)
  /-- All beats of a content header read return (R94). -/
  | headerReadData (tag : Fin 32) (beats : List MemBeat)
  /-- All beats of one scan read return (R78). -/
  | scanReadData (tag : Fin 32) (beats : List MemBeat)
  /-- Memory answers the `write`-th report write in flight, a record write (R170). -/
  | reportRecordWriteResponse (write : Nat) (ok : Bool)
  /-- Memory answers the `write`-th report write in flight, a header write (R171). -/
  | reportHeaderWriteResponse (write : Nat) (ok : Bool)
  /-- The memory-side arbiter makes one grant; a read granted takes the free tag `tag` (R160). -/
  | arbiterGrant (tag : Fin 32)
  /-- The EEPROM read in progress ends (R190). -/
  | eepromRecordRead (result : EepromRead)
  /-- A service's silence expiry occurs (R39). -/
  | silenceExpiry (service : Fin 64)
  /-- An insertion record's close expiry occurs (R112). -/
  | insertionCloseExpiry (index : Fin 68)
  /-- The station bound of a RETURNING insertion occurs (R105). -/
  | returningStationBound (index : Fin 68)
  /-- The station bound of a returning alert run occurs (R131). -/
  | alertStationBound (service : Fin 64)
  /-- A staging buffer's fetch deadline occurs (R142). -/
  | fetchDeadline (buffer : Fin 8)
  /-- An alert's duration expiry occurs (R130). -/
  | alertDurationExpiry (entry : Fin 4)
  /-- An alert entry's close expiry occurs (R133). -/
  | alertCloseExpiry (entry : Fin 4)
  /-- The expiry of a holdoff entry occurs (R175). -/
  | holdoffExpiry (kind : ErrorKind) (index : Fin 64)
  /-- A taken SPLICE_AT_TIME cue is handled (R58). -/
  | spliceAtTime (ref : CueRef) (body : SpliceBody)
  /-- A taken SPLICE_AT_MARK cue is handled (R58). -/
  | spliceAtMark (ref : CueRef) (body : SpliceBody)
  /-- A taken CANCEL cue is handled (R62). -/
  | cancel (ref : CueRef) (service : Byte) (cueId : BitVec 32)
  /-- A taken FLUSH_SERVICE cue is handled (R63). -/
  | flushService (ref : CueRef) (service : Byte)
  /-- A taken RETURN_NOW cue is handled (R64). -/
  | returnNow (ref : CueRef) (service : Byte)
  /-- A taken ALERT_START cue is handled (R120). -/
  | alertStart (ref : CueRef) (body : AlertBody)
  /-- A taken ALERT_END cue is handled (R129). -/
  | alertEnd (ref : CueRef) (alertId : BitVec 16)
  /-- A taken CONTENT_DEFINE cue is handled (R75). -/
  | contentDefine (ref : CueRef) (body : DefineBody)
  /-- A taken CONTENT_RELEASE cue is handled (R76). -/
  | contentRelease (ref : CueRef) (content : Byte)
  /-- A WINDOW configuration record is handled (R157). -/
  | window (origin : Origin) (record : WindowRec)
  /-- A SERVICE configuration record is handled (R20). -/
  | service (origin : Origin) (record : ServiceRec)
  /-- A GROUP configuration record is handled (R117). -/
  | group (origin : Origin) (record : GroupRec)
  /-- An ARBITER configuration record is handled (R161). -/
  | arbiter (origin : Origin) (record : ArbiterRec)
  /-- A LIMITS configuration record is handled (R194). -/
  | limits (origin : Origin) (record : LimitsRec)
  /-- A POLICY configuration record is handled (R179). -/
  | policy (origin : Origin) (record : PolicyRec)
  /-- A taken APPLY_STAGED cue is handled (R68). -/
  | applyStaged (ref : CueRef) (groups arbiter : Bool)
  /-- A taken ACK_ERROR cue is handled (R69). -/
  | ackError (ref : CueRef)
  /-- A taken BYPASS cue is handled (R70). -/
  | bypass (ref : CueRef)
  /-- A taken RESUME cue is handled (R71). -/
  | resume (ref : CueRef)
  deriving DecidableEq, Repr

end Sys2Proof
end

