-- ==== Sys2Proof/Decode.lean ====
section
/-! DEFINITION. The command that a word spells by the table's bits. Every row of spec/opcode_table.json has an empty
list of fields and no fixed bits, so no word spells a command: the decoder answers none on every word. How the bytes of a
cue or of a configuration record name a command is Machine/Operands.lean. -/

namespace Sys2Proof

/-- No row of the table gives bits, so no word of any length spells a command. -/
def decodeTableWord (_nbits _w : Nat) : Option Instr := none

end Sys2Proof
end

