-- ==== Sys2Proof/Config.lean ====
section
/-! DEFINITION. What the spec fixes as a number of this part, and the one kind of free value: the order choices. -/

namespace Sys2Proof.Config

/-- FREE VALUE (DESIGN CHOICE, log 16, DESIGN CHOICE, log 2). Where the spec says that several blocks act in no order among themselves (R184, R70), or
that events that fall due together may be taken in either order, the k-th choice of which goes next is `orderChoice k`,
taken modulo the number of candidates. No body: no proof can see it. -/
opaque orderChoice : Nat → Nat

/-- Station ticks in a millisecond (R188). -/
def ticksPerMs : Nat := 27000
/-- Station ticks in a microsecond (R188). -/
def ticksPerUs : Nat := 27
/-- Station ticks in a second of an alert's duration (R120). -/
def ticksPerSecond : Nat := 27000000

/-- The range and the default of a LIMITS field (R194). -/
structure Range where
  low : Nat
  high : Nat
  default : Nat
  deriving DecidableEq, Repr

def silenceRange : Range := ⟨50, 5000, 500⟩
def toleranceRange : Range := ⟨9000, 900000, 180000⟩
def closeRange : Range := ⟨100, 60000, 5000⟩
def fetchRange : Range := ⟨1, 1000, 20⟩
def holdoffRange : Range := ⟨0, 10000, 1000⟩
def thresholdRange : Range := ⟨1, 65536, 1⟩

/-- The bounds of an INGEST window's nominal rate (R156). -/
def rateLow : Nat := 620000
def rateHigh : Nat := 150000000

/-- The general records the pending queue holds at most (R166). -/
def generalLimit : Nat := 24
/-- The reservation count below which a splice-out is granted room (R167). -/
def spliceRoom : Nat := 68
/-- The reservation count below which an alert is granted room (R167). -/
def alertRoom : Nat := 72
/-- The entries a header queue holds (R94). -/
def headerDepth : Nat := 16
/-- The entries a cue queue holds, and all of them together (R57). -/
def queueDepth : Nat := 8
def queueTotal : Nat := 256
/-- The entries the scan queue holds (R77). -/
def scanDepth : Nat := 8
/-- The requests the PASS request queue holds, and the processor's outstanding reads (R151, R155). -/
def passDepth : Nat := 32
def readLimit : Nat := 32
/-- The slots of all INGEST windows together (R156). -/
def slotTotal : Nat := 16384
/-- The slots of the boot block and the records of the EEPROM (R190, R191). -/
def bootSlots : Nat := 256

end Sys2Proof.Config
end

