-- ==== Sys2Proof/Machine/State.lean ====
section
/-! DEFINITION. The state of the GL64, block by block (00_scope.md, Block diagram), as plain data; the reasons a step can
stop; the machine right after reset. A field's initial value is its value after RESET_N. -/

namespace Sys2Proof.Machine

/-- A buffer of the part that is addressed byte by byte (the cue-ring shadow, R50; the boot shadow, R191): the bytes that
are not 0, by offset, offsets strictly rising. An unlisted offset reads 0, the value the spec gives an unwritten shadow
byte. -/
abbrev Memory := List Host.Cell

/-! ## Ingest Parser (01) -/

/-- The role of a component (R20). -/
inductive Role
  | video
  | audio
  | data
  deriving DecidableEq, Repr

/-- One component of a service (R20). -/
structure Component where
  source : Pid
  output : Pid
  role : Role
  deriving DecidableEq, Repr

/-- A defined service (R22). -/
structure Service where
  window : Fin 16
  clock : Nat
  comps : List Component
  deriving DecidableEq, Repr

/-- The input continuity state of a component (R18). -/
structure InputCC where
  last : Option CC := none
  duplicate : Bool := false
  deriving DecidableEq, Repr

/-- The assembly mode with what belongs to it (R5). The fill point is byte 0 of the expected slot in EXPECTING and the byte
after the recorded ones in IN_SLOT. -/
inductive AssemblyMode
  | seeking
  | expecting (slot : Nat)
  | inSlot (slot : Nat) (recorded : List Byte)
  deriving DecidableEq, Repr

/-- The assembly state of an INGEST window (R5). -/
structure Assembly where
  mode : AssemblyMode := .seeking
  lastTake : Option (Nat × Count32) := none
  deriving DecidableEq, Repr

structure IngestParser where
  /-- Present for the INGEST entries of the Window Table (R5). -/
  assembly : Vector (Option Assembly) 16 := Vector.replicate 16 none
  /-- The defined services; the PID map of a window is computed from them (R22). -/
  services : Vector (Option Service) 64 := Vector.replicate 64 none
  /-- One entry per component of the service (R18). -/
  inputCC : Vector (List InputCC) 64 := Vector.replicate 64 []
  deriving DecidableEq, Repr

/-! ## Slot Table (01) -/

/-- What an INSERT disposition is counted against (R23, R116). -/
inductive Source
  | insertion (index : Fin 68) (generation : Generation)
  | alert (entry : Fin 4) (generation : Generation) (service : Fin 64)
  deriving DecidableEq, Repr

/-- What a rewritten packet carries (R23). -/
structure Rewrite where
  pid : Pid
  cc : CC
  mark : Bool
  deriving DecidableEq, Repr

/-- The fields of an INSERT disposition (R23). -/
structure Insert where
  rewrite : Rewrite
  source : Source
  packet : Nat
  offset : Nat
  prefetch : Option (Fin 256)
  deriving DecidableEq, Repr

/-- The action of a disposition with the fields that are present for it (R23). PASS carries a rewrite exactly when its
rewrite flag is set. -/
inductive Action
  | pass (rewrite : Option Rewrite)
  | insert (fields : Insert)
  | null
  deriving DecidableEq, Repr

structure Disposition where
  action : Action
  bypassTake : Bool := false
  deriving DecidableEq, Repr

/-- The state of a slot record outside FILLING, and the prior state kept in FILLING (R23). -/
inductive SlotRest
  | empty
  | taken
  | played
  deriving DecidableEq, Repr

inductive SlotState
  | rest (state : SlotRest)
  | filling (prior : SlotRest)
  deriving DecidableEq, Repr

structure SlotRecord where
  state : SlotState := .rest .empty
  generation : Generation := 0
  disposition : Option Disposition := none
  deriving DecidableEq, Repr

structure SlotTable where
  /-- For each INGEST entry of the Window Table one record per slot; empty for the other entries (R23). -/
  records : Vector (List SlotRecord) 16 := Vector.replicate 16 []
  deriving DecidableEq, Repr

/-! ## Timebase Unit (02) -/

inductive ClockState
  | none
  | acquire
  | locked
  deriving DecidableEq, Repr

/-- The clock fields of a defined service (R29). -/
structure Clock where
  state : ClockState
  anchor : Option (Nat × Count32)
  p : Nat
  good : Nat
  bad : Nat
  lastSample : Option StationTime
  discontinuities : Count32
  silence : Option StationTime
  deriving DecidableEq, Repr

structure TimebaseUnit where
  clocks : Vector (Option Clock) 64 := Vector.replicate 64 none
  deriving DecidableEq, Repr

/-! ## Cue Unit (03) -/

/-- The cue-ring state (R50); the shadow's offsets count from the window base. -/
structure CueRing where
  shadow : Memory
  committed : List Bool
  head : Nat
  taken : Count32
  deriving DecidableEq, Repr

inductive QueueState
  | queued
  | waiting
  | armed
  deriving DecidableEq, Repr

/-- What a splice cue asks for, as clamped at intake (R57). -/
structure SpliceCue where
  ref : CueRef
  mark : Bool
  cueId : BitVec 32
  content : Fin 128
  t : Time90
  w : Nat
  d : Nat
  endAtContent : Bool
  deriving DecidableEq, Repr

/-- An entry of a cue queue (R57). -/
structure QueueEntry where
  cue : SpliceCue
  state : QueueState
  deriving DecidableEq, Repr

structure CueUnit where
  ring : Option CueRing := none
  queues : Vector (List QueueEntry) 64 := Vector.replicate 64 []
  pendingApply : Option CueRef := none
  deriving DecidableEq, Repr

/-! ## Content Unit (04) -/

inductive ContentState
  | free
  | queued
  | scanning
  | ready
  | failed
  deriving DecidableEq, Repr

structure ContentComponent where
  pid : Pid
  role : Role
  deriving DecidableEq, Repr

structure ContentDef where
  base : Nat
  packets : Nat
  stride : Nat
  comps : List ContentComponent
  deriving DecidableEq, Repr

/-- I_first with its position (R73). -/
structure FirstClock where
  value : Nat
  packet : Nat
  comp : Nat
  deriving DecidableEq, Repr

inductive FailReason
  | sync
  | noClock
  | memoryError
  deriving DecidableEq, Repr

/-- A content entry (R73). -/
structure ContentEntry where
  state : ContentState := .free
  definition : Option ContentDef := none
  iFirst : Option FirstClock := none
  firstCC : List (Option CC) := []
  failReason : Option FailReason := none
  failPacket : Option Nat := none
  useCount : Nat := 0
  deriving DecidableEq, Repr

/-- The scan in progress (R77, R78): what it has read and found so far; `arrived` holds the reads that returned before the
packets ahead of them, `none` for a read answered with an error. -/
structure Scan where
  content : Fin 128
  serial : Nat
  nextRead : Nat
  nextCheck : Nat
  arrived : List (Nat × Option (List Byte))
  firstCC : List (Option CC)
  videoClock : Option FirstClock
  anyClock : Option FirstClock
  deriving DecidableEq, Repr

/-- The content packet a fetch is for: its content, packet number and service, and the address of its packet byte 0
(R74, R85). -/
structure FetchTarget where
  content : Fin 128
  packet : Nat
  service : Fin 64
  address : Nat
  deriving DecidableEq, Repr

/-- The owner of a prefetch buffer: a window, a slot and a take generation (R85). -/
structure Owner where
  window : Fin 16
  slot : Nat
  generation : Generation
  deriving DecidableEq, Repr

/-- A prefetch buffer (R85). -/
inductive Prefetch
  | free
  | loading (owner : Option Owner) (target : FetchTarget)
  | ready (owner : Owner) (target : FetchTarget) (packet : List Byte)
  | failed (owner : Owner) (target : FetchTarget)
  deriving DecidableEq, Repr

/-- A demand buffer; its owner is a staging buffer (R88). -/
inductive Demand
  | free
  | loading (owner : Option (Fin 8)) (target : FetchTarget)
  | ready (owner : Fin 8) (target : FetchTarget) (packet : List Byte)
  | failed (owner : Fin 8) (target : FetchTarget)
  deriving DecidableEq, Repr

structure ContentUnit where
  entries : Vector ContentEntry 128 := Vector.replicate 128 {}
  scanQueue : List (Fin 128) := []
  scan : Option Scan := none
  prefetch : Vector Prefetch 256 := Vector.replicate 256 .free
  demand : Vector Demand 4 := Vector.replicate 4 .free
  /-- The demand wait list, oldest first (R88). -/
  demandWait : List (Fin 8 × FetchTarget) := []
  /-- The model's own: the serial number of the next scan. -/
  nextScan : Nat := 0
  deriving DecidableEq, Repr

/-! ## Splice Engine (05) -/

/-- The header fields of a content packet (R94). -/
structure Header where
  pid : Pid
  payload : Bool
  cc : CC
  clockReference : Bool
  deriving DecidableEq, Repr

inductive HeaderState
  | loading
  | ready (header : Header)
  | failed
  deriving DecidableEq, Repr

/-- An entry of a header queue (R94); `serial` ties it to its header read. -/
structure HeaderEntry where
  packet : Nat
  serial : Nat
  state : HeaderState
  deriving DecidableEq, Repr

inductive BlockCause
  | unlocked
  | alert
  | noRoom
  deriving DecidableEq, Repr

/-- The test of the ARMED head cue (R96). -/
structure CueTest where
  cue : SpliceCue
  toleranceEnd : Option Time90
  blocking : Option BlockCause
  markSeen : Bool
  deriving DecidableEq, Repr

/-- The output continuity state of a component (R91, R93). -/
structure OutputCC where
  last : Option CC := none
  passDelta : CC := 0
  contentDelta : Option CC := none
  deriving DecidableEq, Repr

inductive SpliceState
  | idle
  | armed
  | inserting
  | exhausted
  | returning
  deriving DecidableEq, Repr

/-- A station bound (R105, R131): not armed, armed at a station time, or passed. -/
inductive Bound
  | unset
  | armed (time : StationTime)
  | passed
  deriving DecidableEq, Repr

inductive AlertMode
  | full
  | audioOnly
  deriving DecidableEq, Repr

/-- The alert run of a service (R124). -/
structure AlertRun where
  entry : Fin 4
  generation : Generation
  mode : AlertMode
  content : Fin 128
  startPending : Bool
  cursor : Nat
  offset : Nat
  returning : Bool
  deadline : Option Time90
  bound : Bound
  deriving DecidableEq, Repr

/-- The splice fields of a service (R91), the role map of its current run (R95) and its alert run (R124). -/
structure SpliceFields where
  state : SpliceState := .idle
  current : Option (Fin 68) := none
  test : Option CueTest := none
  runQueue : List HeaderEntry := []
  standbyQueue : List HeaderEntry := []
  /-- For each content component of the run the index of the service component it maps to, or none (R95). -/
  roleMap : List (Option Nat) := []
  /-- One entry per component of the service (R91). -/
  outputCC : List OutputCC := []
  markPending : Bool := false
  alertHold : Bool := false
  run : Option AlertRun := none
  deriving DecidableEq, Repr

inductive RecordState
  | free
  | active
  | closing
  deriving DecidableEq, Repr

inductive EndReason
  | complete
  | contentEnd
  | returnNow
  | forcedReturn
  | preempted
  | bypass
  deriving DecidableEq, Repr

/-- An insertion record (R110), with the return deadline and station bound of its RETURNING (R105). R110 gives the state, the
generation and the counts a value at reset; the other fields are 0, absent or clear then (DESIGN CHOICE, log 50), and the fields
that R101 leaves out are so again at a splice-out. -/
structure InsertionRecord where
  state : RecordState := .free
  generation : Generation := 0
  service : Fin 64 := 0
  ref : CueRef := ⟨0, 0, 0⟩
  cueId : BitVec 32 := 0
  content : Fin 128 := 0
  d : Nat := 0
  endAtContent : Bool := false
  offset : Nat := 0
  tOut : Time90 := 0
  tReturn : Option Time90 := none
  startTime : StationTime := 0
  endTime : StationTime := 0
  cursor : Nat := 0
  planned : Nat := 0
  inserted : Count32 := 0
  aired : Count32 := 0
  lost : Count32 := 0
  nulls : Count32 := 0
  outstanding : Count32 := 0
  unconfirmed : Count32 := 0
  endReason : Option EndReason := none
  clockJump : Bool := false
  forcedReturn : Bool := false
  closeExpiry : Option StationTime := none
  deadline : Option Time90 := none
  bound : Bound := .unset
  deriving DecidableEq, Repr

structure SpliceEngine where
  services : Vector SpliceFields 64 := Vector.replicate 64 {}
  records : Vector InsertionRecord 68 := Vector.replicate 68 {}
  /-- The model's own: the serial number of the next header read. -/
  nextHeader : Nat := 0
  deriving DecidableEq, Repr

/-! ## Alert Unit (06) -/

inductive AlertState
  | free
  | active
  | ending
  | closing
  deriving DecidableEq, Repr

inductive AlertEnd
  | ended
  | expired
  | bypass
  deriving DecidableEq, Repr

/-- An Alert Table entry (R115). R115 gives the state, the generation, the counts, the preempted-by values and the expiries a value
at reset; the other fields are 0, FULL, empty or absent then (DESIGN CHOICE, log 50). -/
structure AlertEntry where
  state : AlertState := .free
  generation : Generation := 0
  alertId : BitVec 16 := 0
  startOrder : Count32 := 0
  priority : Fin 4 := 0
  mode : AlertMode := .full
  content : Fin 128 := 0
  duration : BitVec 16 := 0
  ref : CueRef := ⟨0, 0, 0⟩
  startTime : StationTime := 0
  endTime : Option StationTime := none
  captured : ServiceSet := 0
  aired : Vector Count32 64 := Vector.replicate 64 0
  lost : Vector Count32 64 := Vector.replicate 64 0
  preemptedBy : Vector (Option (BitVec 16)) 64 := Vector.replicate 64 none
  inserted : Count32 := 0
  outstanding : Count32 := 0
  unconfirmed : Count32 := 0
  endReason : Option AlertEnd := none
  durationExpiry : Option StationTime := none
  closeExpiry : Option StationTime := none
  deriving DecidableEq, Repr

/-- The alert overlay of a service (R123): outside NONE the entry and generation of one alert. -/
inductive Overlay
  | none
  | airing (entry : Fin 4) (generation : Generation)
  | returning (entry : Fin 4) (generation : Generation)
  deriving DecidableEq, Repr

structure AlertUnit where
  entries : Vector AlertEntry 4 := Vector.replicate 4 {}
  startOrder : Count32 := 0
  activeMaps : Vector ServiceSet 8 := Vector.replicate 8 0
  stagedMaps : Vector ServiceSet 8 := Vector.replicate 8 0
  overlays : Vector Overlay 64 := Vector.replicate 64 .none
  deriving DecidableEq, Repr

/-! ## Fault Unit (10) -/

inductive Severity
  | contain
  | bypass
  deriving DecidableEq, Repr

structure PolicyItem where
  masked : Bool
  severity : Severity
  deriving DecidableEq, Repr

/-- The first-error capture (R181). -/
structure Capture where
  kind : ErrorKind
  index : Nat
  time : StationTime
  address : Nat
  packet : Option (List Byte)
  deriving DecidableEq, Repr

inductive PartState
  | starting
  | operating
  | bypass
  deriving DecidableEq, Repr

inductive LatchCause
  | error
  | cue
  | config
  | transparent
  deriving DecidableEq, Repr

/-- The error policy after RESET_N (R178): every kind unmasked; REPORT_WRITE_FAIL and CONFIG_ERROR, the last two of the
thirteen, have severity BYPASS. -/
def defaultPolicy : Vector PolicyItem 13 :=
  ((Vector.replicate 13 ⟨false, .contain⟩).set 11 ⟨false, .bypass⟩).set 12 ⟨false, .bypass⟩

structure FaultUnit where
  policy : Vector PolicyItem 13 := defaultPolicy
  capture : Option Capture := none
  part : PartState := .starting
  pinHold : Bool := false
  latch : Option LatchCause := none
  deriving DecidableEq, Repr

/-! ## Report Unit (09, 12.5) -/

/-- The outcomes of a CUE_RESULT (R56), in the order of their codes (R198). -/
inductive CueOutcome
  | done
  | refusedMalformed
  | refusedBypass
  | undefined
  | queueFull
  | inUse
  | conflict
  | notFound
  | cancelled
  | flushed
  | missedContent
  | missed
  | missedLate
  | missedNoMark
  | tableFull
  | reportFull
  | content
  | replaced
  | pinHeld
  deriving DecidableEq, Repr

structure CueResult where
  ref : CueRef
  kind : Byte
  service : Option Byte
  cueId : Option (BitVec 32)
  outcome : CueOutcome
  detail : Option Byte
  pendingWrap : Bool
  deriving DecidableEq, Repr

inductive JumpCause
  | flag
  | spacing
  | error
  deriving DecidableEq, Repr

inductive ClockEventKind
  | lock
  | unlock
  | jump
  | silent
  deriving DecidableEq, Repr

/-- A CLOCK_EVENT record (R41); `after` holds the clock fields after the event. -/
structure ClockEvent where
  service : Fin 64
  kind : ClockEventKind
  cause : Option JumpCause
  before : ClockState
  error : Option Int
  spacing : Option Nat
  after : Clock
  deriving DecidableEq, Repr

/-- A CONTENT_STATE record (R80): the entry as the end of its scan leaves it. -/
structure ContentReport where
  content : Fin 128
  entry : ContentEntry
  deriving DecidableEq, Repr

/-- A SPLICE_STARTED record (R102). -/
structure SpliceStarted where
  index : Fin 68
  record : InsertionRecord
  n : Count32
  deriving DecidableEq, Repr

/-- An ALERT_STARTED record (R122). -/
structure AlertStarted where
  index : Fin 4
  entry : AlertEntry
  taken : ServiceSet
  deriving DecidableEq, Repr

inductive BypassEffect
  | none
  | entered
  | held
  deriving DecidableEq, Repr

/-- An ERROR record (R182). -/
structure ErrorReport where
  kind : ErrorKind
  index : Nat
  address : Nat
  packet : Option (List Byte)
  severity : Severity
  effect : BypassEffect
  captured : Bool
  held : Option Capture
  repeats : Nat
  deriving DecidableEq, Repr

inductive StartMode
  | transparent
  | eeprom
  | boot
  | both
  deriving DecidableEq, Repr

inductive FailCause
  | unreadable
  | unknownKind
  deriving DecidableEq, Repr

/-- What made start-up fail (R193): the source, the record index or slot, and the cause. -/
structure StartFailure where
  fromBoot : Bool
  index : Nat
  cause : FailCause
  deriving DecidableEq, Repr

/-- A STARTED record (R193). -/
structure StartReport where
  mode : StartMode
  failure : Option StartFailure
  part : PartState
  pinHold : Bool
  eepromLoaded : Nat
  eepromRefused : Nat
  bootLoaded : Nat
  bootRefused : Nat
  deriving DecidableEq, Repr

/-- The nine kinds of report record (09, 9.7). AS_RUN and ALERT_AS_RUN carry the record or entry as its close leaves it
before it becomes FREE. -/
inductive ReportBody
  | cueResult (fields : CueResult)
  | clockEvent (fields : ClockEvent)
  | contentState (fields : ContentReport)
  | spliceStarted (fields : SpliceStarted)
  | alertStarted (fields : AlertStarted)
  | error (fields : ErrorReport)
  | started (fields : StartReport)
  | asRun (index : Fin 68) (record : InsertionRecord)
  | alertAsRun (index : Fin 4) (entry : AlertEntry)
  deriving DecidableEq, Repr

/-- A record of the pending report queue with its production number and station time (R166, R198). -/
structure ReportRecord where
  body : ReportBody
  number : Count32
  time : StationTime
  deriving DecidableEq, Repr

inductive WriteKind
  | record (dropped : Nat)
  | header
  deriving DecidableEq, Repr

/-- A report write (R170, R171): what it writes, the beat address it starts at, and its beats with their enables. -/
structure ReportWrite where
  serial : Nat
  kind : WriteKind
  address : Nat
  beats : List (List Byte × Enables)
  deriving DecidableEq, Repr

/-- The report-ring state (R169); `outstanding` names the outstanding write by its serial number. -/
structure ReportRing where
  produced : Count32 := 0
  consumed : Count32 := 0
  headerPending : Bool := true
  outstanding : Option Nat := none
  deriving DecidableEq, Repr

/-- An entry of the holdoff table (R175). -/
inductive Holdoff
  | idle
  | holding (repeats : Nat) (expiry : StationTime)
  | lapsed (repeats : Nat)
  deriving DecidableEq, Repr

structure ReportUnit where
  queue : List ReportRecord := []
  production : Count32 := 0
  dropped : Nat := 0
  reservation : Nat := 0
  ring : Option ReportRing := none
  cueTaken : Count32 := 0
  halted : Bool := false
  holdoff : Vector Holdoff 388 := Vector.replicate 388 .idle
  attn : Bool := false
  /-- What the REPORT requester holds (R159). -/
  writes : List ReportWrite := []
  /-- The report writes in memory whose response has not come back. -/
  issued : List ReportWrite := []
  /-- The model's own: the serial number of the next report write. -/
  nextWrite : Nat := 0
  deriving DecidableEq, Repr

/-! ## Path Unit (07, 08) -/

/-- A Window Table entry (R156). -/
inductive WindowEntry
  | empty
  | ingest (base slots stride rate : Nat)
  | view (base : Nat) (source : Fin 16)
  | cue (base slots : Nat)
  | report (base records : Nat)
  deriving DecidableEq, Repr

inductive PlayOutcome
  | aired
  | lost
  | none
  deriving DecidableEq, Repr

/-- What a staging buffer waits for (R136, R141): its ring-slot read, a prefetch buffer, a place on the demand wait list
or a demand buffer. -/
inductive StagingWait
  | nothing
  | ringSlot
  | prefetch (buffer : Fin 256)
  | demandListed
  | demand (buffer : Fin 4)
  deriving DecidableEq, Repr

/-- A staging buffer that is not FREE (R136): ASSEMBLING, or HELD where `held` is set. `void` is served-as VOID. The packet
is absent until it has been built. `claim` is the model's own serial number of the claim. -/
structure StagingUse where
  window : Fin 16
  slot : Nat
  generation : Generation
  disposition : Disposition
  held : Bool
  void : Bool
  outcome : PlayOutcome
  packet : Option (List Byte)
  deadline : Option StationTime
  wait : StagingWait
  lastUse : StationTime
  claim : Nat
  deriving DecidableEq, Repr

/-- What a memory-side read is for (R151); a header read keeps the address of its packet's byte 0. -/
inductive ReadUse
  | pass (request : Nat)
  | view (request : Nat)
  | staging (buffer : Fin 8) (claim : Nat)
  | prefetch (buffer : Fin 256)
  | demand (buffer : Fin 4)
  | header (service : Fin 64) (serial address : Nat)
  | scan (serial packet : Nat)
  deriving DecidableEq, Repr

/-- A memory read burst of `count` beats from beat address `beat`. -/
structure MemRead where
  beat : Nat
  count : Nat
  use : ReadUse
  deriving DecidableEq, Repr

/-- A write run (R154): the processor burst it belongs to, its first beat address, its beats, and whether it is complete. -/
structure WriteRun where
  burst : Nat
  beat : Nat
  beats : List (BeatData × Enables)
  closed : Bool
  deriving DecidableEq, Repr

inductive PassRequest
  | write (run : WriteRun)
  | read (request : MemRead)
  deriving DecidableEq, Repr

/-- A memory-side read tag in use (R151): its read, and how many beats of it have returned. -/
structure TagUse where
  read : MemRead
  got : Nat
  deriving DecidableEq, Repr

/-- The ingest slot that a view byte stands for, as the Window Table gave it when its beat was decoded (R135, R152): window,
slot number, and the memory address of the slot's byte 0. -/
structure SlotRef where
  window : Fin 16
  slot : Nat
  base : Nat
  deriving DecidableEq, Repr

/-- How a packet byte of a view read is served (R137): its slot record has not been looked at, its read waits for a buffer, it
is served from a staging buffer, or it is in hand from a HELD buffer that has been claimed for another slot since (DEDUCED, log 11). -/
inductive Serving
  | undecided
  | waiting
  | buffer (b : Fin 8)
  | reclaimed (use : StagingUse)
  deriving DecidableEq, Repr

/-- What one byte of a processor read comes from (R135): it is in hand, it came with an error response, it is byte
`offset` of the data of a memory read, it is packet byte `k` of an ingest slot (at memory address `address`), or that
packet byte of an overtake, served from a null packet (R138). -/
inductive ByteSource
  | got (byte : Byte)
  | failed (byte : Byte)
  | memory (request : Nat) (offset : Nat)
  | packet (slot : SlotRef) (k address : Nat) (serving : Serving)
  | overtaken (k address : Nat)
  deriving DecidableEq, Repr

/-- One beat of a processor read, and where its bytes come from. `view` is set for a beat that is served as R135 gives: one with
bytes in a VIEW window, in a burst that touches view packet bytes. Every other beat is a pass-through beat (R135, R155). -/
structure ReadBeat where
  view : Bool
  bytes : List ByteSource
  deriving DecidableEq, Repr

/-- An outstanding processor read: the beats that have not been returned (R135, R155). -/
structure ProcRead where
  tag : Nat
  beats : List ReadBeat
  deriving DecidableEq, Repr

/-- A processor write burst whose response is owed (R154). -/
structure WriteBurst where
  serial : Nat
  refused : Bool
  failed : Bool
  runs : Nat
  decided : Bool
  deriving DecidableEq, Repr

/-- A request presented at the processor-side port. -/
inductive PortRequest
  | write (beat : BeatAddr) (data : BeatData) (enables : Enables) (last : Bool)
  | read (tag : Nat) (beat : BeatAddr) (more : Fin 16)
  deriving DecidableEq, Repr

/-- The default phase table (R161), by requester code: 0 PASS, 1 FETCH, 2 SCAN, 3 REPORT (12.4). -/
def defaultTable : Vector Byte 16 :=
  (((((((Vector.replicate 16 0).set 10 1).set 11 1).set 12 1).set 13 3).set 14 3).set 15 2)

structure PathUnit where
  windows : Vector WindowEntry 16 := Vector.replicate 16 .empty
  /-- `none` is FREE. -/
  staging : Vector (Option StagingUse) 8 := Vector.replicate 8 none
  /-- The first 32 are the PASS request queue; the rest wait to enter it (DEDUCED, log 7). -/
  passQueue : List PassRequest := []
  tags : Vector (Option TagUse) 32 := Vector.replicate 32 none
  /-- In the order of their acceptance. -/
  reads : List ProcRead := []
  /-- Requests presented and not accepted. -/
  held : List PortRequest := []
  /-- Inside a write burst being presented: the next beat address and how many beats have come. -/
  presented : Option (Nat × Nat) := none
  /-- The write burst whose beats are being decoded. -/
  openBurst : Option Nat := none
  bursts : List WriteBurst := []
  /-- The write runs in memory whose response has not come back, oldest first, by burst. -/
  issuedRuns : List Nat := []
  fetchQueue : List MemRead := []
  /-- The demand fetches not granted yet, oldest first. -/
  demandQueue : List MemRead := []
  activeTable : Vector Byte 16 := defaultTable
  stagedTable : Vector Byte 16 := defaultTable
  phase : Fin 16 := 0
  /-- The model's own serial numbers (DESIGN CHOICE, log 8). -/
  nextRequest : Nat := 0
  nextClaim : Nat := 0
  nextBurst : Nat := 0
  deriving DecidableEq, Repr

/-! ## Start-up Loader and Station Clock (11) -/

/-- The boot shadow (R191); the shadow's offsets are addresses. -/
structure BootShadow where
  shadow : Memory := []
  committed : List Bool := List.replicate 256 false
  head : Nat := 0
  deriving DecidableEq, Repr

inductive LoadStage
  | off
  | eeprom (record : Nat)
  | snoop
  | ended
  deriving DecidableEq, Repr

structure StartLoader where
  mode : Option StartMode := none
  stage : LoadStage := .off
  boot : Option BootShadow := none
  eepromLoaded : Nat := 0
  eepromRefused : Nat := 0
  bootLoaded : Nat := 0
  bootRefused : Nat := 0
  deriving DecidableEq, Repr

/-- The LIMITS fields in their own units (R194). -/
structure Limits where
  silence : Nat := Config.silenceRange.default
  tolerance : Nat := Config.toleranceRange.default
  close : Nat := Config.closeRange.default
  fetch : Nat := Config.fetchRange.default
  holdoff : Nat := Config.holdoffRange.default
  threshold : Nat := Config.thresholdRange.default
  deriving DecidableEq, Repr

/-- One step of a transaction on the two-wire bus (R190). -/
inductive BusStep
  | start
  | send (byte : Byte)
  | repeatedStart
  | receive (acknowledged : Bool)
  | stop
  deriving DecidableEq, Repr

/-- What leaves the part: a beat returned to the processor (no bytes where the beat is an error made of discarded bytes,
R135), a write response to the processor, a read or a write issued to memory, an EEPROM read begun. -/
inductive PortEvent
  | readBeat (tag : Nat) (bytes : Option (List Byte)) (ok : Bool)
  | writeResponse (burst : Nat) (ok : Bool)
  | memoryRead (tag : Fin 32) (read : MemRead)
  | memoryWrite (beat : Nat) (beats : List (List Byte × Enables))
  | eepromRead (steps : List BusStep)
  deriving DecidableEq, Repr

/-- A step never ends in a fault: the part's errors are effects on its state (R178 to R187). -/
inductive Fault
  deriving DecidableEq, Repr

inductive Refusal
  /-- Raised by an arm of exec whose command has no meaning yet. Safe: the model stops. -/
  | notModelled (mnemonic : String)
  /-- Raised by the port commands: the operands break the protocol of the ports (R151: a write beat that does not continue
  its burst, or a 17th beat; a burst that runs past address 2^40 − 1; data whose beats are not those of the read they
  answer; R190: an EEPROM read that does not end with 64 bytes). The spec gives such a command no effect. Safe: the model
  stops. -/
  | portProtocol
  deriving DecidableEq, Repr

structure State where
  /-- The model's own: the commands that wait, first in, first out. -/
  pending : List Instr := []
  /-- RESET_N is asserted (R189; at reset DESIGN CHOICE, log 5). -/
  resetHeld : Bool := true
  /-- Station time (R188). -/
  clock : StationTime := 0
  limits : Limits := {}
  path : PathUnit := {}
  ingest : IngestParser := {}
  slots : SlotTable := {}
  timebase : TimebaseUnit := {}
  cue : CueUnit := {}
  splice : SpliceEngine := {}
  content : ContentUnit := {}
  alert : AlertUnit := {}
  report : ReportUnit := {}
  fault : FaultUnit := {}
  loader : StartLoader := {}
  /-- The model's own: what has left the ports since reset, oldest first (DESIGN CHOICE, log 25). -/
  ports : List PortEvent := []
  /-- The model's own: how many free order choices have been used (DESIGN CHOICE, log 16). -/
  free : Nat := 0
  deriving DecidableEq, Repr

/-- The machine while RESET_N is asserted, BYPASS_N not asserted, nothing waiting: every block at its reset value (R189). -/
def State.reset : State := {}

end Sys2Proof.Machine
end

