-- ==== Sys2Proof/Machine/Memory.lean ====
section
/-! DEFINITION. The byte-addressed buffers of the part (the shadows of R50 and R191) and numbers written in bytes. -/

namespace Sys2Proof.Machine

/-- The byte an offset holds; an unlisted offset holds 0, the start value of every shadow byte (R50, R191). -/
def Memory.read : Memory → Nat → Byte
  | [], _ => 0
  | (a, b) :: rest, i => if a = i then b else Memory.read rest i

/-- The canonical form: offsets strictly rising from `low`, and no entry of value 0. -/
def Memory.wfFrom : Nat → Memory → Bool
  | _, [] => true
  | low, (a, b) :: rest => decide (low ≤ a) && (b != 0) && Memory.wfFrom (a + 1) rest

/-- A buffer is in canonical form. -/
def Memory.wf (m : Memory) : Bool := Memory.wfFrom 0 m

/-- Drops the entry of offset `i`, if there is one. -/
def Memory.erase : Memory → Nat → Memory
  | [], _ => []
  | (a, b) :: rest, i => if a = i then rest else if i < a then (a, b) :: rest else (a, b) :: Memory.erase rest i

/-- Sets offset `i` to a byte that is not 0, keeping the order. -/
def Memory.insert : Memory → Nat → Byte → Memory
  | [], i, v => [(i, v)]
  | (a, b) :: rest, i, v =>
    if a = i then (i, v) :: rest
    else if i < a then (i, v) :: (a, b) :: rest
    else (a, b) :: Memory.insert rest i v

/-- Writes one byte; writing 0 removes the entry, so that equal buffers are equal lists. -/
def Memory.write (m : Memory) (i : Nat) (v : Byte) : Memory :=
  if v = 0 then m.erase i else m.insert i v

/-- `n` bytes from offset `i`, in rising order. -/
def Memory.readBytes (m : Memory) (i n : Nat) : List Byte :=
  (List.range n).map fun k => m.read (i + k)

/-- Byte `i` of a beat. -/
def laneByte (data : BeatData) (i : Nat) : Byte := data.extractLsb' (8 * i) 8

/-- The 16 bytes of a beat. -/
def beatBytes (data : BeatData) : List Byte := (List.range 16).map (laneByte data)

/-- The lanes of a beat whose enables are set, in rising order. -/
def enabledLanes (enables : Enables) : List Nat := (List.range 16).filter fun i => enables.getLsbD i

/-- Writes the enabled bytes of a beat at the offsets that `place` gives their lanes. -/
def Memory.writeLanes (m : Memory) (offset : Nat) (data : BeatData) (lanes : List Nat) : Memory :=
  lanes.foldl (fun m i => m.write (offset + i) (laneByte data i)) m

/-- The value of bytes read little-endian: the first byte holds the least significant bits (R195). -/
def leNat : List Byte → Nat
  | [] => 0
  | b :: rest => b.toNat + 256 * leNat rest

/-- The value of bytes read big-endian, as the fields of packets travel (R195). -/
def beNat (bytes : List Byte) : Nat := bytes.foldl (fun v b => 256 * v + b.toNat) 0

/-- `n` bytes of a number, little-endian (R195). -/
def leBytes : Nat → Nat → List Byte
  | 0, _ => []
  | n + 1, v => BitVec.ofNat 8 v :: leBytes n (v / 256)

/-- `n` bytes of a number, big-endian (R195). -/
def beBytes (n v : Nat) : List Byte := (leBytes n v).reverse

/-- Replaces the bytes from offset `i` on. -/
def overwrite (bytes : List Byte) (i : Nat) : List Byte → List Byte
  | [] => bytes
  | b :: rest => overwrite (bytes.set i b) (i + 1) rest

/-- The byte at an offset; 0 past the end. -/
def byteAt (bytes : List Byte) (i : Nat) : Byte := bytes.getD i 0

/-- The `n` bytes from offset `i`. -/
def slice (bytes : List Byte) (i n : Nat) : List Byte := (bytes.drop i).take n

end Sys2Proof.Machine
end

