-- ==== Sys2Proof/Machine/Ops.lean ====
section
/-! DEFINITION. The named operations over the blocks: updating one block, addressing windows, slots and content packets,
station time and expiries. -/

namespace Sys2Proof.Machine

/-! ## Updating one block -/

def State.onPath (s : State) (f : PathUnit → PathUnit) : State := { s with path := f s.path }
def State.onIngest (s : State) (f : IngestParser → IngestParser) : State := { s with ingest := f s.ingest }
def State.onSlots (s : State) (f : SlotTable → SlotTable) : State := { s with slots := f s.slots }
def State.onTimebase (s : State) (f : TimebaseUnit → TimebaseUnit) : State := { s with timebase := f s.timebase }
def State.onCue (s : State) (f : CueUnit → CueUnit) : State := { s with cue := f s.cue }
def State.onSplice (s : State) (f : SpliceEngine → SpliceEngine) : State := { s with splice := f s.splice }
def State.onContent (s : State) (f : ContentUnit → ContentUnit) : State := { s with content := f s.content }
def State.onAlert (s : State) (f : AlertUnit → AlertUnit) : State := { s with alert := f s.alert }
def State.onReport (s : State) (f : ReportUnit → ReportUnit) : State := { s with report := f s.report }
def State.onFault (s : State) (f : FaultUnit → FaultUnit) : State := { s with fault := f s.fault }
def State.onLoader (s : State) (f : StartLoader → StartLoader) : State := { s with loader := f s.loader }
def State.onLimits (s : State) (f : Limits → Limits) : State := { s with limits := f s.limits }

/-- Something leaves a port. -/
def State.emit (s : State) (e : PortEvent) : State := { s with ports := s.ports ++ [e] }

/-- Updates one element of a table. -/
def modifyAt {α : Type} {n : Nat} (v : Vector α n) (i : Fin n) (f : α → α) : Vector α n := v.set i (f v[i])

/-- Updates the splice fields of a service (R91). -/
def State.onFields (s : State) (i : Fin 64) (f : SpliceFields → SpliceFields) : State :=
  s.onSplice fun u => { u with services := modifyAt u.services i f }

/-- Updates an insertion record (R110). -/
def State.onRecord (s : State) (i : Fin 68) (f : InsertionRecord → InsertionRecord) : State :=
  s.onSplice fun u => { u with records := modifyAt u.records i f }

/-- Updates an alert entry (R115). -/
def State.onEntry (s : State) (i : Fin 4) (f : AlertEntry → AlertEntry) : State :=
  s.onAlert fun u => { u with entries := modifyAt u.entries i f }

/-- Updates a content entry (R73). -/
def State.onContentEntry (s : State) (i : Fin 128) (f : ContentEntry → ContentEntry) : State :=
  s.onContent fun u => { u with entries := modifyAt u.entries i f }

/-- Updates the cue queue of a service (R57). -/
def State.onQueue (s : State) (i : Fin 64) (f : List QueueEntry → List QueueEntry) : State :=
  s.onCue fun u => { u with queues := modifyAt u.queues i f }

/-- Sets a staging buffer (R136). -/
def State.setStaging (s : State) (b : Fin 8) (u : Option StagingUse) : State :=
  s.onPath fun p => { p with staging := p.staging.set b u }

/-- The lowest-numbered element that passes a test. -/
def lowest {α : Type} {n : Nat} (v : Vector α n) (test : α → Bool) : Option (Fin n) :=
  (List.finRange n).find? fun i => test v[i]

/-! ## Station time (R188) -/

/-- An expiry armed at `x` has been reached: (station time − x) mod 2^48 is less than 2^47 (R188). -/
def reached (now x : StationTime) : Bool := decide ((now - x).toNat < 2 ^ 47)

/-- The station time `ticks` after `now`. -/
def after (now : StationTime) (ticks : Nat) : StationTime := now + BitVec.ofNat 48 ticks

/-- An expiry is due: it is armed and reached. -/
def due (now : StationTime) : Option StationTime → Bool
  | some x => reached now x
  | none => false

def Bound.due (now : StationTime) : Bound → Bool
  | .armed x => reached now x
  | .unset | .passed => false

/-- The close limit in station ticks (R112, R194). -/
def State.closeTicks (s : State) : Nat := s.limits.close * Config.ticksPerMs
/-- The silence timeout in station ticks (2.3). -/
def State.silenceTicks (s : State) : Nat := s.limits.silence * Config.ticksPerMs
/-- The fetch deadline in station ticks (R141). -/
def State.fetchTicks (s : State) : Nat := s.limits.fetch * Config.ticksPerUs
/-- The error holdoff in station ticks (R175). -/
def State.holdoffTicks (s : State) : Nat := s.limits.holdoff * Config.ticksPerMs

/-! ## Windows, slots and packets -/

/-- The size in bytes of a window (R156); a VIEW has the size of its source. -/
def windowSize (t : Vector WindowEntry 16) : WindowEntry → Nat
  | .empty => 0
  | .ingest _ slots stride _ => slots * stride
  | .view _ source =>
    match t[source] with
    | .ingest _ slots stride _ => slots * stride
    | _ => 0
  | .cue _ slots => slots * 64
  | .report _ records => 64 + records * 128

def WindowEntry.base : WindowEntry → Nat
  | .empty => 0
  | .ingest base _ _ _ => base
  | .view base _ => base
  | .cue base _ => base
  | .report base _ => base

/-- The address lies in the window of that entry. -/
def inWindow (t : Vector WindowEntry 16) (i : Fin 16) (a : Nat) : Bool :=
  decide (t[i].base ≤ a ∧ a < t[i].base + windowSize t t[i])

/-- The window that holds an address, if one does (R152; windows share no byte, R156). -/
def windowAt (t : Vector WindowEntry 16) (a : Nat) : Option (Fin 16) :=
  (List.finRange 16).find? fun i => inWindow t i a

/-- The slots of an INGEST entry; none for the other kinds. -/
def slotCount : WindowEntry → Nat
  | .ingest _ slots _ _ => slots
  | _ => 0

/-- The slot bytes ahead of packet byte 0: 4 in stride 192, none otherwise (R3). -/
def packetStart (stride : Nat) : Nat := if stride = 192 then 4 else 0

/-- The take byte: the last byte of the recorded span (R3). -/
def takeByte (stride : Nat) : Nat := if stride = 192 then 191 else 187

/-- The address of byte 0 of an ingest slot (R2); 0 for an entry that is not INGEST. -/
def slotAddress (w : WindowEntry) (slot : Nat) : Nat :=
  match w with
  | .ingest base _ stride _ => base + slot * stride
  | _ => 0

/-- The address of packet byte 0 of an ingest slot (R3). -/
def slotPacketAddress (w : WindowEntry) (slot : Nat) : Nat :=
  match w with
  | .ingest base _ stride _ => base + slot * stride + packetStart stride
  | _ => 0

/-- The address of packet byte 0 of a content packet (R74). -/
def contentPacketAddress (d : ContentDef) (k : Nat) : Nat := d.base + k * d.stride + packetStart d.stride

/-- The region of a content runs from its base to one byte short of this (R74). -/
def contentEnd (d : ContentDef) : Nat := d.base + d.packets * d.stride

/-- The memory read burst of the beats that hold `n` bytes from an address (R78, R86, R94). -/
def beatsHolding (address n : Nat) (use : ReadUse) : MemRead :=
  { beat := address / 16, count := (address + n - 1) / 16 - address / 16 + 1, use := use }

/-- The `n` bytes from an address out of the beats that hold them. -/
def bytesOfBeats (address n : Nat) (beats : List MemBeat) : List Byte :=
  slice (beats.flatMap fun b => beatBytes b.data) (address % 16) n

/-- The REPORT window's base and record count, while one is defined (R168; at most one entry is REPORT, R156). -/
def State.reportWindow (s : State) : Option (Nat × Nat) :=
  s.path.windows.toList.findSome? fun w =>
    match w with
    | .report base records => some (base, records)
    | _ => none

/-- The slot record of a slot; the start value where the window holds none (R23). -/
def State.slotRecord (s : State) (w : Fin 16) (slot : Nat) : SlotRecord := s.slots.records[w].getD slot {}

/-- Updates a slot record. -/
def State.onSlot (s : State) (w : Fin 16) (slot : Nat) (f : SlotRecord → SlotRecord) : State :=
  s.onSlots fun t => { t with records := modifyAt t.records w fun l => l.modify slot f }

/-- The part takes no part in the splicing business: BYPASS or STARTING (R25, R93, R149). -/
def State.aside (s : State) : Bool := s.fault.part != .operating

/-! ## Free order choices (DESIGN CHOICE, log 16) -/

/-- Takes one element of a non-empty list of lists' heads at a time, the k-th time the list that `Config.orderChoice k`
names among those not empty, so that each list keeps its order. A choice is used only where two or more lists have
elements left. `fuel` bounds the elements. -/
def interleave {α : Type} : Nat → Nat → List (List α) → List α × Nat
  | 0, free, _ => ([], free)
  | fuel + 1, free, lists =>
    match lists.filter (fun l => !l.isEmpty) with
    | [] => ([], free)
    | [l] => (l, free)
    | l :: m :: more =>
      let live := l :: m :: more
      let pick := Config.orderChoice free % live.length
      let rest := live.modify pick List.tail
      let (out, free') := interleave fuel (free + 1) rest
      ((live.getD pick []).take 1 ++ out, free')

end Sys2Proof.Machine
end

