-- ==== Sys2Proof/WellFormed.lean ====
section
/-! DEFINITION. Which commands the ports, the EEPROM and the record layouts can carry. -/

namespace Sys2Proof

/-- A read burst does not run past address 2^40 − 1 (R151). -/
def burstFits (beat : BeatAddr) (more : Fin 16) : Bool :=
  decide (beat.toNat + more.val + 1 ≤ 2 ^ 36)

/-- A memory read returns 1 to 16 beats (R151). -/
def beatsFit (beats : List MemBeat) : Bool :=
  decide (1 ≤ beats.length ∧ beats.length ≤ 16)

/-- An EEPROM read that ends returns 64 bytes (R190). -/
def EepromRead.wellFormed : EepromRead → Bool
  | .record bytes => decide (bytes.length = 64)
  | .unreadable _ => true

/-- A SERVICE record carries the components its count names, eight at most (12.4, R197). -/
def ServiceRec.wellFormed (r : ServiceRec) : Bool :=
  decide (r.comps.length = min r.count.toNat 8)

/-- A POLICY record carries the entries its count names while the count is 1 to 13, none otherwise (12.4). -/
def PolicyRec.wellFormed (r : PolicyRec) : Bool :=
  decide (r.items.length = if 1 ≤ r.count.toNat ∧ r.count.toNat ≤ 13 then r.count.toNat else 0)

/-- The scope indexes of an error kind (10.1): 16 windows, 64 services, or one. -/
def ErrorKind.scopeSize : ErrorKind → Nat
  | .syncLoss | .sequenceBreak | .ingestOverrun | .playoutOvertake => 16
  | .ccGap | .transportFlag | .malformedPacket | .fetchLate | .fetchFail => 64
  | .contentGuard | .viewWrite | .reportWriteFail | .configError => 1

/-- A cue's ring slot lies in the largest CUE window (R49). -/
def CueRef.wellFormed (r : CueRef) : Bool := decide (r.slot < 256)

def Origin.wellFormed : Origin → Bool
  | .cue ref => ref.wellFormed
  | .eeprom | .boot => true

/-- The commands that their carriers admit. -/
def Instr.wellFormed : Instr → Bool
  | .resetNAssert | .resetNRelease _ _ | .bypassNAssert | .bypassNRelease => true
  | .processorWriteBeat _ _ _ _ => true
  | .passThroughRead _ beat more => burstFits beat more
  | .viewRead _ beat more => burstFits beat more
  | .forwardedWriteResponse _ _ | .passThroughReadData _ _ _ | .viewPrefixReadData _ _ _ => true
  | .stagingSlotReadData _ beats => beatsFit beats
  | .prefetchDataArrival _ beats => beatsFit beats
  | .demandDataArrival _ beats => beatsFit beats
  | .headerReadData _ beats => beatsFit beats
  | .scanReadData _ beats => beatsFit beats
  | .reportRecordWriteResponse _ _ | .reportHeaderWriteResponse _ _ | .arbiterGrant _ => true
  | .eepromRecordRead result => result.wellFormed
  | .silenceExpiry _ | .insertionCloseExpiry _ | .returningStationBound _ | .alertStationBound _ => true
  | .fetchDeadline _ | .alertDurationExpiry _ | .alertCloseExpiry _ => true
  | .holdoffExpiry kind index => decide (index.val < kind.scopeSize)
  | .spliceAtTime ref _ | .spliceAtMark ref _ | .cancel ref _ _ | .flushService ref _ => ref.wellFormed
  | .returnNow ref _ | .alertStart ref _ | .alertEnd ref _ | .contentDefine ref _ => ref.wellFormed
  | .contentRelease ref _ | .applyStaged ref _ _ | .ackError ref | .bypass ref | .resume ref => ref.wellFormed
  | .window origin _ | .group origin _ | .arbiter origin _ | .limits origin _ => origin.wellFormed
  | .service origin record => origin.wellFormed && record.wellFormed
  | .policy origin record => origin.wellFormed && record.wellFormed

end Sys2Proof
end

