-- ==== Sys2Proof/Machine/Images.lean ====
section
/-! DEFINITION. The bytes of report records and of the report ring's header (12.5, R198). -/

namespace Sys2Proof.Machine

/-- A field of a record: its first byte, its width in bytes and its value; little-endian (R195). -/
abbrev Field := Nat × Nat × Nat

/-- Lays fields into bytes; the bytes no field covers keep their value. -/
def layFields (fields : List Field) (bytes : List Byte) : List Byte :=
  fields.foldl (fun bs f => overwrite bs f.1 (leBytes f.2.1 f.2.2)) bytes

/-- The value of an optional field: 0 where it is absent (R198). -/
def absentZero : Option Nat → Nat
  | some v => v
  | none => 0

/-- Bit `i` of a presence or flag field. -/
def flagBit (i : Nat) (present : Bool) : Nat := if present then 2 ^ i else 0

/-- A count as a 4-byte field: the largest value where it exceeds the field (12.5). -/
def saturated (v : Nat) : Nat := min v (2 ^ 32 - 1)

/-- The position of an error kind in the error table of 10.1, from 0. -/
def errorNumber : ErrorKind → Fin 13
  | .syncLoss => 0
  | .sequenceBreak => 1
  | .ingestOverrun => 2
  | .playoutOvertake => 3
  | .ccGap => 4
  | .transportFlag => 5
  | .malformedPacket => 6
  | .fetchLate => 7
  | .fetchFail => 8
  | .contentGuard => 9
  | .viewWrite => 10
  | .reportWriteFail => 11
  | .configError => 12

/-- The error kind code of 12.4: 1 to 13 in the order of the error table. -/
def errorCode (k : ErrorKind) : Nat := (errorNumber k).val + 1

/-- The error kind of a code of 12.4, if it is one of the thirteen. -/
def errorOfCode (code : Nat) : Option ErrorKind :=
  [ErrorKind.syncLoss, .sequenceBreak, .ingestOverrun, .playoutOvertake, .ccGap, .transportFlag, .malformedPacket,
    .fetchLate, .fetchFail, .contentGuard, .viewWrite, .reportWriteFail, .configError].find? fun k => errorCode k == code

/-- The scope code of an ERROR record: 1 window, 2 service, 3 part (R198). -/
def scopeCode (k : ErrorKind) : Nat := if k.scopeSize = 16 then 1 else if k.scopeSize = 64 then 2 else 3

def outcomeCode : CueOutcome → Nat
  | .done => 1
  | .refusedMalformed => 2
  | .refusedBypass => 3
  | .undefined => 4
  | .queueFull => 5
  | .inUse => 6
  | .conflict => 7
  | .notFound => 8
  | .cancelled => 9
  | .flushed => 10
  | .missedContent => 11
  | .missed => 12
  | .missedLate => 13
  | .missedNoMark => 14
  | .tableFull => 15
  | .reportFull => 16
  | .content => 17
  | .replaced => 18
  | .pinHeld => 19

def modeCode : AlertMode → Nat
  | .full => 0
  | .audioOnly => 1

/-- The signed error of a CLOCK_EVENT in two's complement across its 6 bytes (R198). -/
def signed48 (e : Int) : Nat := (e % 2 ^ 48).toNat

def CueResult.fields (r : CueResult) : List Field :=
  [(16, 2, flagBit 0 r.service.isSome + flagBit 1 r.cueId.isSome + flagBit 2 r.detail.isSome),
    (18, 1, r.ref.slot), (19, 1, r.kind.toNat), (20, 4, r.ref.number.toNat), (24, 4, r.ref.tag.toNat),
    (28, 1, absentZero (r.service.map BitVec.toNat)), (29, 1, outcomeCode r.outcome),
    (30, 1, absentZero (r.detail.map BitVec.toNat)), (31, 1, flagBit 0 r.pendingWrap),
    (32, 4, absentZero (r.cueId.map BitVec.toNat))]

def eventCode : ClockEventKind → Nat
  | .lock => 1
  | .unlock => 2
  | .jump => 3
  | .silent => 4

def jumpCode : JumpCause → Nat
  | .flag => 1
  | .spacing => 2
  | .error => 3

def clockStateCode : ClockState → Nat
  | .none => 0
  | .acquire => 1
  | .locked => 2

def ClockEvent.fields (e : ClockEvent) : List Field :=
  [(16, 2, flagBit 0 e.cause.isSome + flagBit 1 e.error.isSome + flagBit 2 e.spacing.isSome),
    (18, 1, e.service.val), (19, 1, eventCode e.kind), (20, 1, absentZero (e.cause.map jumpCode)),
    (21, 1, clockStateCode e.before), (22, 6, absentZero (e.error.map signed48)), (28, 4, absentZero e.spacing),
    (32, 4, e.after.p), (36, 6, absentZero (e.after.anchor.map Prod.fst)),
    (42, 4, absentZero (e.after.anchor.map fun a => a.2.toNat)),
    (46, 6, absentZero (e.after.lastSample.map BitVec.toNat)), (52, 4, e.after.discontinuities.toNat)]

def failCode : FailReason → Nat
  | .sync => 1
  | .noClock => 2
  | .memoryError => 3

/-- The first CC of component `i` of an entry, if it has one. -/
def ContentEntry.cc (e : ContentEntry) (i : Nat) : Option CC := (e.firstCC[i]?).join

def ContentReport.fields (r : ContentReport) : List Field :=
  let e := r.entry
  let d := e.definition.getD ⟨0, 0, 0, []⟩
  let ccBits := ((List.range 8).map fun i => flagBit (i + 1) (e.cc i).isSome).sum
  [(16, 2, flagBit 0 e.iFirst.isSome + ccBits + flagBit 9 e.failReason.isSome + flagBit 10 e.failPacket.isSome),
    (18, 1, r.content.val), (19, 1, if e.state = .ready then 1 else 2), (20, 2, d.stride), (22, 1, d.comps.length),
    (23, 1, absentZero (e.failReason.map failCode)), (24, 5, d.base), (32, 4, d.packets),
    (36, 6, absentZero (e.iFirst.map FirstClock.value)), (42, 4, absentZero (e.iFirst.map FirstClock.packet)),
    (46, 1, absentZero (e.iFirst.map FirstClock.comp)), (48, 4, absentZero e.failPacket)]
    ++ (List.range 8).map fun i => (52 + i, 1, absentZero ((e.cc i).map BitVec.toNat))

def SpliceStarted.fields (p : SpliceStarted) : List Field :=
  [(18, 1, p.record.service.val), (19, 1, p.record.content.val), (20, 1, p.index.val),
    (21, 1, p.record.generation.toNat), (24, 4, p.record.ref.number.toNat), (28, 4, p.record.ref.tag.toNat),
    (32, 4, p.record.cueId.toNat), (36, 4, p.n.toNat), (40, 5, p.record.tOut.toNat), (48, 6, p.record.offset)]

def AlertStarted.fields (a : AlertStarted) : List Field :=
  [(18, 2, a.entry.alertId.toNat), (20, 1, a.index.val), (21, 1, a.entry.generation.toNat),
    (22, 1, a.entry.priority.val), (23, 1, modeCode a.entry.mode), (24, 1, a.entry.content.val),
    (26, 2, a.entry.duration.toNat), (28, 4, a.entry.ref.number.toNat), (32, 4, a.entry.ref.tag.toNat),
    (36, 4, a.entry.startOrder.toNat), (40, 8, a.entry.captured.toNat), (48, 8, a.taken.toNat)]

def severityCode : Severity → Nat
  | .contain => 0
  | .bypass => 1

def effectCode : BypassEffect → Nat
  | .none => 0
  | .entered => 1
  | .held => 2

/-- The packet bytes 0..3 of a report, in packet order. -/
def packetFields (first : Nat) (packet : Option (List Byte)) : List Field :=
  (List.range 4).map fun i => (first + i, 1, (byteAt (packet.getD []) i).toNat)

def ErrorReport.fields (e : ErrorReport) : List Field :=
  [(16, 2, flagBit 0 e.packet.isSome + flagBit 1 e.held.isSome), (18, 1, errorCode e.kind), (19, 1, scopeCode e.kind),
    (20, 1, e.index), (21, 1, severityCode e.severity), (22, 1, effectCode e.effect),
    (23, 1, flagBit 0 e.captured + flagBit 1 e.held.isSome), (24, 5, e.address),
    (33, 1, absentZero (e.held.map fun c => errorCode c.kind)), (34, 1, absentZero (e.held.map Capture.index)),
    (36, 6, absentZero (e.held.map fun c => c.time.toNat)), (42, 5, absentZero (e.held.map Capture.address)),
    (48, 4, saturated e.repeats)]
    ++ packetFields 29 e.packet

def startModeCode : StartMode → Nat
  | .transparent => 0
  | .eeprom => 1
  | .boot => 2
  | .both => 3

def failCauseCode : FailCause → Nat
  | .unreadable => 1
  | .unknownKind => 2

def StartReport.fields (r : StartReport) : List Field :=
  [(16, 2, flagBit 0 r.failure.isSome), (18, 1, startModeCode r.mode), (19, 1, if r.failure.isSome then 2 else 1),
    (20, 1, absentZero (r.failure.map fun f => if f.fromBoot then 2 else 1)),
    (21, 1, absentZero (r.failure.map StartFailure.index)),
    (22, 1, absentZero (r.failure.map fun f => failCauseCode f.cause)),
    (23, 1, if r.part = .bypass then 2 else 1), (24, 1, flagBit 0 r.pinHold),
    (26, 2, r.eepromLoaded), (28, 2, r.eepromRefused), (30, 2, r.bootLoaded), (32, 2, r.bootRefused),
    (34, 2, r.eepromLoaded + r.bootLoaded), (36, 2, r.eepromRefused + r.bootRefused)]

def endReasonCode : EndReason → Nat
  | .complete => 1
  | .contentEnd => 2
  | .returnNow => 3
  | .forcedReturn => 4
  | .preempted => 5
  | .bypass => 6

def asRunFields (index : Fin 68) (r : InsertionRecord) : List Field :=
  [(16, 2, flagBit 0 r.tReturn.isSome), (18, 1, index.val), (19, 1, r.generation.toNat), (20, 1, r.service.val),
    (21, 1, r.content.val), (22, 1, absentZero (r.endReason.map endReasonCode)),
    (23, 1, flagBit 0 r.clockJump + flagBit 1 r.forcedReturn), (24, 4, r.ref.number.toNat), (28, 4, r.ref.tag.toNat),
    (32, 4, r.cueId.toNat), (36, 5, r.tOut.toNat), (41, 5, absentZero (r.tReturn.map BitVec.toNat)),
    (46, 6, r.startTime.toNat), (52, 6, r.endTime.toNat), (58, 4, r.planned), (62, 4, r.inserted.toNat),
    (66, 4, r.aired.toNat), (70, 4, r.lost.toNat), (74, 4, r.nulls.toNat), (78, 4, r.unconfirmed.toNat)]

/-- The set of the services that pass a test. -/
def serviceSet (test : Fin 64 → Bool) : Nat := ((List.finRange 64).map fun i => flagBit i.val (test i)).sum

/-- The total over all services of a count of an alert entry (R177). -/
def totalOf (v : Vector Count32 64) : Count32 := v.toList.foldl (· + ·) 0

def alertEndCode : AlertEnd → Nat
  | .ended => 1
  | .expired => 2
  | .bypass => 3

def alertAsRunFields (index : Fin 4) (e : AlertEntry) : List Field :=
  [(18, 2, e.alertId.toNat), (20, 1, index.val), (21, 1, e.generation.toNat), (22, 1, e.priority.val),
    (23, 1, modeCode e.mode), (24, 1, e.content.val), (25, 1, absentZero (e.endReason.map alertEndCode)),
    (26, 2, e.duration.toNat), (28, 4, e.ref.number.toNat), (32, 4, e.ref.tag.toNat), (36, 8, e.captured.toNat),
    (44, 8, serviceSet fun i => e.aired[i] != 0), (52, 8, serviceSet fun i => e.preemptedBy[i].isSome),
    (60, 4, e.inserted.toNat), (64, 4, (totalOf e.aired).toNat), (68, 4, (totalOf e.lost).toNat),
    (72, 4, e.unconfirmed.toNat), (76, 6, e.startTime.toNat), (82, 6, absentZero (e.endTime.map BitVec.toNat))]

/-- The report kind codes of 12.5. -/
def reportCode : ReportBody → Nat
  | .cueResult _ => 1
  | .clockEvent _ => 2
  | .contentState _ => 3
  | .spliceStarted _ => 4
  | .alertStarted _ => 5
  | .error _ => 6
  | .started _ => 7
  | .asRun _ _ => 8
  | .alertAsRun _ _ => 9

def reportFields : ReportBody → List Field
  | .cueResult r => r.fields
  | .clockEvent e => e.fields
  | .contentState r => r.fields
  | .spliceStarted p => p.fields
  | .alertStarted a => a.fields
  | .error e => e.fields
  | .started r => r.fields
  | .asRun i r => asRunFields i r
  | .alertAsRun i e => alertAsRunFields i e

/-- As-run records are AS_RUN and ALERT_AS_RUN; every other kind is general (R165). -/
def ReportBody.isAsRun : ReportBody → Bool
  | .asRun _ _ | .alertAsRun _ _ => true
  | .cueResult _ | .clockEvent _ | .contentState _ | .spliceStarted _ | .alertStarted _ | .error _ | .started _ => false

/-- The 128 bytes of a record written with that dropped count (R170, R198): an as-run record carries none. -/
def ReportRecord.image (r : ReportRecord) (dropped : Nat) : List Byte :=
  layFields
    ([(0, 1, reportCode r.body), (2, 2, r.number.toNat % 65536), (4, 6, r.time.toNat),
      (12, 4, if r.body.isAsRun then 0 else saturated dropped)] ++ reportFields r.body)
    (List.replicate 128 0)

/-- Bytes in beats of 16, all enabled. -/
def wholeBeats (n : Nat) (bytes : List Byte) : List (List Byte × Enables) :=
  (List.range n).map fun i => (slice bytes (16 * i) 16, BitVec.allOnes 16)

/-- The two beats of a header write: enables for bytes 8..11 and 16..19 of the header and for no other byte (R171). The counts
are little-endian, as the fields of the records are: R195 does not name the header (DEDUCED, log 46). -/
def headerBeats (produced taken : Count32) : List (List Byte × Enables) :=
  [(layFields [(8, 4, produced.toNat)] (List.replicate 16 0), 0x0F00),
    (layFields [(0, 4, taken.toNat)] (List.replicate 16 0), 0x000F)]

end Sys2Proof.Machine
end

