-- ==== Sys2Proof/Machine/Report.lean ====
section
/-! DEFINITION. The Report Unit (09): producing records, writing the ring, the reservation count, the holdoff, ATTN. -/

namespace Sys2Proof.Machine

/-- The general records in the pending queue (R166). -/
def generalCount (q : List ReportRecord) : Nat := q.countP fun r => !r.body.isAsRun

/-- A record is produced: it takes the production counter's value, and is appended or, a general record behind 24 others,
dropped and counted (R166). -/
def ReportUnit.produce (u : ReportUnit) (body : ReportBody) (time : StationTime) : ReportUnit :=
  let record : ReportRecord := ⟨body, u.production, time⟩
  let counted := { u with production := u.production + 1 }
  if body.isAsRun || decide (generalCount u.queue < Config.generalLimit) then
    { counted with queue := u.queue ++ [record] }
  else
    { counted with dropped := min (u.dropped + 1) (2 ^ 32 - 1) }

/-- A block hands the Report Unit a record, stamped with the current station time (R166, R198). -/
def State.produce (s : State) (body : ReportBody) : State := s.onReport fun u => u.produce body s.clock

/-- Several records handed over one after another. -/
def State.produceAll (s : State) (bodies : List ReportBody) : State := bodies.foldl State.produce s

/-- The room request of a splice-out: granted while the reservation count is below 68 (R167). -/
def State.spliceRoom (s : State) : Bool := decide (s.report.reservation < Config.spliceRoom)

/-- The room request of an ALERT_START: granted while the reservation count is below 72 (R167). -/
def State.alertRoom (s : State) : Bool := decide (s.report.reservation < Config.alertRoom)

/-- A granted room request raises the reservation count by 1 (R167). -/
def State.reserve (s : State) : State := s.onReport fun u => { u with reservation := u.reservation + 1 }

/-- A room return lowers the reservation count by 1 (R119, R167). -/
def State.unreserve (s : State) : State := s.onReport fun u => { u with reservation := u.reservation - 1 }

/-- The Cue Unit hands over a cue-taken count: the copy is replaced and the header becomes pending (R171). -/
def State.handCueTaken (s : State) (count : Count32) : State :=
  s.onReport fun u =>
    { u with cueTaken := count, ring := u.ring.map fun r => { r with headerPending := true } }

/-! ## Writing the ring -/

/-- How many records of the ring the host has not read: (produced − consumed) mod 2^32 (R170, R174). -/
def ReportRing.unread (r : ReportRing) : Nat := (r.produced - r.consumed).toNat

/-- The Report Unit issues a write: it hands it, its counts fixed, to the REPORT requester, and the write is outstanding from
there on. R169 says that it is issued to memory and R159 issues a request to memory at a grant of the arbiter: that the hand-over
is the issue R170 speaks of is the model's choice (DESIGN CHOICE, log 51). -/
def ReportUnit.issue (u : ReportUnit) (ring : ReportRing) (kind : WriteKind) (address : Nat)
    (beats : List (List Byte × Enables)) : ReportUnit :=
  { u with
    ring := some { ring with outstanding := some u.nextWrite }
    writes := u.writes ++ [⟨u.nextWrite, kind, address, beats⟩]
    nextWrite := u.nextWrite + 1 }

/-- The write that R170 chooses, for a REPORT window at `base` with `records` record slots: the header if it is pending,
otherwise the head record if the ring has room, otherwise none. -/
def ReportUnit.issueWrite (u : ReportUnit) (base records : Nat) : ReportUnit :=
  match u.ring with
  | none => u
  | some ring =>
    if u.halted || ring.outstanding.isSome then u
    else if ring.headerPending then
      u.issue { ring with headerPending := false } .header base (headerBeats ring.produced u.cueTaken)
    else
      match u.queue with
      | [] => u
      | head :: _ =>
        if ring.unread < records then
          let slot := ring.produced.toNat % records
          u.issue ring (.record (if head.body.isAsRun then 0 else u.dropped)) (base + 64 + 128 * slot)
            (wholeBeats 8 (head.image u.dropped))
        else u

/-- Issues the next report write when the path is free (R170). -/
def State.issueWrite (s : State) : State :=
  match s.reportWindow with
  | none => s
  | some (base, records) => s.onReport fun u => u.issueWrite base records

/-- The outcome of a record write answered OK (R170, steps 1 to 5); `dropped` is the count the record carried. -/
def ReportUnit.recordWritten (u : ReportUnit) (ring : ReportRing) (dropped : Nat) : ReportUnit :=
  match u.queue with
  | [] => { u with ring := some { ring with outstanding := none } }
  | head :: rest =>
    { u with
      queue := rest
      reservation := if head.body.isAsRun then u.reservation - 1 else u.reservation
      dropped := if head.body.isAsRun then u.dropped else u.dropped - dropped
      ring := some { ring with outstanding := none, produced := ring.produced + 1, headerPending := true } }

/-- A failed report write halts the path; a failed header write sets the header-pending flag again (R173, steps 1, 3
and 4). -/
def ReportUnit.writeFailed (u : ReportUnit) (ring : ReportRing) (header : Bool) : ReportUnit :=
  { u with
    halted := true
    ring := some { ring with outstanding := none, headerPending := ring.headerPending || header } }

/-- The consumed count after the host has written `v` (R172): a value ahead of the produced count or behind the consumed
count reads as "everything read". -/
def clampConsumed (v c p : Count32) : Count32 := if (v - c).toNat ≤ (p - c).toNat then v else p

/-- The start values of the report-ring state (R169). -/
def ReportUnit.defineRing (u : ReportUnit) : ReportUnit := { u with ring := some {} }

/-- The REPORT window is removed: the report-ring state ceases to exist (R169). -/
def ReportUnit.dropRing (u : ReportUnit) : ReportUnit := { u with ring := none }

/-! ## The holdoff (R175) -/

/-- The position of an error kind and scope index in the holdoff table: 4 kinds of 16 windows, 5 of 64 services, 4 of
the part. -/
def holdoffPlace (k : ErrorKind) (index : Nat) : Nat :=
  let n := (errorNumber k).val
  if n < 4 then 16 * n + index % 16
  else if n < 9 then 64 + 64 * (n - 4) + index % 64
  else 384 + (n - 9)

/-- The holdoff entry of an error kind and scope index. -/
def holdoffIndex (k : ErrorKind) (index : Nat) : Fin 388 := Fin.ofNat 388 (holdoffPlace k index)

/-- An ERROR record is handed to the Report Unit (R175): produced with the entry's repeat count where the entry is IDLE or
LAPSED, suppressed and counted where it is HOLDING. -/
def State.handError (s : State) (e : ErrorReport) : State :=
  let i := holdoffIndex e.kind e.index
  let entry := s.report.holdoff[i]
  let produceWith (repeats : Nat) : State :=
    let next : Holdoff :=
      if s.limits.holdoff = 0 then .idle else .holding 0 (after s.clock s.holdoffTicks)
    (s.produce (.error { e with repeats := repeats })).onReport fun u => { u with holdoff := u.holdoff.set i next }
  match entry with
  | .idle => produceWith 0
  | .lapsed repeats => produceWith repeats
  | .holding repeats expiry =>
    s.onReport fun u => { u with holdoff := u.holdoff.set i (.holding (min (repeats + 1) (2 ^ 32 - 1)) expiry) }

/-- The expiry of a HOLDING entry passes: LAPSED where records were suppressed, IDLE otherwise (R175). -/
def Holdoff.expire : Holdoff → Holdoff
  | .holding repeats _ => if repeats = 0 then .idle else .lapsed repeats
  | .idle => .idle
  | .lapsed repeats => .lapsed repeats

/-! ## ATTN (R174) -/

/-- The effective threshold is the threshold or the window's record count, whichever is smaller (R174). -/
def State.ringAttn (s : State) : Bool :=
  match s.report.ring, s.reportWindow with
  | some ring, some (_, records) => decide (min s.limits.threshold records ≤ ring.unread)
  | _, _ => false

/-- At least one cause of ATTN holds (R174). -/
def State.attnCause (s : State) : Bool :=
  s.ringAttn || s.fault.capture.isSome || s.fault.part == .bypass

/-- ATTN follows its causes (R174). -/
def State.setAttn (s : State) : State :=
  let level := s.attnCause
  s.onReport fun u => { u with attn := level }

/-- What ends every command: the next report write is issued when the path is free (R170), and ATTN follows its causes
(R174). The write is issued after everything else the command does, so that the dropped count and the cue-taken count it carries
are those after all of the command's drops and takes (DESIGN CHOICE, log 44). -/
def State.epilogue (s : State) : State := s.issueWrite.setAttn

end Sys2Proof.Machine
end

