-- ==== Sys2Proof/Machine/Content.lean ====
section
/-! DEFINITION. The Content Unit's shared operations (04): holds, the write guard, the scan start, prefetch and demand
buffers. -/

namespace Sys2Proof.Machine

/-! ## Use counts (R82, R83) -/

/-- The state of a content entry. -/
def State.contentState (s : State) (c : Fin 128) : ContentState := s.content.entries[c].state

/-- A hold, granted: the use count rises by 1 (R83). -/
def State.hold (s : State) (c : Fin 128) : State := s.onContentEntry c fun e => { e with useCount := e.useCount + 1 }

/-- A release request lowers the use count by 1 (R83). -/
def State.releaseHold (s : State) (c : Fin 128) : State :=
  s.onContentEntry c fun e => { e with useCount := e.useCount - 1 }

/-- The packet count of a content entry's definition; 0 where it has none. -/
def State.packetCount (s : State) (c : Fin 128) : Nat :=
  match s.content.entries[c].definition with
  | some d => d.packets
  | none => 0

/-- The address of packet byte 0 of a content packet (R74); 0 where the entry has no definition. -/
def State.contentAddress (s : State) (c : Fin 128) (k : Nat) : Nat :=
  match s.content.entries[c].definition with
  | some d => contentPacketAddress d k
  | none => 0

/-! ## The write guard (R84) -/

/-- The byte at an address lies in the region of a content entry whose use count is above 0. -/
def ContentEntry.guards (e : ContentEntry) (a : Nat) : Bool :=
  decide (0 < e.useCount) &&
    match e.definition with
    | some d => decide (d.base ≤ a ∧ a < contentEnd d)
    | none => false

def State.guarded (s : State) (a : Nat) : Bool := s.content.entries.toList.any fun e => e.guards a

/-! ## The scan start (R77) -/

/-- The idle scanner takes the oldest queued index and starts its scan. -/
def ContentUnit.startScan (u : ContentUnit) : ContentUnit :=
  match u.scan, u.scanQueue with
  | none, c :: rest =>
    { u with
      scanQueue := rest
      entries := modifyAt u.entries c fun e => { e with state := .scanning, useCount := e.useCount + 1 }
      scan := some
        { content := c, serial := u.nextScan, nextRead := 0, nextCheck := 0, arrived := []
          firstCC :=
            match u.entries[c].definition with
            | some d => List.replicate d.comps.length none
            | none => []
          videoClock := none, anyClock := none }
      nextScan := u.nextScan + 1 }
  | _, _ => u

/-- The scanner starts whenever it is idle and the scan queue is not empty (R77). -/
def State.startScan (s : State) : State := s.onContent ContentUnit.startScan

/-! ## Prefetch buffers (R85 to R87) -/

/-- The owner of a prefetch buffer, where it has one. -/
def Prefetch.owner : Prefetch → Option Owner
  | .free => none
  | .loading owner _ => owner
  | .ready owner _ _ => some owner
  | .failed owner _ => some owner

/-- A memory read is requested of the FETCH requester, behind those requested before it (R86, R94). -/
def State.requestFetch (s : State) (r : MemRead) : State :=
  s.onPath fun p => { p with fetchQueue := p.fetchQueue ++ [r] }

/-- The request for a prefetch buffer: the lowest-numbered FREE buffer, LOADING, with its fetch requested; or none (R85). -/
def State.allocatePrefetch (s : State) (owner : Owner) (target : FetchTarget) : State × Option (Fin 256) :=
  match lowest s.content.prefetch (· == .free) with
  | some b =>
    ((s.onContent fun u => { u with prefetch := u.prefetch.set b (.loading (some owner) target) }).requestFetch
      (beatsHolding target.address packetLength (.prefetch b)), some b)
  | none => (s, none)

/-- A buffer after a release request that its owner matches (R87). -/
def Prefetch.release : Prefetch → Prefetch
  | .loading _ target => .loading none target
  | .free | .ready _ _ _ | .failed _ _ => .free

/-- A release request naming a buffer and an owner: acts only where the buffer's owner is the one named (R87). -/
def State.releasePrefetch (s : State) (b : Fin 256) (owner : Owner) : State :=
  s.onContent fun u =>
    if u.prefetch[b].owner = some owner then { u with prefetch := modifyAt u.prefetch b Prefetch.release } else u

/-! ## Demand buffers (R88, R89) -/

/-- A staging buffer's wait (R136). -/
def State.setWait (s : State) (b : Fin 8) (w : StagingWait) : State :=
  match s.path.staging[b] with
  | some u => s.setStaging b (some { u with wait := w })
  | none => s

/-- A demand buffer is given to a request: it becomes LOADING and its fetch goes to the arbiter as a demand fetch (R88). -/
def State.giveDemand (s : State) (d : Fin 4) (staging : Fin 8) (target : FetchTarget) : State :=
  (((s.onContent fun u => { u with demand := u.demand.set d (.loading (some staging) target) }).onPath fun p =>
      { p with demandQueue := p.demandQueue ++ [beatsHolding target.address packetLength (.demand d)] }).setWait
    staging (.demand d))

/-- A demand request of a staging buffer (R88). -/
def State.requestDemand (s : State) (staging : Fin 8) (target : FetchTarget) : State :=
  match lowest s.content.demand (· == .free) with
  | some d => s.giveDemand d staging target
  | none =>
    (s.onContent fun u => { u with demandWait := u.demandWait ++ [(staging, target)] }).setWait staging .demandListed

/-- A demand buffer has become FREE: the oldest request on the wait list is given it (R88). -/
def State.serveDemandWait (s : State) : State :=
  match lowest s.content.demand (· == .free), s.content.demandWait with
  | some d, (staging, target) :: rest =>
    (s.onContent fun u => { u with demandWait := rest }).giveDemand d staging target
  | _, _ => s

/-- A demand buffer after its owner has let it go (R89). -/
def Demand.letGo : Demand → Demand
  | .loading _ target => .loading none target
  | .free | .ready _ _ _ | .failed _ _ => .free

/-- The Playout Rewriter lets go of the demand request or buffer of a staging buffer (R89). -/
def State.letGoDemand (s : State) (staging : Fin 8) (w : StagingWait) : State :=
  match w with
  | .demandListed =>
    s.onContent fun u => { u with demandWait := u.demandWait.filter fun q => q.1 != staging }
  | .demand d =>
    (s.onContent fun u => { u with demand := modifyAt u.demand d Demand.letGo }).serveDemandWait
  | .nothing | .ringSlot | .prefetch _ => s

/-- At entry to BYPASS every buffer is released and every request on the wait list withdrawn (R90). -/
def ContentUnit.releaseBuffers (u : ContentUnit) : ContentUnit :=
  { u with
    prefetch := u.prefetch.map Prefetch.release
    demand := u.demand.map Demand.letGo
    demandWait := [] }

end Sys2Proof.Machine
end

