-- ==== Sys2Proof/Machine/Closing.lean ====
section
/-! DEFINITION. How an insertion record and an alert entry leave the air and close (05, 5.8; 06, 6.6), and the notices they
receive. A function that answers records answers those it hands to the Report Unit, in order. -/

namespace Sys2Proof.Machine

/-- The records handed over by an operation are produced in order. -/
def State.producing (p : State × List ReportBody) : State := p.1.produceAll p.2

/-! ## Insertion records (R110 to R112) -/

/-- A record that has just become FREE; its other fields keep their values (R110, DESIGN CHOICE, log 23). -/
def InsertionRecord.freed (r : InsertionRecord) : InsertionRecord :=
  { r with state := .free, generation := r.generation + 1, closeExpiry := none }

/-- The record closes with that unconfirmed count: its AS_RUN, the release of its content, FREE (R112). -/
def State.closeRecord (s : State) (i : Fin 68) (unconfirmed : Count32) : State × List ReportBody :=
  let r := { s.splice.records[i] with unconfirmed := unconfirmed }
  ((s.onRecord i fun _ => r.freed).releaseHold r.content, [.asRun i r])

/-- The record after it has left ACTIVE (R110), its close expiry armed (R112). -/
def InsertionRecord.closing (r : InsertionRecord) (now expiry : StationTime) (tReturn : Option Time90) :
    InsertionRecord :=
  { r with
    state := .closing, endTime := now, tReturn := tReturn, closeExpiry := some expiry, deadline := none, bound := .unset }

/-- A record goes CLOSING; its service loses its current record and its run queue. It closes at once where nothing is
outstanding (R110, R112). -/
def State.leaveActive (s : State) (i : Fin 68) (tReturn : Option Time90) : State × List ReportBody :=
  let r := s.splice.records[i]
  let s := (s.onRecord i fun r => r.closing s.clock (after s.clock s.closeTicks) tReturn).onFields r.service fun f =>
    { f with current := none, runQueue := [], roleMap := [] }
  if r.outstanding = 0 then s.closeRecord i 0 else (s, [])

/-- A record goes CLOSING with an end reason of its own (R113, R114). -/
def State.cutShort (s : State) (i : Fin 68) (reason : EndReason) : State × List ReportBody :=
  (s.onRecord i fun r => { r with endReason := some reason }).leaveActive i none

/-- The counts of a record after an aired or a lost notice (R111). -/
def InsertionRecord.noticed (r : InsertionRecord) (aired : Bool) : InsertionRecord :=
  if aired then { r with aired := r.aired + 1, outstanding := r.outstanding - 1 }
  else { r with lost := r.lost + 1, outstanding := r.outstanding - 1 }

/-- The source is current: the record is not FREE and the generation is its own (R111). -/
def State.recordCurrent (s : State) (i : Fin 68) (g : Generation) : Bool :=
  s.splice.records[i].state != .free && s.splice.records[i].generation == g

/-- An aired or lost notice for an insertion record (R111); the notice that brings a CLOSING record's outstanding count to
0 closes it (R112). -/
def State.recordNotice (s : State) (i : Fin 68) (g : Generation) (aired : Bool) : State :=
  if s.recordCurrent i g then
    let s := s.onRecord i fun r => r.noticed aired
    let r := s.splice.records[i]
    if r.state = .closing ∧ r.outstanding = 0 then State.producing (s.closeRecord i 0) else s
  else s

/-! ## Alert entries (R115, R116, R133) -/

/-- An entry that has just become FREE. -/
def AlertEntry.freed (e : AlertEntry) : AlertEntry :=
  { e with state := .free, generation := e.generation + 1, durationExpiry := none, closeExpiry := none }

/-- The entry closes with that unconfirmed count: its ALERT_AS_RUN, the release of its content, FREE (R133). -/
def State.closeEntry (s : State) (i : Fin 4) (unconfirmed : Count32) : State × List ReportBody :=
  let e := { s.alert.entries[i] with unconfirmed := unconfirmed }
  ((s.onEntry i fun _ => e.freed).releaseHold e.content, [.alertAsRun i e])

/-- An entry goes CLOSING; it closes at once where nothing is outstanding (R133). -/
def State.entryClosing (s : State) (i : Fin 4) : State × List ReportBody :=
  let e := s.alert.entries[i]
  let s := s.onEntry i fun e =>
    { e with
      state := .closing, endTime := some s.clock, closeExpiry := some (after s.clock s.closeTicks),
      durationExpiry := none }
  if e.outstanding = 0 then s.closeEntry i 0 else (s, [])

def Overlay.names (o : Overlay) (i : Fin 4) : Bool :=
  match o with
  | .none => false
  | .airing e _ | .returning e _ => e == i

/-- Some service's overlay names the entry. -/
def State.overlaid (s : State) (i : Fin 4) : Bool := s.alert.overlays.toList.any fun o => o.names i

/-- An ENDING entry that no overlay names goes CLOSING (R133). -/
def State.settleEntry (s : State) (i : Fin 4) : State :=
  if s.alert.entries[i].state = .ending ∧ s.overlaid i = false then State.producing (s.entryClosing i) else s

/-- The counts of an entry after an aired or a lost notice (R116). -/
def AlertEntry.noticed (e : AlertEntry) (service : Fin 64) (aired : Bool) : AlertEntry :=
  if aired then { e with aired := modifyAt e.aired service (· + 1), outstanding := e.outstanding - 1 }
  else { e with lost := modifyAt e.lost service (· + 1), outstanding := e.outstanding - 1 }

/-- The source is current (R116). -/
def State.entryCurrent (s : State) (i : Fin 4) (g : Generation) : Bool :=
  s.alert.entries[i].state != .free && s.alert.entries[i].generation == g

/-- An aired or lost notice for an alert entry (R116, R133). -/
def State.entryNotice (s : State) (i : Fin 4) (g : Generation) (service : Fin 64) (aired : Bool) : State :=
  if s.entryCurrent i g then
    let s := s.onEntry i fun e => e.noticed service aired
    let e := s.alert.entries[i]
    if e.state = .closing ∧ e.outstanding = 0 then State.producing (s.closeEntry i 0) else s
  else s

/-! ## Sources (R23) -/

def State.sourceCurrent (s : State) : Source → Bool
  | .insertion i g => s.recordCurrent i g
  | .alert e g _ => s.entryCurrent e g

/-- An aired or lost notice to the owner of a source. -/
def State.notice (s : State) (source : Source) (aired : Bool) : State :=
  match source with
  | .insertion i g => s.recordNotice i g aired
  | .alert e g service => s.entryNotice e g service aired

/-- The discard of an unplayed disposition: a lost notice for its source, a release request for its buffer (R25). -/
def State.discard (s : State) (w : Fin 16) (slot : Nat) (g : Generation) (d : Disposition) : State :=
  match d.action with
  | .insert f =>
    let s := s.notice f.source false
    match f.prefetch with
    | some b => s.releasePrefetch b ⟨w, slot, g⟩
    | none => s
  | .pass _ | .null => s

end Sys2Proof.Machine
end

