-- ==== Sys2Proof/Machine/Timebase.lean ====
section
/-! DEFINITION. The Timebase Unit (02): start values, clock samples, silence, network time and the has-reached test. -/

namespace Sys2Proof.Machine

/-! ## Network time (R43, R44) -/

/-- "t90 has reached T" (R44). -/
def hasReached (t limit : Time90) : Bool := decide ((t - limit).toNat < 2 ^ 32)

/-- The ticks that `d` packets last under the estimate P, rounded to the nearest tick, halves up (R34, R43). -/
def ticksOf (p d : Nat) : Nat := (p * d + 32768) / 65536

/-- t27 at the packet with index n (R43); absent in NONE. -/
def Clock.t27 (c : Clock) (n : Count32) : Option Nat :=
  match c.state, c.anchor with
  | .acquire, some (cLast, nLast) | .locked, some (cLast, nLast) =>
    some ((cLast + ticksOf c.p (n - nLast).toNat) % clockModulus)
  | _, _ => none

/-- A clock-reference value on the 90 kHz timeline (R43, R44). -/
def time90 (t27 : Nat) : Time90 := BitVec.ofNat 33 (t27 / 300)

/-- t27 of a service at index n; absent where no service is defined. -/
def State.t27 (s : State) (service : Fin 64) (n : Count32) : Option Nat :=
  match s.timebase.clocks[service] with
  | some c => c.t27 n
  | none => none

/-- t90 of a service at index n (R43). -/
def State.t90 (s : State) (service : Fin 64) (n : Count32) : Option Time90 := (s.t27 service n).map time90

/-- The clock state of the service is LOCKED (R99). -/
def State.clockLocked (s : State) (service : Fin 64) : Bool :=
  match s.timebase.clocks[service] with
  | some c => c.state == .locked
  | none => false

/-! ## Start values (R30) -/

/-- P0 for a nominal rate. -/
def startP (rate : Nat) : Nat := 40608000000 * 65536 / rate

def Clock.start (rate : Nat) : Clock where
  state := .none
  anchor := none
  p := startP rate
  good := 0
  bad := 0
  lastSample := none
  discontinuities := 0
  silence := none

/-! ## Clock samples (R31 to R38) -/

/-- A clock sample: its value C, the packet's index n and the discontinuity flag (R31). -/
structure Sample where
  value : Nat
  n : Count32
  flag : Bool
  deriving DecidableEq, Repr

/-- The bounds of P (R29). -/
def pLow : Nat := 16777216
def pHigh : Nat := 4294967295

/-- |E| above this is a jump, at most this counts as good, above this counts as bad (R34, R37, R38). -/
def jumpError : Nat := 2700000
def goodError : Nat := 270
def badError : Nat := 2700

/-- The error of a value against its prediction, brought into −M/2 .. M/2 − 1 (R34). -/
def clockError (value predicted : Nat) : Int :=
  let e := ((value : Int) - predicted) % clockModulus
  if e ≥ 1288490188800 then e - clockModulus else e

/-- P + ΔP, held inside its range (R36); `k` is 2 in ACQUIRE and 6 in LOCKED. -/
def adjustP (p : Nat) (e : Int) (d k : Nat) : Nat :=
  let sum : Int := p + (e * 65536).tdiv ((d : Int) * 2 ^ k)
  if sum < pLow then pLow else if sum > pHigh then pHigh else sum.toNat

/-- What the handling of a sample reports: the event kind with its cause, error and spacing (R41). -/
structure SampleEvent where
  kind : ClockEventKind
  cause : Option JumpCause
  error : Option Int
  spacing : Option Nat
  deriving DecidableEq, Repr

/-- The effects of a jump on the clock fields (R35). -/
def Clock.jump (c : Clock) (x : Sample) : Clock :=
  { c with
    state := .acquire, anchor := some (x.value, x.n), good := 0, bad := 0, discontinuities := c.discontinuities + 1 }

/-- A normal sample (R36 to R38) with error `e` at spacing `d`. -/
def Clock.normal (c : Clock) (x : Sample) (e : Int) (d : Nat) : Clock × Option SampleEvent :=
  let moved (k : Nat) : Clock := { c with p := adjustP c.p e d k, anchor := some (x.value, x.n) }
  let event (kind : ClockEventKind) : Option SampleEvent := some ⟨kind, none, some e, some d⟩
  match c.state with
  | .locked =>
    let bad := if badError < e.natAbs then c.bad + 1 else 0
    if 3 ≤ bad then ({ moved 6 with state := .acquire, good := 0, bad := 0 }, event .unlock)
    else ({ moved 6 with bad := bad }, none)
  | .acquire | .none =>
    let good := if e.natAbs ≤ goodError then c.good + 1 else 0
    if 4 ≤ good then ({ moved 2 with state := .locked, good := good, bad := 0 }, event .lock)
    else ({ moved 2 with good := good }, none)

/-- The part of a sample's handling that depends on the clock state (R32 to R38). -/
def Clock.sample (c : Clock) (x : Sample) : Clock × Option SampleEvent :=
  match c.state, c.anchor with
  | .acquire, some (cLast, nLast) | .locked, some (cLast, nLast) =>
    let d := (x.n - nLast).toNat
    let jumped (cause : JumpCause) (error : Option Int) : Clock × Option SampleEvent :=
      (c.jump x, some ⟨.jump, some cause, error, some d⟩)
    if x.flag then jumped .flag none
    else if d = 0 ∨ 1048576 < d then jumped .spacing none
    else
      let e := clockError x.value ((cLast + ticksOf c.p d) % clockModulus)
      if jumpError < e.natAbs then jumped .error (some e) else c.normal x e d
  | _, _ => ({ c with state := .acquire, anchor := some (x.value, x.n), good := 0 }, none)

/-- The last-sample time and the silence expiry that every sample sets (R31). -/
def Clock.stamp (c : Clock) (now : StationTime) (timeout : Nat) : Clock :=
  { c with lastSample := some now, silence := some (after now timeout) }

/-- Sets the clock fields of a service. -/
def State.setClock (s : State) (i : Fin 64) (c : Option Clock) : State :=
  s.onTimebase fun t => { t with clocks := t.clocks.set i c }

/-- A jump notice: the ACTIVE insertion record of the service, if there is one, gets its clock-jump flag (R42). -/
def State.jumpNotice (s : State) (i : Fin 64) : State :=
  match s.splice.services[i].current with
  | some r => s.onRecord r fun x => { x with clockJump := true }
  | none => s

/-- The Timebase Unit handles a sample of a service completely (R31). -/
def State.handleSample (s : State) (i : Fin 64) (x : Sample) : State :=
  match s.timebase.clocks[i] with
  | none => s
  | some c =>
    let (moved, event) := c.sample x
    let c' := moved.stamp s.clock s.silenceTicks
    let s := s.setClock i (some c')
    match event with
    | none => s
    | some e =>
      let s := s.produce (.clockEvent ⟨i, e.kind, e.cause, c.state, e.error, e.spacing, c'⟩)
      if e.kind = .jump then s.jumpNotice i else s

/-! ## Silence (R39, R40) -/

/-- The clock fields after the silence expiry has occurred (R39). -/
def Clock.silenced (c : Clock) : Clock := { c with state := .none, good := 0, bad := 0, silence := none }

/-- The silence expiry of a service occurs (R39). -/
def State.silenceOccurs (s : State) (i : Fin 64) : State :=
  match s.timebase.clocks[i] with
  | none => s
  | some c =>
    let c' := c.silenced
    (s.setClock i (some c')).produce (.clockEvent ⟨i, .silent, none, c.state, none, none, c'⟩)

/-- A changed silence timeout re-arms the silence expiry of a service in ACQUIRE or LOCKED; where the time has already
passed, the expiry occurs at once (R40). -/
def State.rearmSilence (s : State) (i : Fin 64) : State :=
  match s.timebase.clocks[i] with
  | none => s
  | some c =>
    match c.silence, c.lastSample with
    | some _, some last =>
      let expiry := after last s.silenceTicks
      let s := s.setClock i (some { c with silence := some expiry })
      if reached s.clock expiry then s.silenceOccurs i else s
    | _, _ => s

/-- All services, in rising order of index (DEDUCED, log 29). -/
def State.rearmAll (s : State) : State := (List.finRange 64).foldl State.rearmSilence s

end Sys2Proof.Machine
end

