-- ==== Sys2Proof/Machine/Queue.lean ====
section
/-! DEFINITION. The cue queues (03, 3.3) with the cue test's beginning and end (05, 5.3) and the header queues it fills (05,
5.2). -/

namespace Sys2Proof.Machine

/-! ## Answers (R56) -/

/-- A CUE_RESULT as it stands when its outcome is decided. -/
def cueAnswer (ref : CueRef) (kind : Byte) (service : Option Byte) (cueId : Option (BitVec 32)) (outcome : CueOutcome)
    (detail : Option Byte) : ReportBody :=
  .cueResult ⟨ref, kind, service, cueId, outcome, detail, false⟩

/-- The kind code of a splice cue (12.3). -/
def SpliceCue.kind (c : SpliceCue) : Byte := if c.mark then 2 else 1

/-- The answer to a splice cue of a service's queue. -/
def spliceAnswer (service : Fin 64) (c : SpliceCue) (outcome : CueOutcome) (detail : Option Byte) : ReportBody :=
  cueAnswer c.ref c.kind (some (BitVec.ofNat 8 service.val)) (some c.cueId) outcome detail

/-- Why a cue missed: the reasons of MISSED (R56), by their detail codes (12.5). -/
inductive MissReason
  | blocked (cause : BlockCause)
  | noEntry
  deriving DecidableEq, Repr

def MissReason.code : MissReason → Byte
  | .blocked .unlocked => 1
  | .blocked .alert => 2
  | .blocked .noRoom => 3
  | .noEntry => 4

/-- How a miss request ends a cue (R61). -/
inductive Miss
  | missed (reason : MissReason)
  | late
  | noMark
  deriving DecidableEq, Repr

def Miss.outcome : Miss → CueOutcome
  | .missed _ => .missed
  | .late => .missedLate
  | .noMark => .missedNoMark

def Miss.detail : Miss → Option Byte
  | .missed reason => some reason.code
  | .late | .noMark => none

/-! ## Header queues (R94) -/

/-- An entry joins a header queue as LOADING and its read is issued. -/
def State.joinHeader (s : State) (service : Fin 64) (standby : Bool) (c : Fin 128) (k : Nat) : State :=
  let serial := s.splice.nextHeader
  let entry : HeaderEntry := ⟨k, serial, .loading⟩
  let address := s.contentAddress c k
  let s := s.requestFetch (beatsHolding address 6 (.header service serial address))
  let s := s.onSplice fun u => { u with nextHeader := serial + 1 }
  s.onFields service fun f =>
    if standby then { f with standbyQueue := f.standbyQueue ++ [entry] }
    else { f with runQueue := f.runQueue ++ [entry] }

/-- A header queue is filled from content packet 0: packets 0 to 15, or to the last if there are fewer. -/
def State.fillHeaders (s : State) (service : Fin 64) (standby : Bool) (c : Fin 128) : State :=
  (List.range (min Config.headerDepth (s.packetCount c))).foldl (fun s k => s.joinHeader service standby c k) s

/-! ## The cue test (R96, R100) -/

/-- The index of the last take of the service's window, absent until its first take (R96). -/
def State.lastIndex (s : State) (service : Fin 64) : Option Count32 :=
  match s.ingest.services[service] with
  | some d =>
    match s.ingest.assembly[d.window] with
    | some a => a.lastTake.map Prod.snd
    | none => none
  | none => none

/-- T + W (R45). -/
def SpliceCue.timeEnd (c : SpliceCue) : Time90 := c.t + BitVec.ofNat 33 c.w

/-- The test that an arm notice creates; `arm` is t90 at the arming index where the notice is evaluable (R96). -/
def SpliceCue.test (c : SpliceCue) (arm : Option Time90) : CueTest where
  cue := c
  toleranceEnd := if c.mark then arm.map (· + BitVec.ofNat 33 c.w) else some c.timeEnd
  blocking := none
  markSeen := false

/-- The splice state after an arm notice. -/
def SpliceState.testBegins : SpliceState → SpliceState
  | .idle | .armed => .armed
  | .inserting => .inserting
  | .exhausted => .exhausted
  | .returning => .returning

/-- The splice state after a cue test has ended without a splice-out (R100). -/
def SpliceState.testEnds : SpliceState → SpliceState
  | .idle | .armed => .idle
  | .inserting => .inserting
  | .exhausted => .exhausted
  | .returning => .returning

/-- The cue is late where t90 at the arming index has reached T + W (R96). -/
def SpliceCue.late (c : SpliceCue) (arm : Option Time90) : Bool :=
  match arm with
  | some t => !c.mark && hasReached t c.timeEnd
  | none => false

/-- t90 at the arming index, where the arm notice is evaluable (R96). -/
def State.armTime (s : State) (service : Fin 64) : Option Time90 :=
  (s.lastIndex service).bind fun n => s.t90 service n

/-- An arm notice: the cue test is created and the standby queue filled (R96). -/
def State.armNotice (s : State) (service : Fin 64) (c : SpliceCue) : State :=
  let test := c.test (s.armTime service)
  (s.onFields service fun f => { f with test := some test, state := f.state.testBegins }).fillHeaders service true c.content

/-- The end of a cue test by a miss or a removal (R100). -/
def State.endTest (s : State) (service : Fin 64) : State :=
  s.onFields service fun f => { f with test := none, standbyQueue := [], state := f.state.testEnds }

/-! ## Arming, missing, firing (R59 to R61) -/

/-- The head of a queue is armed (R59); where it leaves the queue, the next is armed in turn. `fuel` bounds the entries. -/
def State.armHead : Nat → State → Fin 64 → State
  | 0, s, _ => s
  | fuel + 1, s, i =>
    match s.cue.queues[i] with
    | [] => s
    | e :: rest =>
      match s.contentState e.cue.content with
      | .ready =>
        let arm := s.armTime i
        let armed := ((s.hold e.cue.content).onQueue i fun _ => { e with state := .armed } :: rest).armNotice i e.cue
        if e.cue.late arm then
          State.armHead fuel
            ((((armed.endTest i).onQueue i fun _ => rest).releaseHold e.cue.content).produce
              (spliceAnswer i e.cue .missedLate none)) i
        else armed
      | .queued | .scanning => s.onQueue i fun _ => { e with state := .waiting } :: rest
      | .failed | .free =>
        State.armHead fuel ((s.onQueue i fun _ => rest).produce (spliceAnswer i e.cue .missedContent none)) i

/-- The entry that has become the head is armed. -/
def State.arm (s : State) (i : Fin 64) : State := s.armHead s.cue.queues[i].length i

/-- A miss request for the ARMED head (R61, R100). -/
def State.missHead (s : State) (i : Fin 64) (m : Miss) : State :=
  match s.cue.queues[i] with
  | [] => s
  | e :: rest =>
    ((((s.endTest i).onQueue i fun _ => rest).releaseHold e.cue.content).produce
      (spliceAnswer i e.cue m.outcome m.detail)).arm i

/-- A fire request: the head leaves the queue with its hold, and the next head is armed (R61). -/
def State.fireHead (s : State) (i : Fin 64) : State := (s.onQueue i List.tail).arm i

/-- An entry of the queue is removed: an ARMED entry has its hold released and its test ended (R62, R63). -/
def State.dropEntry (s : State) (i : Fin 64) (e : QueueEntry) : State :=
  if e.state = .armed then (s.releaseHold e.cue.content).endTest i else s

/-- A content notice: every queue whose head is WAITING on the content is armed, or its head misses, in rising order of
service (R60, DEDUCED, log 29). -/
def State.contentNotice (s : State) (c : Fin 128) : State :=
  (List.finRange 64).foldl
    (fun s i =>
      match s.cue.queues[i] with
      | e :: _ => if e.state = .waiting ∧ e.cue.content = c then s.arm i else s
      | [] => s) s

/-! ## Flushing -/

/-- One queue is emptied, its oldest entry first, each with FLUSHED (R63, R72). -/
def State.flushQueue (s : State) (i : Fin 64) : State × List ReportBody :=
  let entries := s.cue.queues[i]
  ((entries.foldl (fun s e => s.dropEntry i e) s).onQueue i fun _ => [],
    entries.map fun e => spliceAnswer i e.cue .flushed none)

/-- The flush at entry to BYPASS: every queue, in order of service index (R72). -/
def State.flushAll (s : State) : State × List ReportBody :=
  (List.finRange 64).foldl
    (fun p i =>
      let (s, bodies) := p.1.flushQueue i
      (s, p.2 ++ bodies)) (s, [])

/-- The entries of all queues together (R57). -/
def State.queuedCues (s : State) : Nat := (s.cue.queues.toList.map List.length).sum

end Sys2Proof.Machine
end

