-- ==== Sys2Proof/Machine/Staging.lean ====
section
/-! DEFINITION. The staging buffers as the other blocks free and void them, and where the bytes of outstanding processor reads
come from (07). -/

namespace Sys2Proof.Machine

/-- The null packet that the part makes (R196). -/
def nullPacket : List Byte := [0x47, 0x1F, 0xFF, 0x10] ++ List.replicate 184 0xFF

/-! ## The byte sources of outstanding reads -/

/-- Where the bytes of a read come from, beat after beat. -/
def ProcRead.bytes (r : ProcRead) : List ByteSource := r.beats.flatMap ReadBeat.bytes

/-- Changes the source of every byte of a read. -/
def ProcRead.mapSources (f : ByteSource → ByteSource) (r : ProcRead) : ProcRead :=
  { r with beats := r.beats.map fun b => { b with bytes := b.bytes.map f } }

/-- Changes the source of every byte of every outstanding read. -/
def State.mapSources (s : State) (f : ByteSource → ByteSource) : State :=
  s.onPath fun p => { p with reads := p.reads.map (ProcRead.mapSources f) }

/-- Gives the packet bytes another source, from their slot, packet byte, address and serving; other bytes keep theirs. -/
def ByteSource.mapPacket (f : SlotRef → Nat → Nat → Serving → ByteSource) : ByteSource → ByteSource
  | .packet slot k a serving => f slot k a serving
  | .got v => .got v
  | .failed v => .failed v
  | .memory r o => .memory r o
  | .overtaken k a => .overtaken k a

/-- A byte served from that buffer is served in another way. -/
def ByteSource.reserve (b : Fin 8) (serving : Serving) : ByteSource → ByteSource :=
  ByteSource.mapPacket fun slot k a old => .packet slot k a (if old = .buffer b then serving else old)

/-- A byte served from that buffer has come with an error response (R140). -/
def ByteSource.failOf (b : Fin 8) : ByteSource → ByteSource :=
  ByteSource.mapPacket fun slot k a old => if old = .buffer b then .failed 0 else .packet slot k a old

/-- A byte of a slot that is taken again: in hand from a reclaimed buffer of the old generation, it is decided afresh, as it
would be from the buffer itself (R147; DEDUCED, log 11). -/
def ByteSource.takeBack (w : Fin 16) (slot : Nat) : ByteSource → ByteSource :=
  ByteSource.mapPacket fun at_ k a old =>
    match old with
    | .reclaimed u => .packet at_ k a (if at_.window = w ∧ at_.slot = slot then .undecided else .reclaimed u)
    | .undecided | .waiting | .buffer _ => .packet at_ k a old

/-- A byte that a buffer for that window serves comes from a null packet: one that an ASSEMBLING buffer owes (R148), and one in
hand from a HELD or a reclaimed buffer too (DEDUCED, log 30). A byte whose slot record has not been looked at, or whose read
waits for a buffer, keeps its decision (R152). -/
def ByteSource.nullOf (w : Fin 16) : ByteSource → ByteSource :=
  ByteSource.mapPacket fun at_ k a old =>
    match old with
    | .undecided | .waiting => .packet at_ k a old
    | .buffer _ | .reclaimed _ => if at_.window = w then .got (byteAt nullPacket k) else .packet at_ k a old

/-- The byte is served from that buffer. -/
def ByteSource.tied (b : Fin 8) : ByteSource → Bool
  | .packet _ _ _ serving => serving == .buffer b
  | .got _ | .failed _ | .memory _ _ | .overtaken _ _ => false

/-- Some outstanding read waits on that buffer. -/
def State.stagingNeeded (s : State) (b : Fin 8) : Bool :=
  s.path.reads.any fun r => r.bytes.any (ByteSource.tied b)

/-! ## Pass-through pieces of a view read (R135, R149) -/

/-- The memory address a byte is to be read from: for a packet byte, that of its ingest slot (R149). -/
def ByteSource.address : ByteSource → Option Nat
  | .packet _ _ a _ | .overtaken _ a => some a
  | .got _ | .failed _ | .memory _ _ => none

/-- A run of consecutive memory beats: the first beat and the number of beats (1 to 16). -/
abbrev BeatRun := Nat × Nat

/-- Adds the beat that holds an address to the last of the runs, or begins a new run (DESIGN CHOICE, log 10). -/
def addToRuns (runs : List BeatRun) (a : Nat) : List BeatRun :=
  match runs with
  | [] => [(a / 16, 1)]
  | (first, count) :: rest =>
    if first ≤ a / 16 ∧ a / 16 < first + count then (first, count) :: rest
    else if a / 16 = first + count ∧ count < 16 then (first, count + 1) :: rest
    else (a / 16, 1) :: (first, count) :: rest

/-- The runs of beats that hold some addresses, in the order in which they are met. -/
def beatRuns (addresses : List Nat) : List BeatRun := (addresses.foldl addToRuns []).reverse

/-- The request among those numbered from `id` on that reads an address, and the byte's offset in its data. -/
def sourceIn (id : Nat) (runs : List BeatRun) (a : Nat) : ByteSource :=
  match runs with
  | [] => .memory id 0
  | (first, count) :: rest =>
    if first ≤ a / 16 ∧ a / 16 < first + count then .memory id (a - 16 * first) else sourceIn (id + 1) rest a

/-- The pass-through reads of some addresses enter the PASS request queue; answers where each address comes from (R135). -/
def PathUnit.readPieces (p : PathUnit) (use : Nat → ReadUse) (addresses : List Nat) : PathUnit × (Nat → ByteSource) :=
  let runs := beatRuns addresses
  let id := p.nextRequest
  ({ p with
      passQueue := p.passQueue ++ runs.mapIdx fun i r => .read ⟨r.1, r.2, use (id + i)⟩
      nextRequest := id + runs.length },
    sourceIn id runs)

/-- Every packet byte of one read is served by pass-through reads of the ingest slot's bytes (R149). -/
def PathUnit.fromMemory (p : PathUnit) (r : ProcRead) : PathUnit × ProcRead :=
  let (p, source) := p.readPieces .view (r.bytes.filterMap ByteSource.address)
  (p, r.mapSources fun b =>
    match b.address with
    | some a => source a
    | none => b)

/-- Every packet byte of every outstanding read is served from memory (R149). -/
def PathUnit.allFromMemory (p : PathUnit) : PathUnit :=
  let (p', reads) := p.reads.foldl (fun (acc : PathUnit × List ProcRead) r =>
    let (q, r') := acc.1.fromMemory r
    (q, acc.2 ++ [r'])) (p, [])
  { p' with reads := reads }

/-! ## Freeing buffers -/

/-- A staging buffer becomes FREE; a pending demand is let go (R147, R148). -/
def State.freeStaging (s : State) (b : Fin 8) : State :=
  match s.path.staging[b] with
  | some u => (s.setStaging b none).letGoDemand b u.wait
  | none => s

/-- An ASSEMBLING buffer becomes VOID: its deadline is disarmed, its pending demand is let go, and its remaining bytes come
from a null packet (R140, R147). -/
def State.voidStaging (s : State) (b : Fin 8) : State :=
  match s.path.staging[b] with
  | some u =>
    (s.setStaging b (some { u with void := true, packet := some nullPacket, deadline := none, wait := .nothing })).letGoDemand
      b u.wait
  | none => s

/-- A VOID buffer becomes FREE once its waiting reads have been answered (R140, R147). -/
def State.dropVoid (s : State) (b : Fin 8) : State :=
  match s.path.staging[b] with
  | some u => if u.void && !s.stagingNeeded b then s.setStaging b none else s
  | none => s

/-- All VOID buffers that no read waits on become FREE. -/
def State.dropVoids (s : State) : State := (List.finRange 8).foldl State.dropVoid s

/-- The buffers built or being built for the slots of an INGEST window. -/
def stagingOf (v : Vector (Option StagingUse) 8) (w : Fin 16) : List (Fin 8) :=
  (List.finRange 8).filter fun b =>
    match v[b] with
    | some u => u.window == w
    | none => false

/-- Every staging buffer for a slot of an INGEST window is freed, and the bytes that these buffers serve come from a null packet
(R27, R148): those that ASSEMBLING buffers owe, and those of a waiting beat already served from a HELD buffer (DEDUCED, log 30).
Reads that wait for a buffer keep their decision (R152). -/
def State.freeStagingOf (s : State) (w : Fin 16) : State :=
  ((stagingOf s.path.staging w).foldl State.freeStaging s).mapSources (ByteSource.nullOf w)

/-- At entry to BYPASS every staging buffer is FREE and the packet bytes still owed are read from memory (R149). -/
def PathUnit.bypassed (p : PathUnit) : PathUnit :=
  { p with staging := Vector.replicate 8 none }.allFromMemory

end Sys2Proof.Machine
end

