-- ==== Sys2Proof/Machine/Bypass.lean ====
section
/-! DEFINITION. The part state (10.3): the entry to BYPASS with each block's response, and the return to OPERATING. -/

namespace Sys2Proof.Machine

/-- The splice fields of a service at entry to BYPASS; the output continuity state is kept (R114). -/
def SpliceFields.bypassed (f : SpliceFields) : SpliceFields :=
  { f with
    state := .idle, current := none, test := none, runQueue := [], standbyQueue := [], roleMap := []
    markPending := false, alertHold := false, run := none }

/-- The Splice Engine's response for one service (R114). -/
def State.spliceBypass (s : State) (i : Fin 64) : State × List ReportBody :=
  let closed :=
    match s.splice.services[i].current with
    | some r => s.cutShort r .bypass
    | none => (s, [])
  (closed.1.onFields i SpliceFields.bypassed, closed.2)

/-- The Alert Unit's response for one entry: an ACTIVE or ENDING entry goes CLOSING with end reason BYPASS (R134). -/
def State.entryBypass (s : State) (i : Fin 4) : State × List ReportBody :=
  match s.alert.entries[i].state with
  | .active | .ending => (s.onEntry i fun e => { e with endReason := some .bypass }).entryClosing i
  | .free | .closing => (s, [])

/-- Runs an operation over a list of indexes in order and gathers the records it hands over. -/
def State.gather {α : Type} (f : State → α → State × List ReportBody) (s : State) (l : List α) :
    State × List ReportBody :=
  l.foldl
    (fun p i =>
      let (s, bodies) := f p.1 i
      (s, p.2 ++ bodies)) (s, [])

/-- Records of several blocks that act in no order among themselves are produced, each block's in its own order (R184, R70,
DESIGN CHOICE, log 16). -/
def State.produceUnordered (s : State) (lists : List (List ReportBody)) : State :=
  let (bodies, free) := interleave (lists.map List.length).sum s.free lists
  { s with free := free }.produceAll bodies

/-- The part enters BYPASS, and every block acts on its own state (R184). `answer` holds the DONE of a BYPASS cue (R70). Inside
one block the services and the entries are handled, and their as-run records produced, in rising index (DEDUCED, log 29). -/
def State.enterBypass (s : State) (answer : List ReportBody) : State :=
  let s := s.onFault fun u => { u with part := .bypass }
  let (s, splices) := s.gather State.spliceBypass (List.finRange 64)
  let (s, alerts) := s.gather State.entryBypass (List.finRange 4)
  let s := s.onAlert fun u => { u with overlays := Vector.replicate 64 .none }
  let (s, flushed) := s.flushAll
  let s := (s.onContent ContentUnit.releaseBuffers).onPath PathUnit.bypassed
  s.produceUnordered [splices, alerts, flushed, answer]

/-- The latch is set with a cause; a latch already set keeps its first cause (R183). -/
def FaultUnit.setLatch (u : FaultUnit) (cause : LatchCause) : FaultUnit :=
  { u with latch := some (u.latch.getD cause) }

/-- The part returns to OPERATING where it is in BYPASS with the pin hold and the latch clear (R186). -/
def State.returnIfClear (s : State) : State :=
  if s.fault.part = .bypass ∧ s.fault.pinHold = false ∧ s.fault.latch = none then
    s.onFault fun u => { u with part := .operating }
  else s

end Sys2Proof.Machine
end

