-- ==== Sys2Proof/Machine/Flags.lean ====
section
/-! DEFINITION. The error flags: how an error report is captured, recorded and acted on (10.2). -/

namespace Sys2Proof.Machine

/-- The first 4 bytes of a packet, as an error report carries them (R178). -/
def packetHead (packet : List Byte) : Option (List Byte) := some (packet.take 4)

/-- An error of that kind acts on the error latch: its severity is BYPASS, or it is a CONFIG_ERROR (R182, R183). -/
def FaultUnit.acts (u : FaultUnit) (k : ErrorKind) : Bool :=
  u.policy[errorNumber k].severity == .bypass || k == .configError

/-- What an error does to the part state (R182). -/
def FaultUnit.effect (u : FaultUnit) (k : ErrorKind) : BypassEffect :=
  if u.acts k then
    match u.part with
    | .operating => .entered
    | .starting | .bypass => .held
  else .none

/-- The capture after an error report, and whether the error is the one captured (R181). -/
def FaultUnit.captureError (u : FaultUnit) (k : ErrorKind) (c : Capture) : Option Capture × Bool :=
  if u.policy[errorNumber k].masked then (u.capture, false)
  else
    match u.capture with
    | some held => (some held, false)
    | none => (some c, true)

/-- The cause an error gives the latch (R183). -/
def latchCause (k : ErrorKind) : LatchCause :=
  match k with
  | .configError => .config
  | _ => .error

/-- The Fault Unit takes an error report: capture, record, severity (R180). -/
def State.raise (s : State) (k : ErrorKind) (index address : Nat) (packet : Option (List Byte)) : State :=
  let policy := s.fault.policy[errorNumber k]
  let acts := s.fault.acts k
  let effect := s.fault.effect k
  let (capture, captured) := s.fault.captureError k ⟨k, index, s.clock, address, packet⟩
  let s := s.onFault fun u => { u with capture := capture }
  let s :=
    if policy.masked then s
    else s.handError ⟨k, index, address, packet, policy.severity, effect, captured, capture, 0⟩
  let s := if acts then s.onFault fun u => u.setLatch (latchCause k) else s
  if effect = .entered then s.enterBypass [] else s

end Sys2Proof.Machine
end

