-- ==== Sys2Proof/Machine/Splice.lean ====
section
/-! DEFINITION. The Splice Engine's decisions (05): output continuity, marks, content packets, splice-out, return. -/

namespace Sys2Proof.Machine

/-- A take notice (R19) with the take generation that the take will store (R85). -/
structure TakeNotice where
  service : Fin 64
  comp : Nat
  window : Fin 16
  slot : Nat
  generation : Generation
  n : Count32
  payload : Bool
  unitStart : Bool
  randomAccess : Bool
  discontinuity : Bool
  countdown : Option Byte
  clockReference : Bool
  cc : CC
  malformed : Bool
  deriving DecidableEq, Repr

/-- An error that a decision raises at its end (DEDUCED, log 13). -/
structure Raised where
  kind : ErrorKind
  index : Nat
  address : Nat
  deriving DecidableEq, Repr

/-- What a decision answers: the action of the disposition and the errors to raise. -/
structure Decided where
  state : State
  action : Action
  errors : List Raised

/-! ## Entry points and marks (R1, R98) -/

/-- The entry component: the first VIDEO component, or the first AUDIO component of a service with no VIDEO component. -/
def entryComponent (comps : List Component) : Option Nat :=
  match comps.findIdx? (·.role == .video) with
  | some i => some i
  | none => comps.findIdx? (·.role == .audio)

/-- The packet is an entry point of the service (R1); a malformed packet is not one (R17). -/
def entryPoint (d : Service) (x : TakeNotice) : Bool :=
  entryComponent d.comps == some x.comp && x.unitStart && !x.malformed &&
    (x.randomAccess || !(d.comps.any (·.role == .video)))

/-- A splice countdown of 0 on the entry component (R98). -/
def markPacket (d : Service) (x : TakeNotice) : Bool :=
  entryComponent d.comps == some x.comp && x.countdown == some 0

/-! ## Output continuity (R93) -/

/-- The output CC of a packet with source counter `cc`, and the continuity state after it (R93). -/
def OutputCC.give (o : OutputCC) (insert : Bool) (cc : CC) (payload : Bool) : CC × OutputCC :=
  let delta := if insert then o.contentDelta.getD 0 else o.passDelta
  let candidate := cc + delta
  match o.last, payload with
  | none, true => (candidate, { o with last := some candidate })
  | none, false => (candidate, o)
  | some last, false => (last, o)
  | some last, true =>
    let next := last + 1
    if candidate = next then (next, { o with last := some next })
    else if insert then (next, { o with last := some next, contentDelta := some (next - cc) })
    else (next, { o with last := some next, passDelta := next - cc })

/-- The disposition given a component's output PID takes its output CC (R93). -/
def State.giveCC (s : State) (i : Fin 64) (comp : Nat) (insert : Bool) (cc : CC) (payload : Bool) : State × CC :=
  let given := (s.splice.services[i].outputCC.getD comp {}).give insert cc payload
  (s.onFields i fun f => { f with outputCC := f.outputCC.set comp given.2 }, given.1)

/-! ## Discontinuity marks (R109) -/

/-- The first packet that carries a clock reference and is given the output clock PID receives the mark owed (R109). -/
def State.takeMark (s : State) (i : Fin 64) (d : Service) (comp : Nat) (clockReference : Bool) : State × Bool :=
  if s.splice.services[i].markPending && clockReference && comp == d.clock then
    (s.onFields i fun f => { f with markPending := false }, true)
  else (s, false)

/-- Mark pending is set (R108, R125, R132). -/
def State.oweMark (s : State) (i : Fin 64) : State := s.onFields i fun f => { f with markPending := true }

/-- The output PID of a component. -/
def Service.outputPid (d : Service) (comp : Nat) : Pid :=
  match d.comps[comp]? with
  | some c => c.output
  | none => nullPid

/-- PASS with rewrite under the PASS delta (R92, R93, R109). -/
def State.passRewrite (s : State) (d : Service) (x : TakeNotice) : State × Action :=
  let (s, cc) := s.giveCC x.service x.comp false x.cc x.payload
  let (s, mark) := s.takeMark x.service d x.comp x.clockReference
  (s, .pass (some ⟨d.outputPid x.comp, cc, mark⟩))

/-! ## Content packets (R94, R95) -/

/-- The index of the k-th component of a role. -/
def nthOfRole (comps : List Component) (role : Role) (k : Nat) : Option Nat :=
  (((List.range comps.length).filter fun i => (comps[i]?.map Component.role) == some role)[k]?)

/-- The role map of a run (R95). -/
def roleMap (content : List ContentComponent) (comps : List Component) : List (Option Nat) :=
  content.mapIdx fun i c => nthOfRole comps c.role ((content.take i).countP fun e => e.role == c.role)

/-- The content delta of a mapped service component at a run start (R95). -/
def runDelta (last first : Option CC) : CC :=
  match last, first with
  | some l, some f => l + 1 - f
  | _, _ => 0

/-- The output continuity states with the content deltas of a run. -/
def runDeltas (map : List (Option Nat)) (first : List (Option CC)) (out : List OutputCC) : List OutputCC :=
  out.mapIdx fun j o =>
    match map.findIdx? (· == some j) with
    | some i => { o with contentDelta := some (runDelta o.last (first.getD i none)) }
    | none => o

/-- The role map and the content deltas are formed at a run start (R95). -/
def State.formRun (s : State) (i : Fin 64) (d : Service) (c : Fin 128) : State :=
  let e := s.content.entries[c]
  let map :=
    match e.definition with
    | some f => roleMap f.comps d.comps
    | none => []
  s.onFields i fun f => { f with roleMap := map, outputCC := runDeltas map e.firstCC f.outputCC }

/-- The run queue's head for a packet, where there is one. -/
def SpliceFields.headFor (f : SpliceFields) (j : Nat) : Option HeaderState :=
  match f.runQueue with
  | [] => none
  | h :: _ => if h.packet = j then some h.state else none

/-- The head of the run queue is consumed: it leaves the queue, and an entry for the packet that follows the queue's last
joins; in a run that loops, modulo the packet count (R94). Where the head was the only entry it counts as the queue's last, which
R94 leaves open: in a looping run of one packet, packet 0 joins once more before the loop empties and refills the queue (DESIGN
CHOICE, log 54). -/
def State.consumeHead (s : State) (i : Fin 64) (c : Fin 128) (loops : Bool) : State :=
  match s.splice.services[i].runQueue.getLast? with
  | none => s
  | some last =>
    let count := s.packetCount c
    let s := s.onFields i fun f => { f with runQueue := f.runQueue.tail }
    if loops then s.joinHeader i false c ((last.packet + 1) % count)
    else if last.packet + 1 < count then s.joinHeader i false c (last.packet + 1)
    else s

/-- What a run gives the content packets it takes: its content, cursor, offset and source, and whether it loops. -/
structure RunView where
  content : Fin 128
  cursor : Nat
  offset : Nat
  source : Source
  loops : Bool

/-- The service component that a content packet's PID maps to. -/
def State.mappedTo (s : State) (i : Fin 64) (c : Fin 128) (pid : Pid) : Option Nat :=
  match s.content.entries[c].definition with
  | none => none
  | some f =>
    match f.comps.findIdx? (·.pid == pid) with
    | none => none
    | some k => s.splice.services[i].roleMap.getD k none

/-- The owner of a source counts an INSERT written for it (R95, R116). -/
def State.written (s : State) : Source → State
  | .insertion r _ => s.onRecord r fun x => { x with inserted := x.inserted + 1, outstanding := x.outstanding + 1 }
  | .alert e _ _ => s.onEntry e fun x => { x with inserted := x.inserted + 1, outstanding := x.outstanding + 1 }

/-- An INSERT of content packet j to a mapped component (R95). -/
def State.insertPacket (s : State) (d : Service) (x : TakeNotice) (r : RunView) (h : Header) (comp : Nat)
    (forcedMark : Bool) : State × Action :=
  let (s, cc) := s.giveCC x.service comp true h.cc h.payload
  let (s, mark) := s.takeMark x.service d comp h.clockReference
  let (s, buffer) := s.allocatePrefetch ⟨x.window, x.slot, x.generation⟩
    ⟨r.content, r.cursor, x.service, s.contentAddress r.content r.cursor⟩
  (s.written r.source, .insert ⟨⟨d.outputPid comp, cc, mark || forcedMark⟩, r.source, r.cursor, r.offset, buffer⟩)

/-- A service packet takes content packet j (R95). The second answer says whether j advances. Both what R85 and what R94 ask of
the FETCH requester may fall to one take, and no rule orders the two: the prefetch fetch of packet j is requested first, then the
header read of the entry that joins (DESIGN CHOICE, log 48). -/
def State.takeContent (s : State) (d : Service) (x : TakeNotice) (r : RunView) (forcedMark : Bool) : Decided × Bool :=
  let address := s.contentAddress r.content r.cursor
  match s.splice.services[x.service].headFor r.cursor with
  | some (.ready h) =>
    let (s, action) :=
      match s.mappedTo x.service r.content h.pid with
      | some comp => s.insertPacket d x r h comp forcedMark
      | none => (s, .null)
    (⟨s.consumeHead x.service r.content r.loops, action, []⟩, true)
  | some .failed =>
    (⟨s.consumeHead x.service r.content r.loops, .null, [⟨.fetchFail, x.service.val, address⟩]⟩, true)
  | some .loading | none => (⟨s, .null, [⟨.fetchLate, x.service.val, address⟩]⟩, false)

/-! ## The splice-out conditions (R99) -/

/-- The first splice-out condition that fails, if one does. `blocked` is set at a packet under an overlay. -/
def State.spliceReason (s : State) (i : Fin 64) (blocked : Bool) : Option BlockCause :=
  if !s.clockLocked i then some .unlocked
  else if blocked || s.alert.overlays[i] != .none || s.splice.services[i].alertHold then some .alert
  else if (lowest s.splice.records (·.state == .free)).isNone then some .noRoom
  else if !s.spliceRoom then some .noRoom
  else none

/-- The packet is a splice point of a time cue (R97, R106), or the splice packet of a mark cue (R98). -/
def CueTest.splicePoint (t : CueTest) (entry : Bool) (t90 : Option Time90) : Bool :=
  if t.cue.mark then t.markSeen
  else
    match t90 with
    | some now => entry && hasReached now t.cue.t
    | none => false

/-! ## The rest of the cue test at a packet (R97, R98) -/

/-- The test after a packet, where the packet did not fire it. `recording`: marks are recorded at this packet; `reason`: the
packet was tried as a splice point or splice packet, or was due to be, and this is why it was none. -/
def State.testPacket (s : State) (d : Service) (x : TakeNotice) (recording : Bool) (reason : Option MissReason) : State :=
  match s.splice.services[x.service].test with
  | none => s
  | some t =>
    let now := s.t90 x.service x.n
    if t.cue.mark then
      match reason with
      | some r => s.missHead x.service (.missed r)
      | none =>
        let ends : Option Time90 :=
          match t.toleranceEnd with
          | some e => some e
          | none => now.map (· + BitVec.ofNat 33 t.cue.w)
        let seen := t.markSeen || (recording && markPacket d x)
        let s := s.onFields x.service fun f => { f with test := some { t with toleranceEnd := ends, markSeen := seen } }
        match ends, now with
        | some e, some v => if !seen && hasReached v e then s.missHead x.service .noMark else s
        | _, _ => s
    else
      let blocking : Option BlockCause :=
        match reason with
        | some (.blocked c) => some c
        | some .noEntry | none => t.blocking
      let s := s.onFields x.service fun f => { f with test := some { t with blocking := blocking } }
      match now with
      | some v =>
        if hasReached v t.cue.timeEnd then
          s.missHead x.service (.missed (match blocking with | some c => .blocked c | none => .noEntry))
        else s
      | none => s

/-! ## Insertions (R101 to R108) -/

/-- The offset O at a packet where t27 is known (R46). -/
def runOffset (t27 iFirst : Nat) : Nat := (t27 + clockModulus - iFirst) % clockModulus

/-- I_first of a content entry (R46). -/
def State.iFirst (s : State) (c : Fin 128) : Nat :=
  match s.content.entries[c].iFirst with
  | some f => f.value
  | none => 0

/-- How a record becomes ACTIVE at a splice-out (R101); its generation is the one it kept while FREE. -/
def startRecord (s : State) (old : InsertionRecord) (x : TakeNotice) (c : SpliceCue) : InsertionRecord where
  state := .active
  generation := old.generation
  service := x.service
  ref := c.ref
  cueId := c.cueId
  content := c.content
  d := c.d
  endAtContent := c.endAtContent
  offset :=
    match s.t27 x.service x.n with
    | some t => runOffset t (s.iFirst c.content)
    | none => 0
  tOut := (s.t90 x.service x.n).getD 0
  startTime := s.clock
  planned := s.packetCount c.content

/-- The insertion enters RETURNING (R105). -/
def State.enterReturning (s : State) (i : Fin 64) (r : Fin 68) (reason : EndReason) : State :=
  (s.onRecord r fun x =>
      { x with endReason := some reason, bound := .armed (after s.clock s.closeTicks), deadline := none }).onFields
    i fun f => { f with state := .returning }

/-- The return deadline is set where it is unset and network time is present (R105, R106). -/
def State.setReturnDeadline (s : State) (r : Fin 68) (now : Option Time90) : State :=
  s.onRecord r fun x =>
    match x.deadline, now with
    | none, some v => { x with deadline := some (v + BitVec.ofNat 33 s.limits.tolerance) }
    | _, _ => x

/-- The run of an insertion. -/
def State.insertionRun (s : State) (r : Fin 68) : RunView :=
  let x := s.splice.records[r]
  ⟨x.content, x.cursor, x.offset, .insertion r x.generation, false⟩

/-- The packet takes the next content packet of the insertion (R95, R103). -/
def State.insertionTake (s : State) (d : Service) (x : TakeNotice) (r : Fin 68) : Decided :=
  let (out, advanced) := s.takeContent d x (s.insertionRun r) false
  if advanced then { out with state := out.state.onRecord r fun y => { y with cursor := y.cursor + 1 } } else out

/-- The content end after a packet taken in INSERTING (R103, R105). -/
def State.contentEnds (s : State) (x : TakeNotice) (r : Fin 68) : State :=
  let y := s.splice.records[r]
  if s.packetCount y.content ≤ y.cursor then
    if y.endAtContent || y.d == 0 then
      (s.enterReturning x.service r .contentEnd).setReturnDeadline r (s.t90 x.service x.n)
    else s.onFields x.service fun f => { f with state := .exhausted }
  else s

/-- The record of a splice-out: the lowest-numbered FREE one (R101), and at a chained return another than the one that the
packet closes (R107). -/
def State.freeRecord (s : State) (closed : Option (Fin 68)) : Option (Fin 68) :=
  (List.finRange 68).find? fun r => s.splice.records[r].state == .free && closed != some r

/-- A splice-out at the packet, its conditions having held (R101); the end of the content is looked at after it too (DEDUCED,
log 34). `closed`: the record that a chained return closes at the same packet (R107). -/
def State.spliceOut (s : State) (d : Service) (x : TakeNotice) (c : SpliceCue) (closed : Option (Fin 68)) : Decided :=
  match s.freeRecord closed with
  | none => ⟨s, .null, []⟩
  | some r =>
    let s := s.reserve.onRecord r fun old => startRecord s old x c
    let s := s.onFields x.service fun f =>
      { f with state := .inserting, current := some r, test := none, runQueue := f.standbyQueue, standbyQueue := [] }
    let s := (s.formRun x.service d c.content).fireHead x.service
    let s := s.produce (.spliceStarted ⟨r, s.splice.records[r], x.n⟩)
    let out := s.insertionTake d x r
    { out with state := out.state.contentEnds x r }

/-- NULL in place of a content packet, counted in nulls (R104, R106). -/
def State.countNull (s : State) (r : Fin 68) : State := s.onRecord r fun x => { x with nulls := x.nulls + 1 }

/-- Mark pending is set at a forced return and at any return from a record whose clock-jump flag is set (R108). -/
def State.returnMark (s : State) (i : Fin 64) (r : Fin 68) (forced : Bool) : State :=
  if forced || s.splice.records[r].clockJump then s.oweMark i else s

/-- The record notes a forced return, and the mark is owed before the packet is decided (R106, R108; DEDUCED, log 37). -/
def State.beginReturn (s : State) (i : Fin 64) (r : Fin 68) (forced : Bool) : State :=
  (s.onRecord r fun y => { y with forcedReturn := y.forcedReturn || forced }).returnMark i r forced

/-- A service with no insertion: ARMED while a cue test is present, IDLE otherwise (R92). -/
def SpliceFields.atRest (f : SpliceFields) (armed : Bool) : SpliceFields :=
  { f with state := if armed then .armed else .idle }

/-- A return to the network: the packet passes with rewrite, the record leaves ACTIVE (R107). -/
def State.returnToNetwork (s : State) (d : Service) (x : TakeNotice) (r : Fin 68) (armed : Bool)
    (reason : Option MissReason) : Decided :=
  let now := s.t90 x.service x.n
  let (s, action) := s.passRewrite d x
  let s := (State.producing (s.leaveActive r now)).onFields x.service fun f => f.atRest armed
  ⟨s.testPacket d x true reason, action, []⟩

/-- The return happens at this packet (R106, R107, R108). -/
def State.returnHere (s : State) (d : Service) (x : TakeNotice) (r : Fin 68) (forced : Bool) : Decided :=
  let now := s.t90 x.service x.n
  let test := s.splice.services[x.service].test
  let tried := test.filter fun t => t.splicePoint (entryPoint d x) now
  let s := s.beginReturn x.service r forced
  match tried, s.spliceReason x.service false with
  | some t, none => (State.producing (s.leaveActive r now)).spliceOut d x t.cue (some r)
  | _, reason => s.returnToNetwork d x r test.isSome (if tried.isSome then reason.map .blocked else none)

/-- The return of an insertion is forced at this packet (R106). -/
def InsertionRecord.forcedAt (y : InsertionRecord) (now : Option Time90) : Bool :=
  match now, y.deadline with
  | some v, some limit => hasReached v limit
  | some _, none => false
  | none, _ => y.bound == .passed

/-- A mark cue whose mark has been seen misses at a packet that is no return packet, for want of an entry point (R98). -/
def State.markMiss (s : State) (i : Fin 64) : Option MissReason :=
  match s.splice.services[i].test with
  | some t => if t.cue.mark && t.markSeen then some .noEntry else none
  | none => none

/-- A service packet handled in RETURNING (R106). -/
def State.returningPacket (s : State) (d : Service) (x : TakeNotice) (r : Fin 68) : Decided :=
  let now := s.t90 x.service x.n
  let s := s.setReturnDeadline r now
  let y := s.splice.records[r]
  if entryPoint d x then s.returnHere d x r false
  else if y.forcedAt now then s.returnHere d x r true
  else
    let out : Decided :=
      if y.cursor < s.packetCount y.content then s.insertionTake d x r else ⟨s.countNull r, .null, []⟩
    { out with state := out.state.testPacket d x true (out.state.markMiss x.service) }

/-- t90 has reached T_out90 + D (R103, R104). -/
def durationReached (y : InsertionRecord) (now : Option Time90) : Bool :=
  match now with
  | some v => hasReached v (y.tOut + BitVec.ofNat 33 y.d)
  | none => false

/-- A service packet taken in INSERTING (R103). The waiting cue's test at the packet, which can only expire there (R97), comes
after the take of content: no rule places it, and the header reads of a head that is armed in its stead are requested behind the
fetches of the take (DESIGN CHOICE, log 49). The same in RETURNING and under an overlay. -/
def State.insertingPacket (s : State) (d : Service) (x : TakeNotice) (r : Fin 68) : Decided :=
  let y := s.splice.records[r]
  if decide (0 < y.d) && durationReached y (s.t90 x.service x.n) then
    (s.enterReturning x.service r .complete).returningPacket d x r
  else
    let out := s.insertionTake d x r
    { out with state := (out.state.contentEnds x r).testPacket d x false none }

/-- A service packet taken in EXHAUSTED (R104). -/
def State.exhaustedPacket (s : State) (d : Service) (x : TakeNotice) (r : Fin 68) : Decided :=
  let now := s.t90 x.service x.n
  if now.isNone then (s.enterReturning x.service r .forcedReturn).returningPacket d x r
  else if durationReached s.splice.records[r] now then (s.enterReturning x.service r .complete).returningPacket d x r
  else ⟨(s.countNull r).testPacket d x false none, .null, []⟩

/-- A service packet taken in IDLE or ARMED (R92, R97, R98). -/
def State.networkPacket (s : State) (d : Service) (x : TakeNotice) : Decided :=
  let tried :=
    s.splice.services[x.service].test.filter fun t => t.splicePoint (entryPoint d x) (s.t90 x.service x.n)
  match tried, s.spliceReason x.service false with
  | some t, none => s.spliceOut d x t.cue none
  | _, reason =>
    let (s, action) := s.passRewrite d x
    ⟨s.testPacket d x true (if tried.isSome then reason.map .blocked else none), action, []⟩

/-- The state's own handling of a service packet (R92, R93). -/
def State.splicePacket (s : State) (d : Service) (x : TakeNotice) : Decided :=
  let f := s.splice.services[x.service]
  match f.state, f.current with
  | .inserting, some r => s.insertingPacket d x r
  | .exhausted, some r => s.exhaustedPacket d x r
  | .returning, some r => s.returningPacket d x r
  | _, _ => s.networkPacket d x

end Sys2Proof.Machine
end

