-- ==== Sys2Proof/Machine/AlertAir.lean ====
section
/-! DEFINITION. Alerts on air (06, 6.3 to 6.6): runs, the packets of a service under an overlay, the return request, the
offer of a service to a new alert, the end of an alert. -/

namespace Sys2Proof.Machine

/-! ## Runs (R124) -/

/-- A new run for an alert entry (R124). The rule gives the offset O no start value: it is 0 until the run-start packet sets it,
before any packet of the run is written (DESIGN CHOICE, log 43). -/
def AlertEntry.newRun (e : AlertEntry) (i : Fin 4) : AlertRun where
  entry := i
  generation := e.generation
  mode := e.mode
  content := e.content
  startPending := true
  cursor := 0
  offset := 0
  returning := false
  deadline := none
  bound := .unset

/-- A run notice: the run is created or replaced, and the run queue is emptied and filled from packet 0 (R124). -/
def State.startRun (s : State) (service : Fin 64) (i : Fin 4) : State :=
  let e := s.alert.entries[i]
  (s.onFields service fun f => { f with run := some (e.newRun i), runQueue := [] }).fillHeaders service false e.content

/-- Updates the run of a service. -/
def State.onRun (s : State) (service : Fin 64) (f : AlertRun → AlertRun) : State :=
  s.onFields service fun x => { x with run := x.run.map f }

/-- The overlay of a service. -/
def State.setOverlay (s : State) (service : Fin 64) (o : Overlay) : State :=
  s.onAlert fun u => { u with overlays := u.overlays.set service o }

/-! ## Which alert is stronger (R115, R121, R132) -/

/-- How many alerts have been accepted since an entry was, the counter being one past the newest entry's start order: a newer
entry has the smaller age, and start orders are compared as they are counted, modulo 2^32 (R115). -/
def State.entryAge (s : State) (i : Fin 4) : Nat := (s.alert.startOrder - 1 - s.alert.entries[i].startOrder).toNat

/-- Entry `a` has a higher priority than `b`, or an equal one and is newer (R121, R132). -/
def State.stronger (s : State) (a b : Fin 4) : Bool :=
  let pa := s.alert.entries[a].priority
  let pb := s.alert.entries[b].priority
  decide (pb < pa) || (pa == pb && decide (s.entryAge a < s.entryAge b))

/-- The entry is ACTIVE and its captured set includes the service. -/
def State.covers (s : State) (i : Fin 4) (service : Fin 64) : Bool :=
  s.alert.entries[i].state == .active && s.alert.entries[i].captured.getLsbD service.val

/-- The strongest ACTIVE entry that covers a service (R132). -/
def State.strongest (s : State) (service : Fin 64) : Option (Fin 4) :=
  (List.finRange 4).foldl
    (fun best i =>
      if s.covers i service then
        match best with
        | some b => if s.stronger i b then some i else some b
        | none => some i
      else best) none

/-! ## Packets under an overlay (R125 to R128) -/

/-- The mode makes a packet of that component take content (R126, R127). -/
def AlertMode.takes (m : AlertMode) (d : Service) (comp : Nat) : Bool :=
  match m with
  | .full => true
  | .audioOnly => (d.comps[comp]?.map Component.role) == some .audio

/-- The head of the run queue for packet 0 is READY or FAILED (R125). -/
def SpliceFields.startReady (f : SpliceFields) : Bool :=
  match f.headFor 0 with
  | some (.ready _) | some .failed => true
  | some .loading | none => false

/-- The run start at its packet (R125, R46); the second answer is the mark that absent network time forces. -/
def State.runStart (s : State) (d : Service) (x : TakeNotice) (r : AlertRun) : State × Bool :=
  let t := s.t27 x.service x.n
  let offset :=
    match t with
    | some v => runOffset v (s.iFirst r.content)
    | none => 0
  let s := s.onRun x.service fun r => { r with startPending := false, offset := offset }
  ((s.formRun x.service d r.content).oweMark x.service, t.isNone)

/-- The alert content loops: packet 0 is next, a run start is pending, and the run queue is filled again (R128). -/
def State.loopRun (s : State) (service : Fin 64) (c : Fin 128) : State :=
  let s := s.onRun service fun r => { r with cursor := 0, startPending := true }
  (s.onFields service fun f => { f with runQueue := [] }).fillHeaders service false c

/-- The packet takes content under the run (R125, R126, R128). -/
def State.alertTake (s : State) (d : Service) (x : TakeNotice) (r : AlertRun) : Decided :=
  let started :=
    if r.startPending && s.splice.services[x.service].startReady then s.runStart d x r else (s, false)
  let s := started.1
  let r := s.splice.services[x.service].run.getD r
  let view : RunView := ⟨r.content, r.cursor, r.offset, .alert r.entry r.generation x.service, true⟩
  let (out, advanced) := s.takeContent d x view started.2
  if advanced then
    if s.packetCount r.content ≤ r.cursor + 1 then { out with state := out.state.loopRun x.service r.content }
    else { out with state := out.state.onRun x.service fun r => { r with cursor := r.cursor + 1 } }
  else out

/-- A packet handled as in AIRING (R126, R127). -/
def State.airingPacket (s : State) (d : Service) (x : TakeNotice) (r : AlertRun) : Decided :=
  if r.mode.takes d x.comp then s.alertTake d x r
  else
    let (s, action) := s.passRewrite d x
    ⟨s, action, []⟩

/-! ## Leaving an overlay (R131, R132) -/

/-- The return request at the return packet, and the packet as its answer decides it (R132). -/
def State.alertReturn (s : State) (d : Service) (x : TakeNotice) (leaving : Fin 4) : Decided :=
  match s.strongest x.service with
  | some i =>
    let s := s.setOverlay x.service (.airing i s.alert.entries[i].generation)
    let s := ((s.startRun x.service i).oweMark x.service).settleEntry leaving
    s.airingPacket d x (s.alert.entries[i].newRun i)
  | none =>
    let s := s.setOverlay x.service .none
    let s := s.onFields x.service fun f =>
      { f with run := none, runQueue := [], roleMap := [], alertHold := false, markPending := true }
    let (s, action) := (s.settleEntry leaving).passRewrite d x
    ⟨s, action, []⟩

/-- The return deadline of a run is set where it is unset and network time is present (R131). -/
def State.setRunDeadline (s : State) (service : Fin 64) (now : Option Time90) : State :=
  s.onRun service fun r =>
    match r.deadline, now with
    | none, some v => { r with deadline := some (v + BitVec.ofNat 33 s.limits.tolerance) }
    | _, _ => r

/-- The return of a run is forced at this packet (R131). -/
def AlertRun.forced (r : AlertRun) (now : Option Time90) : Bool :=
  match now, r.deadline with
  | some v, some limit => hasReached v limit
  | some _, none => false
  | none, _ => r.bound == .passed

/-- A service packet under an overlay (R93, R131), before its cue test. -/
def State.overlayDecision (s : State) (d : Service) (x : TakeNotice) : Decided :=
  match s.splice.services[x.service].run with
  | none =>
    let (s, action) := s.passRewrite d x
    ⟨s, action, []⟩
  | some r =>
    if r.returning then
      let now := s.t90 x.service x.n
      let s := s.setRunDeadline x.service now
      let r := s.splice.services[x.service].run.getD r
      if entryPoint d x || r.forced now then s.alertReturn d x r.entry else s.airingPacket d x r
    else s.airingPacket d x r

/-- A service packet under an overlay, with the cue test made with splice-out blocked for the reason ALERT (R93, R132,
DEDUCED, log 14, DEDUCED, log 15). -/
def State.overlayPacket (s : State) (d : Service) (x : TakeNotice) : Decided :=
  let tried :=
    s.splice.services[x.service].test.filter fun t => t.splicePoint (entryPoint d x) (s.t90 x.service x.n)
  let reason := s.spliceReason x.service true
  let out := s.overlayDecision d x
  { out with state := out.state.testPacket d x true (if tried.isSome then reason.map .blocked else none) }

/-- The Splice Engine decides the disposition of a service packet (R93) and then raises what the decision found (DEDUCED, log 13). -/
def State.decidePacket (s : State) (d : Service) (x : TakeNotice) : State × Action :=
  let out := if s.alert.overlays[x.service] = .none then s.splicePacket d x else s.overlayPacket d x
  (out.errors.foldl (fun s e => s.raise e.kind e.index e.address none) out.state, out.action)

/-! ## Offering a service to a new alert (R113, R121) -/

/-- The preempt request of a service (R113). -/
def State.preempt (s : State) (service : Fin 64) : State :=
  let s := s.onFields service fun f => { f with alertHold := true }
  let s :=
    match s.splice.services[service].current with
    | some r => State.producing (s.cutShort r .preempted)
    | none => s
  s.onFields service fun f => { f with state := if f.test.isSome then .armed else .idle }

/-- The alert takes the service: the overlay and the run notice (R121). -/
def State.takeService (s : State) (service : Fin 64) (i : Fin 4) : State :=
  (s.setOverlay service (.airing i s.alert.entries[i].generation)).startRun service i

/-- The alert displaces another on a service: the displaced one's preempted-by becomes its alert id, and an ENDING one that
has lost its last service goes CLOSING (R121). -/
def State.displace (s : State) (service : Fin 64) (i old : Fin 4) : State :=
  let id := s.alert.entries[i].alertId
  let s := s.onEntry old fun e => { e with preemptedBy := e.preemptedBy.set service (some id) }
  (s.takeService service i).settleEntry old

/-- Some ACTIVE alert of higher priority than the entry covers the service (R121). -/
def State.outranked (s : State) (service : Fin 64) (i : Fin 4) : Bool :=
  (List.finRange 4).any fun j =>
    s.covers j service && decide (s.alert.entries[i].priority < s.alert.entries[j].priority)

/-- A service is offered to an alert at its start; the answer says whether the alert took it (R121). -/
def State.offer (s : State) (service : Fin 64) (i : Fin 4) : State × Bool :=
  match s.alert.overlays[service] with
  | .none => ((s.preempt service).takeService service i, true)
  | .airing y _ => if s.stronger i y then (s.displace service i y, true) else (s, false)
  | .returning y _ => if s.outranked service i then (s, false) else (s.displace service i y, true)

/-! ## Ending an alert (R129 to R131) -/

/-- The services whose overlay is AIRING for an entry go RETURNING, each with its return notice (R129, R131). -/
def State.endService (s : State) (i : Fin 4) (service : Fin 64) : State :=
  match s.alert.overlays[service] with
  | .airing e g =>
    if e = i then
      (s.setOverlay service (.returning e g)).onRun service fun r =>
        { r with returning := true, bound := .armed (after s.clock s.closeTicks) }
    else s
  | .none | .returning _ _ => s

/-- One ACTIVE entry is ended (R129, R130). -/
def State.endAlert (s : State) (i : Fin 4) (reason : AlertEnd) : State :=
  let s := s.onEntry i fun e => { e with state := .ending, endReason := some reason, durationExpiry := none }
  ((List.finRange 64).foldl (fun s service => s.endService i service) s).settleEntry i

end Sys2Proof.Machine
end

