-- ==== Sys2Proof/Machine/Packet.lean ====
section
/-! DEFINITION. The transport packet: the fields the part reads (R14, 12.1) and those it rewrites or rebases (R47, R48, R140,
R143, R144, 12.2). -/

namespace Sys2Proof.Machine

/-! ## Header fields (12.1) -/

def packetPid (b : List Byte) : Pid := (byteAt b 1).extractLsb' 0 5 ++ byteAt b 2
def packetCC (b : List Byte) : CC := (byteAt b 3).extractLsb' 0 4
/-- An adaptation field is present: adaptation control 10 or 11. -/
def hasAdaptation (b : List Byte) : Bool := (byteAt b 3).getLsbD 5
/-- A payload is present: adaptation control 01 or 11. -/
def hasPayload (b : List Byte) : Bool := (byteAt b 3).getLsbD 4
def transportError (b : List Byte) : Bool := (byteAt b 1).getLsbD 7
def unitStart (b : List Byte) : Bool := (byteAt b 1).getLsbD 6

/-! ## The adaptation field (R14) -/

/-- The adaptation length; 0 where there is no adaptation field. -/
def adaptationLength (b : List Byte) : Nat := if hasAdaptation b then (byteAt b 4).toNat else 0

/-- A bit of the flags byte, which is read where the adaptation length is 1 or more. -/
def adaptationFlag (b : List Byte) (i : Nat) : Bool := decide (1 ≤ adaptationLength b) && (byteAt b 5).getLsbD i

def discontinuityFlag (b : List Byte) : Bool := adaptationFlag b 7
def randomAccessFlag (b : List Byte) : Bool := adaptationFlag b 6
def clockFlag (b : List Byte) : Bool := adaptationFlag b 4
def originalFlag (b : List Byte) : Bool := adaptationFlag b 3
def spliceFlag (b : List Byte) : Bool := adaptationFlag b 2

/-- The first byte of the original clock reference, which follows the clock reference. -/
def originalAt (b : List Byte) : Nat := if clockFlag b then 12 else 6
/-- The byte of the splice countdown, which follows both. -/
def countdownAt (b : List Byte) : Nat := if originalFlag b then originalAt b + 6 else originalAt b

/-- The 48-bit value of the clock-reference field at a byte. -/
def clockField (b : List Byte) (i : Nat) : Nat := beNat (slice b i 6)

/-- base × 300 + extension of the field at a byte (R31, R47). -/
def clockValue (b : List Byte) (i : Nat) : Nat := clockField b i / 2 ^ 15 * 300 + clockField b i % 2 ^ 9

/-- The optional fields whose flags are set, with the flags byte, in bytes (R14). -/
def optionalLength (b : List Byte) : Nat :=
  1 + (if clockFlag b then 6 else 0) + (if originalFlag b then 6 else 0) + (if spliceFlag b then 1 else 0)

/-- A packet is malformed (R14). -/
def malformed (b : List Byte) : Bool :=
  (!hasAdaptation b && !hasPayload b)
    || decide (183 < adaptationLength b)
    || (decide (1 ≤ adaptationLength b) && decide (adaptationLength b < optionalLength b))
    || (clockFlag b && decide (300 ≤ clockField b 6 % 2 ^ 9))

/-- The splice countdown, where the field is present. -/
def countdown (b : List Byte) : Option Byte := if spliceFlag b then some (byteAt b (countdownAt b)) else none

/-- The header fields that a header read gives (R94), from packet bytes 0..5. -/
def headerOf (b : List Byte) : Header where
  pid := packetPid b
  payload := hasPayload b
  cc := packetCC b
  clockReference := decide (7 ≤ adaptationLength b) && clockFlag b

/-! ## Rewriting (R140, R143) -/

/-- Sets the PID and the continuity counter and keeps the other header fields. -/
def rewriteHeader (b : List Byte) (pid : Pid) (cc : CC) : List Byte :=
  overwrite b 1
    [(byteAt b 1).extractLsb' 5 3 ++ pid.extractLsb' 8 5, pid.extractLsb' 0 8, (byteAt b 3).extractLsb' 4 4 ++ cc]

/-- Sets the discontinuity flag where there is an adaptation field of length 1 or more. -/
def setDiscontinuity (b : List Byte) : List Byte :=
  if 1 ≤ adaptationLength b then b.set 5 (byteAt b 5 ||| 0x80) else b

/-- A clock field rebased by O, its reserved bits kept (R47, R143). -/
def rebaseClock (b : List Byte) (i offset : Nat) : List Byte :=
  let old := clockField b i
  let c := (clockValue b i + offset) % clockModulus
  overwrite b i (beBytes 6 (c / 300 * 2 ^ 15 + (old / 2 ^ 9 % 2 ^ 6) * 2 ^ 9 + c % 300))

/-! ## Timestamps (R48, R144, 12.2) -/

/-- The 33-bit value of the 5-byte timestamp at a byte. -/
def timestamp (b : List Byte) (i : Nat) : Time90 :=
  (byteAt b i).extractLsb' 1 3 ++ byteAt b (i + 1) ++ (byteAt b (i + 2)).extractLsb' 1 7 ++ byteAt b (i + 3) ++
    (byteAt b (i + 4)).extractLsb' 1 7

/-- Writes a timestamp, its 4-bit code and its markers kept. -/
def setTimestamp (b : List Byte) (i : Nat) (t : Time90) : List Byte :=
  overwrite b i
    [(byteAt b i).extractLsb' 4 4 ++ t.extractLsb' 30 3 ++ (byteAt b i).extractLsb' 0 1,
      t.extractLsb' 22 8,
      t.extractLsb' 15 7 ++ (byteAt b (i + 2)).extractLsb' 0 1,
      t.extractLsb' 7 8,
      t.extractLsb' 0 7 ++ (byteAt b (i + 4)).extractLsb' 0 1]

/-- A timestamp rebased by O90 = floor(O / 300) (R46, R48). -/
def rebaseTimestamp (b : List Byte) (i offset : Nat) : List Byte :=
  setTimestamp b i (timestamp b i + BitVec.ofNat 33 (offset / 300))

/-- The first payload byte. -/
def payloadAt (b : List Byte) : Nat := if hasAdaptation b then 5 + adaptationLength b else 4

/-- The packet carries a whole optional PES header (R144). -/
def hasPesHeader (b : List Byte) : Bool :=
  let p := payloadAt b
  hasPayload b && unitStart b && (slice b p 3 == [0, 0, 1]) && decide (p + 9 ≤ packetLength)
    && (byteAt b (p + 6)).extractLsb' 6 2 == 2#2
    && decide (p + 9 + (byteAt b (p + 8)).toNat ≤ packetLength)

/-- The timestamps of a well-formed content packet are rebased (R144). A flagged timestamp that would run past the packet's
end is a header that does so: every payload byte is left as read (DEDUCED, log 35). -/
def rebaseTimestamps (b : List Byte) (offset : Nat) : List Byte :=
  if hasPesHeader b then
    let p := payloadAt b
    let flags := (byteAt b (p + 7)).extractLsb' 6 2
    if flags = 2#2 ∧ p + 14 ≤ packetLength then rebaseTimestamp b (p + 9) offset
    else if flags = 3#2 ∧ p + 19 ≤ packetLength then
      rebaseTimestamp (rebaseTimestamp b (p + 9) offset) (p + 14) offset
    else b
  else b

/-! ## Output packets -/

/-- The output packet of a PASS from the memory copy of its slot (R140). -/
def passPacket (b : List Byte) (r : Option Rewrite) : List Byte :=
  match r with
  | none => b
  | some r =>
    let b := rewriteHeader b r.pid r.cc
    if r.mark then setDiscontinuity b else b

/-- The output packet of an INSERT from its content packet (R143, R144). -/
def insertPacketBytes (content : List Byte) (r : Rewrite) (offset : Nat) : List Byte :=
  let b := rewriteHeader content r.pid r.cc
  if malformed content then b
  else
    let b := if clockFlag content then rebaseClock b 6 offset else b
    let b := if originalFlag content then rebaseClock b (originalAt content) offset else b
    let b := if r.mark then setDiscontinuity b else b
    rebaseTimestamps b offset

end Sys2Proof.Machine
end

