-- ==== Sys2Proof/Machine/Ingest.lean ====
section
/-! DEFINITION. The Ingest Parser and the Slot Table (01): writes of a beat, assembly, takes, slot records. -/

namespace Sys2Proof.Machine

/-! ## Writes of a beat (R3, R4) -/

/-- One write into an ingest slot: a maximal run of enabled bytes of one slot's recorded span (R4). -/
structure IngestWrite where
  window : Fin 16
  slot : Nat
  offset : Nat
  address : Nat
  bytes : List Byte
  deriving DecidableEq, Repr

/-- Where an address lies in an ingest slot's recorded span: window, slot and slot byte (R3). -/
def spanAt (t : Vector WindowEntry 16) (a : Nat) : Option (Fin 16 × Nat × Nat) :=
  match windowAt t a with
  | none => none
  | some w =>
    match t[w] with
    | .ingest base _ stride _ =>
      let x := (a - base) % stride
      if x ≤ takeByte stride then some (w, (a - base) / stride, x) else none
    | .empty | .view _ _ | .cue _ _ | .report _ _ => none

/-- Adds one byte to the writes found so far, the latest first. -/
def addToWrites (ws : List IngestWrite) (w : Fin 16) (slot offset a : Nat) (b : Byte) : List IngestWrite :=
  match ws with
  | [] => [⟨w, slot, offset, a, [b]⟩]
  | h :: rest =>
    if h.window = w ∧ h.slot = slot ∧ h.offset + h.bytes.length = offset then { h with bytes := h.bytes ++ [b] } :: rest
    else ⟨w, slot, offset, a, [b]⟩ :: h :: rest

/-- The writes of a forwarded beat, in rising order of address (R4). -/
def beatWrites (t : Vector WindowEntry 16) (address : Nat) (data : BeatData) (enables : Enables) : List IngestWrite :=
  ((enabledLanes enables).foldl
    (fun ws lane =>
      match spanAt t (address + lane) with
      | some (w, slot, x) => addToWrites ws w slot x (address + lane) (laneByte data lane)
      | none => ws) []).reverse

/-! ## Assembly state (R5, R11) -/

def State.setAssembly (s : State) (w : Fin 16) (a : Assembly) : State :=
  s.onIngest fun u => { u with assembly := u.assembly.set w (some a) }

/-- Sets the assembly mode of a window that has an assembly state. -/
def State.setMode (s : State) (w : Fin 16) (m : AssemblyMode) : State :=
  match s.ingest.assembly[w] with
  | some a => s.setAssembly w { a with mode := m }
  | none => s

/-- The ring distance from slot `a` to slot `b` of `n` slots (R11). -/
def ringDistance (n a b : Nat) : Nat := if a = b then n else (b + n - a) % n

/-- The multiplex packet index of the next take, at that slot (R11). -/
def Assembly.nextIndex (a : Assembly) (slots slot : Nat) : Count32 :=
  match a.lastTake with
  | none => 0
  | some (last, n) => n + BitVec.ofNat 32 (ringDistance slots last slot)

/-! ## Checks at take (R15, R18) -/

/-- The service and component that a window's PID map holds for a PID (R15, R22; computed, DEDUCED, log 32). -/
def State.lookup (s : State) (w : Fin 16) (pid : Pid) : Option (Fin 64 × Nat) :=
  if pid = nullPid then none
  else
    (List.finRange 64).findSome? fun i =>
      match s.ingest.services[i] with
      | some d => if d.window = w then (d.comps.findIdx? (·.source == pid)).map fun c => (i, c) else none
      | none => none

/-- The continuity check of a packet with payload: the state after it, and whether CC_GAP is raised (R18). -/
def InputCC.check (c : InputCC) (discontinuity : Bool) (cc : CC) : InputCC × Bool :=
  match c.last with
  | none => (⟨some cc, false⟩, false)
  | some last =>
    if discontinuity || cc == last + 1 then (⟨some cc, false⟩, false)
    else if cc = last then (⟨some last, !c.duplicate⟩, c.duplicate)
    else (⟨some cc, false⟩, true)

/-- An error of a service's packet at its slot (R28). -/
def State.raisePacket (s : State) (k : ErrorKind) (index : Nat) (w : Fin 16) (slot : Nat) (b : List Byte) : State :=
  s.raise k index (slotPacketAddress s.path.windows[w] slot) (packetHead b)

/-- The continuity check of a service packet with payload (R18). -/
def State.checkContinuity (s : State) (i : Fin 64) (comp : Nat) (w : Fin 16) (slot : Nat) (b : List Byte) : State :=
  if hasPayload b then
    let (c, gap) :=
      (s.ingest.inputCC[i].getD comp {}).check (discontinuityFlag b && !malformed b) (packetCC b)
    let s := s.onIngest fun u => { u with inputCC := modifyAt u.inputCC i fun l => l.set comp c }
    if gap then s.raisePacket .ccGap i.val w slot b else s
  else s

/-- The packet gives a clock sample (R19, R31). -/
def givesSample (d : Service) (comp : Nat) (b : List Byte) : Bool := comp == d.clock && clockFlag b && !malformed b

/-- The take notice of a service packet (R17, R19). -/
def takeNotice (d : Service) (i : Fin 64) (comp : Nat) (w : Fin 16) (slot : Nat) (g : Generation) (n : Count32)
    (b : List Byte) : TakeNotice where
  service := i
  comp := comp
  window := w
  slot := slot
  generation := g
  n := n
  payload := hasPayload b
  unitStart := unitStart b
  randomAccess := randomAccessFlag b && !malformed b
  discontinuity := discontinuityFlag b && !malformed b
  countdown := if malformed b then none else countdown b
  clockReference := givesSample d comp b
  cc := packetCC b
  malformed := malformed b

/-- Steps 4 to 6 of a take, for a service packet (R12, R16 to R19, R93). -/
def State.serviceTake (s : State) (d : Service) (i : Fin 64) (comp : Nat) (w : Fin 16) (slot : Nat) (n : Count32)
    (b : List Byte) : State × Action :=
  let s := if transportError b then s.raisePacket .transportFlag i.val w slot b else s
  let s := if malformed b then s.raisePacket .malformedPacket i.val w slot b else s
  let s := s.checkContinuity i comp w slot b
  let s :=
    if givesSample d comp b then
      s.handleSample i ⟨clockValue b 6, n, discontinuityFlag b⟩
    else s
  if s.aside then (s, .pass none)
  else s.decidePacket d (takeNotice d i comp w slot ((s.slotRecord w slot).generation + 1) n b)

/-- Steps 1 to 6 of a take that reached its take byte (R12, R13, R15); `b` holds the packet bytes. -/
def State.takePacket (s : State) (w : Fin 16) (slot : Nat) (n : Count32) (b : List Byte) : State × Action :=
  if byteAt b 0 = syncByte then
    match s.lookup w (packetPid b) with
    | none => (s, .pass none)
    | some (i, comp) =>
      match s.ingest.services[i] with
      | none => (s, .pass none)
      | some d => s.serviceTake d i comp w slot n b
  else (s.raisePacket .syncLoss w.val w slot b, .null)

/-! ## Slot records (R24, R25, R147) -/

/-- The state of a record outside FILLING, the prior state in FILLING (R23). -/
def SlotState.settled : SlotState → SlotRest
  | .rest r => r
  | .filling r => r

/-- The record holds an unplayed disposition (R25). -/
def SlotRecord.unplayed (r : SlotRecord) : Option Disposition :=
  match r.state.settled with
  | .taken => r.disposition
  | .empty | .played => none

/-- At a take the record's old disposition is settled first (R25). -/
def State.settleOld (s : State) (w : Fin 16) (slot : Nat) : State :=
  let r := s.slotRecord w slot
  match r.unplayed with
  | none => s
  | some d =>
    let s :=
      if d.bypassTake || s.aside then s
      else s.raise .ingestOverrun w.val (slotAddress s.path.windows[w] slot) none
    s.discard w slot r.generation d

/-- The staging buffers built or being built for a slot and take generation. -/
def stagingFor (v : Vector (Option StagingUse) 8) (w : Fin 16) (slot : Nat) (g : Generation) : List (Fin 8) :=
  (List.finRange 8).filter fun b =>
    match v[b] with
    | some u => u.window == w && u.slot == slot && u.generation == g
    | none => false

/-- One staging buffer of the old generation at a take (R147). -/
def State.takeFromStaging (s : State) (w : Fin 16) (slot : Nat) (b : Fin 8) : State :=
  match s.path.staging[b] with
  | none => s
  | some u =>
    if u.held then (s.setStaging b none).mapSources (ByteSource.reserve b .undecided)
    else (s.voidStaging b).raise .ingestOverrun w.val (slotAddress s.path.windows[w] slot) none

/-- The staging buffers of the old generation at a take of their slot (R147), and what is in hand from reclaimed ones
(DEDUCED, log 11). -/
def State.settleStaging (s : State) (w : Fin 16) (slot : Nat) : State :=
  ((stagingFor s.path.staging w slot (s.slotRecord w slot).generation).foldl (fun s b => s.takeFromStaging w slot b) s).mapSources
    (ByteSource.takeBack w slot)

/-- The Slot Table stores a take (R25). -/
def State.storeTake (s : State) (w : Fin 16) (slot : Nat) (action : Action) : State :=
  let d : Disposition := if s.aside then ⟨.pass none, true⟩ else ⟨action, false⟩
  s.onSlot w slot fun r => { state := .rest .taken, generation := r.generation + 1, disposition := some d }

/-- A take of a slot: the old disposition and its staging buffers are settled first (DEDUCED, log 12), then the steps of R12; a torn
take, with no packet, stores NULL (R8). -/
def State.take (s : State) (w : Fin 16) (slot : Nat) (packet : Option (List Byte)) : State :=
  match s.ingest.assembly[w] with
  | none => s
  | some a =>
    let n := a.nextIndex (slotCount s.path.windows[w]) slot
    let s := s.setAssembly w { a with lastTake := some (slot, n) }
    let s := (s.settleOld w slot).settleStaging w slot
    let (s, action) :=
      match packet with
      | some b => s.takePacket w slot n b
      | none => (s, .null)
    s.storeTake w slot action

/-! ## Assembly (R6 to R10) -/

/-- A PASS buffer whose slot begins to fill before its bytes have arrived is VOID, and PLAYOUT_OVERTAKE is raised (R140). -/
def State.voidPass (s : State) (w : Fin 16) (slot : Nat) (b : Fin 8) : State :=
  match s.path.staging[b] with
  | none => s
  | some u =>
    match u.disposition.action with
    | .pass _ =>
      if u.held || u.void then s
      else (s.voidStaging b).raise .playoutOvertake w.val (slotAddress s.path.windows[w] slot) none
    | .insert _ | .null => s

/-- The record becomes FILLING (R24); the Path Unit is told (R140). -/
def State.fillSlot (s : State) (w : Fin 16) (slot : Nat) : State :=
  let r := s.slotRecord w slot
  let s := s.onSlot w slot fun r => { r with state := .filling r.state.settled }
  (stagingFor s.path.staging w slot r.generation).foldl (fun s b => s.voidPass w slot b) s

/-- The packet bytes of a slot's recorded bytes. -/
def packetOf (stride : Nat) (recorded : List Byte) : List Byte := recorded.drop (packetStart stride)

/-- The stride of an INGEST window. -/
def strideOf : WindowEntry → Nat
  | .ingest _ _ stride _ => stride
  | .empty | .view _ _ | .cue _ _ | .report _ _ => 0

/-- The current slot has these recorded bytes; it is taken if they reach its take byte (R6). -/
def State.record (s : State) (w : Fin 16) (slot : Nat) (recorded : List Byte) : State :=
  let e := s.path.windows[w]
  if takeByte (strideOf e) < recorded.length then
    (s.take w slot (some (packetOf (strideOf e) recorded))).setMode w (.expecting ((slot + 1) % slotCount e))
  else s.setMode w (.inSlot slot recorded)

/-- A write begins a slot (R7). -/
def State.beginSlot (s : State) (x : IngestWrite) : State := (s.fillSlot x.window x.slot).record x.window x.slot x.bytes

/-- SEQUENCE_BREAK; packet bytes are carried where at least packet bytes 0..3 had been recorded (R28). -/
def State.sequenceBreak (s : State) (x : IngestWrite) (recorded : List Byte) : State :=
  let p := packetOf (strideOf s.path.windows[x.window]) recorded
  s.raise .sequenceBreak x.window.val x.address (if 4 ≤ p.length then packetHead p else none)

/-- The current slot is torn: taken with a NULL disposition, then SEQUENCE_BREAK (R8, R10). -/
def State.tear (s : State) (x : IngestWrite) (slot : Nat) (recorded : List Byte) : State :=
  (s.take x.window slot none).sequenceBreak x recorded

/-- The parser handles one write (R6 to R10). A write that begins a slot other than the expected one begins it, and then raises
SEQUENCE_BREAK, in the order of the table that gathers the cases; R7's own words give none (DEDUCED, log 47). -/
def State.ingestWrite (s : State) (x : IngestWrite) : State :=
  match s.ingest.assembly[x.window] with
  | none => s
  | some a =>
    match a.mode with
    | .seeking => if x.offset = 0 then s.beginSlot x else s
    | .expecting e =>
      if x.offset = 0 then
        let begun := s.beginSlot x
        if x.slot = e then begun else begun.sequenceBreak x []
      else (s.sequenceBreak x []).setMode x.window .seeking
    | .inSlot slot recorded =>
      if x.slot = slot ∧ x.offset = recorded.length then s.record x.window slot (recorded ++ x.bytes)
      else if x.offset = 0 then
        if x.slot = slot then (s.sequenceBreak x recorded).record x.window slot x.bytes
        else (s.tear x slot recorded).beginSlot x
      else (s.tear x slot recorded).setMode x.window .seeking

/-- A forwarded beat's copy reaches the Ingest Parser (R4). -/
def State.ingestBeat (s : State) (address : Nat) (data : BeatData) (enables : Enables) : State :=
  (beatWrites s.path.windows address data enables).foldl State.ingestWrite s

/-! ## Changes of a window (R27) -/

/-- One slot record of a changed window is settled: an unplayed disposition is discarded, with no error (R27). -/
def State.settleSlot (s : State) (w : Fin 16) (slot : Nat) : State :=
  let r := s.slotRecord w slot
  match r.unplayed with
  | none => s
  | some d => s.discard w slot r.generation d

/-- Every slot record of a window is settled. The rule gives no order, which shows where the lost notices close insertions and
alerts: the model takes rising slot order (R27; DEDUCED, log 29). -/
def State.settleWindow (s : State) (w : Fin 16) : State :=
  (List.range s.slots.records[w].length).foldl (fun s slot => s.settleSlot w slot) s

/-! ## Played notices (R26) -/

/-- The answer to a played notice. -/
inductive PlayedAnswer
  | first
  | again
  | stale
  deriving DecidableEq, Repr

/-- The Slot Table answers a played notice for a take generation (R26). -/
def SlotRecord.played (r : SlotRecord) (g : Generation) : SlotRecord × PlayedAnswer :=
  if r.generation = g then
    match r.state with
    | .rest .taken => ({ r with state := .rest .played }, .first)
    | .filling .taken => ({ r with state := .filling .played }, .first)
    | .rest .played | .filling .played => (r, .again)
    | .rest .empty | .filling .empty => (r, .stale)
  else (r, .stale)

end Sys2Proof.Machine
end

