-- ==== Sys2Proof/Machine/Operands.lean ====
section
/-! DEFINITION. The operand forms: how a cue record and a configuration record are read from their bytes (12.3, 12.4,
R197), and the field checks and clamps of cues (R55). -/

namespace Sys2Proof.Machine

/-- The value of the `n`-byte field at an offset of a record, little-endian (R195). -/
def field (bytes : List Byte) (offset n : Nat) : Nat := leNat (slice bytes offset n)

/-- The field as a bit vector of width `w`; bits above the width are not read (R197). -/
def fieldBits (w : Nat) (bytes : List Byte) (offset n : Nat) : BitVec w := BitVec.ofNat w (field bytes offset n)

/-! ## Cue records (12.3) -/

def spliceBody (b : List Byte) : SpliceBody where
  service := byteAt b 0
  content := byteAt b 1
  endAtContent := (byteAt b 2).getLsbD 0
  cueId := fieldBits 32 b 4 4
  t := fieldBits 64 b 8 8
  w := fieldBits 32 b 16 4
  d := fieldBits 32 b 20 4

def alertBody (b : List Byte) : AlertBody where
  alertId := fieldBits 16 b 0 2
  groups := byteAt b 2
  priority := byteAt b 3
  mode := byteAt b 4
  content := byteAt b 5
  duration := fieldBits 16 b 6 2

def defineBody (b : List Byte) : DefineBody where
  content := byteAt b 0
  count := byteAt b 1
  stride := fieldBits 16 b 2 2
  base := fieldBits 40 b 4 5
  packets := fieldBits 32 b 12 4
  comps := fieldBits 128 b 16 16

/-- The tag of a cue record (12.3). -/
def cueTag (b : List Byte) : BitVec 32 := fieldBits 32 b 56 4

/-- Trailer byte 60, the cue kind. -/
def cueKindByte (b : List Byte) : Byte := byteAt b 60

/-- Byte 61, the record kind of a CONFIGURE cue and of a configuration record. -/
def recordKindByte (b : List Byte) : Byte := byteAt b 61

/-! ## Configuration records (12.4) -/

/-- A configuration record that is not END, by kind. -/
inductive ConfigRecord
  | window (r : WindowRec)
  | service (r : ServiceRec)
  | group (r : GroupRec)
  | arbiter (r : ArbiterRec)
  | limits (r : LimitsRec)
  | policy (r : PolicyRec)
  deriving DecidableEq, Repr

/-- The record kind codes of 12.4. -/
def ConfigRecord.code : ConfigRecord → Byte
  | .window _ => 1
  | .service _ => 2
  | .group _ => 3
  | .arbiter _ => 4
  | .limits _ => 5
  | .policy _ => 6

/-- The kind code of END (12.4). -/
def endCode : Byte := 0xFF

def windowRec (b : List Byte) : WindowRec where
  index := byteAt b 0
  kind := byteAt b 1
  stride := fieldBits 16 b 2 2
  base := fieldBits 40 b 4 5
  count := fieldBits 32 b 12 4
  rate := fieldBits 32 b 16 4
  source := byteAt b 20

/-- Component `i` of a SERVICE record: bits 15..13 of a PID are not read (R197). -/
def rawComponent (b : List Byte) (i : Nat) : RawComponent where
  source := fieldBits 13 b (4 + 6 * i) 2
  output := fieldBits 13 b (6 + 6 * i) 2
  role := byteAt b (8 + 6 * i)

def serviceRec (b : List Byte) : ServiceRec where
  index := byteAt b 0
  window := byteAt b 1
  count := byteAt b 2
  clock := byteAt b 3
  comps := (List.range (min (byteAt b 2).toNat 8)).map (rawComponent b)

def groupRec (b : List Byte) : GroupRec where
  index := byteAt b 0
  set := fieldBits 64 b 8 8

def arbiterRec (b : List Byte) : ArbiterRec where
  codes := fieldBits 128 b 0 16

def limitsRec (b : List Byte) : LimitsRec where
  flags := fieldBits 6 b 0 1
  silence := fieldBits 32 b 4 4
  tolerance := fieldBits 32 b 8 4
  close := fieldBits 32 b 12 4
  fetch := fieldBits 32 b 16 4
  holdoff := fieldBits 32 b 20 4
  threshold := fieldBits 32 b 24 4

/-- Entry `i` of a POLICY record. -/
def policyItemRec (b : List Byte) (i : Nat) : PolicyItemRec where
  kind := byteAt b (4 + 3 * i)
  masked := (byteAt b (5 + 3 * i)).getLsbD 0
  severity := byteAt b (6 + 3 * i)

def policyRec (b : List Byte) : PolicyRec where
  count := byteAt b 0
  items := if (byteAt b 0).toNat ≤ 13 then (List.range (byteAt b 0).toNat).map (policyItemRec b) else []

/-- The configuration record in the bytes of a record or a CONFIGURE cue; none where byte 61 holds END or a code that is
not in the table (R197). -/
def configRecord (b : List Byte) : Option ConfigRecord :=
  match (recordKindByte b).toNat with
  | 1 => some (.window (windowRec b))
  | 2 => some (.service (serviceRec b))
  | 3 => some (.group (groupRec b))
  | 4 => some (.arbiter (arbiterRec b))
  | 5 => some (.limits (limitsRec b))
  | 6 => some (.policy (policyRec b))
  | _ => none

/-! ## Codes of fields -/

/-- Role codes are 1 VIDEO, 2 AUDIO and 3 DATA (12.3). -/
def roleOf (code : Nat) : Option Role :=
  match code with
  | 1 => some .video
  | 2 => some .audio
  | 3 => some .data
  | _ => none

/-- Mode codes: 0 FULL, 1 AUDIO_ONLY (12.3). -/
def modeOf (code : Nat) : Option AlertMode :=
  match code with
  | 0 => some .full
  | 1 => some .audioOnly
  | _ => none

/-- Severity codes: 0 CONTAIN, 1 BYPASS (12.4). -/
def severityOf (code : Nat) : Option Severity :=
  match code with
  | 0 => some .contain
  | 1 => some .bypass
  | _ => none

/-- The strides of slots and of content packets (R2, R73). -/
def strideValid (stride : Nat) : Bool := stride == 188 || stride == 192 || stride == 256

/-! ## Field checks and clamps of cues (R54, R55) -/

/-- A service index within its table. -/
def serviceIndex (b : Byte) : Option (Fin 64) := if h : b.toNat < 64 then some ⟨b.toNat, h⟩ else none

/-- A content index within its table. -/
def contentIndex (b : Byte) : Option (Fin 128) := if h : b.toNat < 128 then some ⟨b.toNat, h⟩ else none

/-- The largest cue tolerance W and insertion duration D; larger values are clamped to them (R55). -/
def toleranceLimit : Nat := 2 ^ 24 - 1
def durationLimit : Nat := 2 ^ 31

/-- The checked and clamped fields of a splice cue with its service; none where a field is out of its form. T is checked
in a time cue and not read in a mark cue. -/
def checkSplice (mark : Bool) (ref : CueRef) (b : SpliceBody) : Option (Fin 64 × SpliceCue) :=
  match serviceIndex b.service, contentIndex b.content with
  | some service, some content =>
    if mark || decide (b.t.toNat < 2 ^ 33) then
      some (service,
        { ref := ref
          mark := mark
          cueId := b.cueId
          content := content
          t := if mark then 0 else b.t.setWidth 33
          w := min b.w.toNat toleranceLimit
          d := min b.d.toNat durationLimit
          endAtContent := b.endAtContent })
    else none
  | _, _ => none

/-- The checked fields of an ALERT_START cue. -/
structure AlertRequest where
  alertId : BitVec 16
  groups : Byte
  priority : Fin 4
  mode : AlertMode
  content : Fin 128
  duration : BitVec 16
  deriving DecidableEq, Repr

def checkAlert (b : AlertBody) : Option AlertRequest :=
  match modeOf b.mode.toNat, contentIndex b.content with
  | some mode, some content =>
    if h : b.priority.toNat < 4 then
      if b.groups = 0 then none
      else some ⟨b.alertId, b.groups, ⟨b.priority.toNat, h⟩, mode, content, b.duration⟩
    else none
  | _, _ => none

/-- Component `i` of a CONTENT_DEFINE body: PID in bits 12..0, role in bits 14..13 (12.3); none where the role or the PID
is out of its form. -/
def defineComponent (b : DefineBody) (i : Nat) : Option ContentComponent :=
  match roleOf (b.comps.extractLsb' (16 * i + 13) 2).toNat with
  | some role =>
    let pid : Pid := b.comps.extractLsb' (16 * i) 13
    if pid = nullPid then none else some ⟨pid, role⟩
  | none => none

/-- The checked definition of a CONTENT_DEFINE cue with its content index (R55). -/
def checkDefine (b : DefineBody) : Option (Fin 128 × ContentDef) :=
  match contentIndex b.content with
  | none => none
  | some content =>
    let stride := b.stride.toNat
    let packets := b.packets.toNat
    let base := b.base.toNat
    let count := b.count.toNat
    if strideValid stride && decide (1 ≤ packets ∧ packets ≤ 16777215) && base % 4 == 0
        && decide (base + packets * stride ≤ addressLimit) && decide (1 ≤ count ∧ count ≤ 8) then
      match (List.range count).mapM (defineComponent b) with
      | some comps => some (content, ⟨base, packets, stride, comps⟩)
      | none => none
    else none

end Sys2Proof.Machine
end

