-- ==== Sys2Proof/Machine/Configure.lean ====
section
/-! DEFINITION. How the owners check and apply configuration records (R20 to R22, R117, R157, R158, R161, R179, R194). Each
answers the state and DONE or the refusal. -/

namespace Sys2Proof.Machine

/-! ## WINDOW (R156 to R158) -/

/-- Holds a value inside a range. -/
def clampTo (low high v : Nat) : Nat := max low (min high v)

/-- The entry a WINDOW record asks for; none where one of its fields is out of its form (R157, check 1). A source index past
the table and a VIEW's own size are checked apart (DEDUCED, log 20). -/
def requestedEntry (r : WindowRec) (source : Fin 16) : Option WindowEntry :=
  let base := r.base.toNat
  let count := r.count.toNat
  let stride := r.stride.toNat
  match r.kind.toNat with
  | 0 => some .empty
  | 1 =>
    if base % 64 = 0 ∧ 64 ≤ count ∧ count ≤ 4096 ∧ strideValid stride = true ∧ base + count * stride ≤ addressLimit then
      some (.ingest base count stride (clampTo Config.rateLow Config.rateHigh r.rate.toNat))
    else none
  | 2 => if base % 64 = 0 ∧ r.source ≠ r.index then some (.view base source) else none
  | 3 =>
    if base % 64 = 0 ∧ 16 ≤ count ∧ count ≤ 256 ∧ base + count * 64 ≤ addressLimit then some (.cue base count) else none
  | 4 =>
    if base % 64 = 0 ∧ 64 ≤ count ∧ count ≤ 65536 ∧ base + 64 + count * 128 ≤ addressLimit then
      some (.report base count)
    else none
  | _ => none

/-- The kind of a window entry, by its code (12.4). -/
def WindowEntry.kindCode : WindowEntry → Nat
  | .empty => 0
  | .ingest _ _ _ _ => 1
  | .view _ _ => 2
  | .cue _ _ => 3
  | .report _ _ => 4

/-- The source window of a VIEW. -/
def WindowEntry.source? : WindowEntry → Option (Fin 16)
  | .view _ source => some source
  | .empty | .ingest _ _ _ _ | .cue _ _ | .report _ _ => none

/-- Two ranges share at least one byte. -/
def shareByte (b1 n1 b2 n2 : Nat) : Bool :=
  decide (0 < n1 ∧ 0 < n2 ∧ b1 < b2 + n2 ∧ b2 < b1 + n1)

/-- The conditions of R156 on a table, with the regions of the contents that are not FREE. -/
def tableValid (t : Vector WindowEntry 16) (contents : List ContentDef) : Bool :=
  let all := List.finRange 16
  (all.all fun i => all.all fun j =>
      i == j || !shareByte t[i].base (windowSize t t[i]) t[j].base (windowSize t t[j]))
    && decide ((all.countP fun i => t[i].kindCode == 3) ≤ 1)
    && decide ((all.countP fun i => t[i].kindCode == 4) ≤ 1)
    && (all.all fun i => decide ((all.countP fun j => t[j].source? == some i) ≤ 1))
    && decide ((all.map fun i => slotCount t[i]).sum ≤ Config.slotTotal)
    && (all.all fun i => contents.all fun d =>
      !shareByte t[i].base (windowSize t t[i]) d.base (d.packets * d.stride))

/-- The definitions of the contents that are not FREE (R156). -/
def State.definedContents (s : State) : List ContentDef := s.content.entries.toList.filterMap ContentEntry.definition

/-- Some service is defined on a window (R157). -/
def State.servedWindow (s : State) (w : Fin 16) : Bool :=
  s.ingest.services.toList.any fun d =>
    match d with
    | some d => d.window == w
    | none => false

/-- The entry is a VIEW whose source window has a service defined on it (R157, check 4). -/
def State.servedView (s : State) (e : WindowEntry) : Bool :=
  match e.source? with
  | some w => s.servedWindow w
  | none => false

/-- The entry's window overlaps the boot block while it is snooped (R157, check 6). -/
def State.onBootBlock (s : State) (t : Vector WindowEntry 16) (i : Fin 16) : Bool :=
  s.loader.boot.isSome && shareByte t[i].base (windowSize t t[i]) 0 0x4000

/-- The checks of R157 after its first: the refusal, if there is one. -/
def State.windowRefusal (s : State) (i : Fin 16) (e : WindowEntry) (sourceKnown : Bool) : Option CueOutcome :=
  let old := s.path.windows[i]
  let table := s.path.windows.set i e
  if sourceKnown && decide (e.base + windowSize table e > addressLimit) then some .refusedMalformed
  else if e.kindCode == 2 && !(sourceKnown && (e.source?.any fun w => table[w].kindCode == 1)) then some .undefined
  else if old.kindCode == 1 && s.servedWindow i then some .inUse
  else if s.servedView old || s.servedView e then some .inUse
  else if !tableValid table s.definedContents then some .conflict
  else if s.onBootBlock table i then some .conflict
  else none

/-- The effects on the owners of what stood at an entry: the row of the old kind (R158). `stays` holds where the new entry is
INGEST too. -/
def State.dropWindow (s : State) (i : Fin 16) (old : WindowEntry) (stays : Bool) : State :=
  match old with
  | .empty => s
  | .ingest _ _ _ _ =>
    let s := (s.settleWindow i).freeStagingOf i
    let s := s.onSlots fun t => { t with records := t.records.set i [] }
    let s := s.onIngest fun u => { u with assembly := u.assembly.set i none }
    if stays then s
    else s.onPath fun p =>
      { p with windows := p.windows.map fun e => if e.source? = some i then .empty else e }
  | .view _ source => s.freeStagingOf source
  | .cue _ _ => s.onCue fun u => { u with ring := none }
  | .report _ _ => s.onReport ReportUnit.dropRing

/-- The effects on the owners of what is defined at an entry: the row of the new kind (R158). -/
def State.setUpWindow (s : State) (i : Fin 16) (e : WindowEntry) : State :=
  match e with
  | .empty | .view _ _ => s
  | .ingest _ slots _ _ =>
    (s.onSlots fun t => { t with records := t.records.set i (List.replicate slots {}) }).onIngest fun u =>
      { u with assembly := u.assembly.set i (some {}) }
  | .cue _ slots =>
    (s.onCue fun u => { u with ring := some ⟨[], List.replicate slots false, 0, 0⟩ }).handCueTaken 0
  | .report _ _ => s.onReport ReportUnit.defineRing

/-- An accepted WINDOW record (R158). -/
def State.replaceWindow (s : State) (i : Fin 16) (e : WindowEntry) : State :=
  let old := s.path.windows[i]
  let s := s.onPath fun p => { p with windows := p.windows.set i e }
  (s.dropWindow i old (e.kindCode == 1)).setUpWindow i e

/-- A WINDOW record is handled (R157, R158). -/
def State.applyWindow (s : State) (r : WindowRec) : State × CueOutcome :=
  if h : r.index.toNat < 16 then
    let i : Fin 16 := ⟨r.index.toNat, h⟩
    match requestedEntry r (Fin.ofNat 16 r.source.toNat) with
    | none => (s, .refusedMalformed)
    | some e =>
      match s.windowRefusal i e (decide (r.source.toNat < 16)) with
      | some refusal => (s, refusal)
      | none => (s.replaceWindow i e, .done)
  else (s, .refusedMalformed)

/-! ## SERVICE (R20 to R22) -/

/-- The components of a SERVICE record, where every role is one of the three (R20). -/
def serviceComponents (comps : List RawComponent) : Option (List Component) :=
  comps.mapM fun c => (roleOf c.role.toNat).map fun role => ⟨c.source, c.output, role⟩

/-- The components of all the services of a window, but for one service. -/
def State.otherComponents (s : State) (w : Fin 16) (except : Fin 64) : List Component :=
  (List.finRange 64).flatMap fun i =>
    match s.ingest.services[i] with
    | some d => if d.window = w ∧ i ≠ except then d.comps else []
    | none => []

/-- The PID rules of a window (R21). -/
def pidRules (comps : List Component) : Bool :=
  (comps.map Component.source).dedup.length == comps.length
    && (comps.map Component.output).dedup.length == comps.length
    && ((List.range comps.length).all fun i => (List.range comps.length).all fun j =>
      i == j || (comps[i]?.map Component.output) != (comps[j]?.map Component.source))
    && (comps.all fun c => c.source != nullPid && c.output != nullPid)

/-- The service is defined and not at rest (R20, check 3). -/
def State.serviceBusy (s : State) (i : Fin 64) : Bool :=
  s.ingest.services[i].isSome &&
    (s.splice.services[i].state != .idle || s.alert.overlays[i] != .none || !s.cue.queues[i].isEmpty)

/-- The output continuity states at a service's definition: a component whose output PID was one of the old definition keeps
that PID's last output CC (R91). -/
def outputStart (old : Option Service) (out : List OutputCC) (comps : List Component) : List OutputCC :=
  comps.map fun c =>
    match old with
    | none => {}
    | some d =>
      match d.comps.findIdx? (·.output == c.output) with
      | some k => { last := (out.getD k {}).last }
      | none => {}

/-- The nominal rate of a window (R30). -/
def rateOf : WindowEntry → Nat
  | .ingest _ _ _ rate => rate
  | .empty | .view _ _ | .cue _ _ | .report _ _ => Config.rateLow

/-- The service is defined, or its definition replaced (R22, R30, R91). -/
def State.defineService (s : State) (i : Fin 64) (d : Service) : State :=
  let out := outputStart s.ingest.services[i] s.splice.services[i].outputCC d.comps
  let s := s.onIngest fun u =>
    { u with
      services := u.services.set i (some d)
      inputCC := u.inputCC.set i (List.replicate d.comps.length {}) }
  let s := s.setClock i (some (Clock.start (rateOf s.path.windows[d.window])))
  s.onFields i fun _ => { outputCC := out }

/-- The service is undefined (R22, R30, R91). -/
def State.undefineService (s : State) (i : Fin 64) : State :=
  let s := s.onIngest fun u => { u with services := u.services.set i none, inputCC := u.inputCC.set i [] }
  (s.setClock i none).onFields i fun _ => {}

/-- The window that a SERVICE record names, where it is a defined INGEST window (R20, check 2; an index over 15 names none,
DEDUCED, log 22). -/
def State.ingestWindow (s : State) (w : Byte) : Option (Fin 16) :=
  if h : w.toNat < 16 then
    let i : Fin 16 := ⟨w.toNat, h⟩
    if s.path.windows[i].kindCode = 1 then some i else none
  else none

/-- A SERVICE record is handled (R20 to R22). -/
def State.applyService (s : State) (r : ServiceRec) : State × CueOutcome :=
  match serviceIndex r.index, serviceComponents r.comps with
  | some i, some comps =>
    let count := r.count.toNat
    if 8 < count ∨ (1 ≤ count ∧ count ≤ r.clock.toNat) then (s, .refusedMalformed)
    else if count = 0 then
      if s.serviceBusy i then (s, .inUse) else (s.undefineService i, .done)
    else
      match s.ingestWindow r.window with
      | none => (s, .undefined)
      | some w =>
        if s.serviceBusy i then (s, .inUse)
        else if !pidRules (comps ++ s.otherComponents w i) then (s, .conflict)
        else (s.defineService i ⟨w, r.clock.toNat, comps⟩, .done)
  | _, _ => (s, .refusedMalformed)

/-! ## GROUP, ARBITER, LIMITS, POLICY -/

/-- A GROUP record is handled; `startup`: it was loaded at start-up and writes the active map too (R117). -/
def State.applyGroup (s : State) (startup : Bool) (r : GroupRec) : State × CueOutcome :=
  if h : r.index.toNat < 8 then
    let i : Fin 8 := ⟨r.index.toNat, h⟩
    (s.onAlert fun u =>
      { u with
        stagedMaps := u.stagedMaps.set i r.set
        activeMaps := if startup then u.activeMaps.set i r.set else u.activeMaps }, .done)
  else (s, .refusedMalformed)

/-- The phase table of an ARBITER record (R161). -/
def phaseTable (r : ArbiterRec) : Vector Byte 16 := Vector.ofFn fun i => r.codes.extractLsb' (8 * i.val) 8

/-- An ARBITER record is handled (R161). -/
def State.applyArbiter (s : State) (startup : Bool) (r : ArbiterRec) : State × CueOutcome :=
  (s.onPath fun p =>
    { p with stagedTable := phaseTable r, activeTable := if startup then phaseTable r else p.activeTable }, .done)

/-- A LIMITS field after a record: its value clamped into its range where its set flag is set (R194). -/
def limitField (flag : Bool) (range : Config.Range) (v : BitVec 32) (old : Nat) : Nat :=
  if flag then clampTo range.low range.high v.toNat else old

/-- The LIMITS fields after a record (R194). -/
def Limits.apply (l : Limits) (r : LimitsRec) : Limits where
  silence := limitField (r.flags.getLsbD 0) Config.silenceRange r.silence l.silence
  tolerance := limitField (r.flags.getLsbD 1) Config.toleranceRange r.tolerance l.tolerance
  close := limitField (r.flags.getLsbD 2) Config.closeRange r.close l.close
  fetch := limitField (r.flags.getLsbD 3) Config.fetchRange r.fetch l.fetch
  holdoff := limitField (r.flags.getLsbD 4) Config.holdoffRange r.holdoff l.holdoff
  threshold := limitField (r.flags.getLsbD 5) Config.thresholdRange r.threshold l.threshold

/-- A LIMITS record is handled; a changed silence timeout re-arms the silence expiries (R194, R40; DEDUCED, log 38). -/
def State.applyLimits (s : State) (r : LimitsRec) : State × CueOutcome :=
  let changed := (s.limits.apply r).silence != s.limits.silence
  let s := s.onLimits fun l => l.apply r
  (if changed then s.rearmAll else s, .done)

/-- The policy entry of a POLICY record, where its kind and its severity are of the lists (R179). -/
def policyEntry (r : PolicyItemRec) : Option (ErrorKind × PolicyItem) :=
  match errorOfCode r.kind.toNat, severityOf r.severity.toNat with
  | some k, some severity => some (k, ⟨r.masked, severity⟩)
  | _, _ => none

/-- A POLICY record is handled (R179). -/
def State.applyPolicy (s : State) (r : PolicyRec) : State × CueOutcome :=
  if r.count.toNat = 0 ∨ 13 < r.count.toNat then (s, .refusedMalformed)
  else
    match r.items.mapM policyEntry with
    | none => (s, .refusedMalformed)
    | some entries =>
      (s.onFault fun u =>
        { u with policy := entries.foldl (fun p e => p.set (errorNumber e.1) e.2) u.policy }, .done)

/-- A configuration record is handed to its owner (R67, R192). -/
def State.configure (s : State) (startup : Bool) (r : ConfigRecord) : State × CueOutcome :=
  match r with
  | .window r => s.applyWindow r
  | .service r => s.applyService r
  | .group r => s.applyGroup startup r
  | .arbiter r => s.applyArbiter startup r
  | .limits r => s.applyLimits r
  | .policy r => s.applyPolicy r

end Sys2Proof.Machine
end

