-- ==== Sys2Proof/Machine/Cues.lean ====
section
/-! DEFINITION. How a taken cue is checked and handled, kind by kind (03, 3.2 to 3.6), and how the cue ring hands it over (3.1).
The handling of a kind is the same whether its command arrives by itself or within a processor write beat (DEDUCED, log 3). -/

namespace Sys2Proof.Machine

/-! ## Answers (R54, R56) -/

/-- The Cue Unit answers a cue. -/
def State.answerCue (s : State) (ref : CueRef) (kind : Byte) (service : Option Byte) (cueId : Option (BitVec 32))
    (outcome : CueOutcome) (detail : Option Byte) : State :=
  s.produce (cueAnswer ref kind service cueId outcome detail)

/-- The part is in BYPASS (R54, check 2). -/
def State.bypassed (s : State) : Bool := s.fault.part == .bypass

/-- The service that a cue names, where it is within its table and defined (R54, check 5). -/
def State.definedService (s : State) (i : Fin 64) : Bool := s.ingest.services[i].isSome

/-- The content entry is FREE (R55). -/
def State.contentFree (s : State) (c : Fin 128) : Bool := s.contentState c == .free

/-! ## Splice cues (R58) -/

/-- A checked splice cue is appended, and armed where it is the head; or refused QUEUE_FULL (R58). -/
def State.enqueue (s : State) (i : Fin 64) (c : SpliceCue) : State :=
  let q := s.cue.queues[i]
  if Config.queueDepth ≤ q.length ∨ Config.queueTotal ≤ s.queuedCues then s.produce (spliceAnswer i c .queueFull none)
  else
    let s := s.onQueue i fun q => q ++ [⟨c, .queued⟩]
    if q.isEmpty then s.arm i else s

/-- A splice cue is checked and handled (R54, R55, R58). -/
def State.handleSplice (s : State) (mark : Bool) (ref : CueRef) (b : SpliceBody) : State :=
  let answer (o : CueOutcome) : State := s.answerCue ref (if mark then 2 else 1) (some b.service) (some b.cueId) o none
  if s.bypassed then answer .refusedBypass
  else
    match checkSplice mark ref b with
    | none => answer .refusedMalformed
    | some (i, c) =>
      if !s.definedService i || s.contentFree c.content then answer .undefined else s.enqueue i c

/-! ## Cues that act on queues and insertions (R62 to R64) -/

/-- The entry at position `k` leaves the queue CANCELLED; where it was the head, the next is armed (R62). -/
def State.cancelEntry (s : State) (i : Fin 64) (k : Nat) (e : QueueEntry) : State :=
  let s := ((s.dropEntry i e).onQueue i fun q => q.eraseIdx k).produce (spliceAnswer i e.cue .cancelled none)
  if k = 0 then s.arm i else s

def State.handleCancel (s : State) (ref : CueRef) (service : Byte) (cueId : BitVec 32) : State :=
  let answer (s : State) (o : CueOutcome) : State := s.answerCue ref 3 (some service) (some cueId) o none
  if s.bypassed then answer s .refusedBypass
  else
    match serviceIndex service with
    | none => answer s .refusedMalformed
    | some i =>
      if !s.definedService i then answer s .undefined
      else
        match s.cue.queues[i].findIdx? (·.cue.cueId == cueId) with
        | none => answer s .notFound
        | some k =>
          match s.cue.queues[i][k]? with
          | none => answer s .notFound
          | some e => answer (s.cancelEntry i k e) .done

/-- A FLUSH_SERVICE (R63). R63 gives the number of entries removed as the detail of its DONE; that the answer to a refused one has
no detail, rather than the number 0, is the model's choice (R56; DESIGN CHOICE, log 55). -/
def State.handleFlush (s : State) (ref : CueRef) (service : Byte) : State :=
  let answer (s : State) (o : CueOutcome) (detail : Option Byte) : State :=
    s.answerCue ref 4 (some service) none o detail
  if s.bypassed then answer s .refusedBypass none
  else
    match serviceIndex service with
    | none => answer s .refusedMalformed none
    | some i =>
      if !s.definedService i then answer s .undefined none
      else
        let n := s.cue.queues[i].length
        answer (State.producing (s.flushQueue i)) .done (some (BitVec.ofNat 8 n))

/-- A return request (R64, R105). -/
def State.returnRequest (s : State) (i : Fin 64) : State :=
  let f := s.splice.services[i]
  match f.state, f.current with
  | .inserting, some r | .exhausted, some r => s.enterReturning i r .returnNow
  | _, _ => s

def State.handleReturnNow (s : State) (ref : CueRef) (service : Byte) : State :=
  let answer (s : State) (o : CueOutcome) : State := s.answerCue ref 5 (some service) none o none
  if s.bypassed then answer s .refusedBypass
  else
    match serviceIndex service with
    | none => answer s .refusedMalformed
    | some i =>
      if !s.definedService i then answer s .undefined
      else if s.splice.services[i].current.isNone then answer s .notFound
      else answer (s.returnRequest i) .done

/-! ## Alerts (R119, R120, R122, R129) -/

/-- The content suits the mode: for AUDIO_ONLY every component is AUDIO (R119, check 2). -/
def State.suits (s : State) (r : AlertRequest) : Bool :=
  match r.mode, s.content.entries[r.content].definition with
  | .full, _ => true
  | .audioOnly, some d => d.comps.all (·.role == .audio)
  | .audioOnly, none => true

/-- The captured set: the union of the active maps that the group mask names, restricted to the services defined (R120). -/
def State.captured (s : State) (groups : Byte) : ServiceSet :=
  let union := (List.finRange 8).foldl
    (fun (v : ServiceSet) g => if groups.getLsbD g.val then v ||| s.alert.activeMaps[g] else v) 0
  union &&& BitVec.ofNat 64 (serviceSet fun i => s.ingest.services[i].isSome)

/-- The entry as an accepted ALERT_START makes it (R120, steps 1 to 3). -/
def startEntry (s : State) (old : AlertEntry) (ref : CueRef) (r : AlertRequest) : AlertEntry where
  state := .active
  generation := old.generation
  alertId := r.alertId
  startOrder := s.alert.startOrder
  priority := r.priority
  mode := r.mode
  content := r.content
  duration := r.duration
  ref := ref
  startTime := s.clock
  captured := s.captured r.groups
  durationExpiry :=
    if r.duration = 0 then none else some (after s.clock (r.duration.toNat * Config.ticksPerSecond))

/-- The captured services are offered to the alert in rising order; the answer is the taken set (R120, R121). -/
def State.offerAll (s : State) (i : Fin 4) (captured : ServiceSet) : State × ServiceSet :=
  (List.finRange 64).foldl
    (fun p service =>
      if captured.getLsbD service.val then
        let (s, took) := p.1.offer service i
        (s, if took then p.2 ||| BitVec.twoPow 64 service.val else p.2)
      else p) (s, 0)

/-- An accepted ALERT_START takes a FREE entry (R120, R122); room and hold have been granted. -/
def State.startAlert (s : State) (i : Fin 4) (ref : CueRef) (r : AlertRequest) : State :=
  let s' := (s.onEntry i fun old => startEntry s old ref r).onAlert fun u => { u with startOrder := u.startOrder + 1 }
  let (s, taken) := s'.offerAll i (s.captured r.groups)
  s.produce (.alertStarted ⟨i, s.alert.entries[i], taken⟩)

/-- The Alert Unit's checks and acceptance (R119, R120). -/
def State.requestAlert (s : State) (ref : CueRef) (r : AlertRequest) : State × Option CueOutcome :=
  match lowest s.alert.entries (·.state == .free) with
  | none => (s, some .tableFull)
  | some i =>
    if !s.suits r then (s, some .content)
    else if !s.alertRoom then (s, some .reportFull)
    else if s.contentState r.content != .ready then (s.reserve.unreserve, some .content)
    else ((s.reserve.hold r.content).startAlert i ref r, none)

def State.handleAlertStart (s : State) (ref : CueRef) (b : AlertBody) : State :=
  let answer (s : State) (o : CueOutcome) : State := s.answerCue ref 6 none none o none
  if s.bypassed then answer s .refusedBypass
  else
    match checkAlert b with
    | none => answer s .refusedMalformed
    | some r =>
      if s.contentFree r.content then answer s .undefined
      else
        match s.requestAlert ref r with
        | (s, some refusal) => answer s refusal
        | (s, none) => s

/-- The ACTIVE entries that hold an alert id (R129). -/
def State.activeWith (s : State) (alertId : BitVec 16) : List (Fin 4) :=
  (List.finRange 4).filter fun i => s.alert.entries[i].state == .active && s.alert.entries[i].alertId == alertId

def State.handleAlertEnd (s : State) (ref : CueRef) (alertId : BitVec 16) : State :=
  let answer (s : State) (o : CueOutcome) : State := s.answerCue ref 7 none none o none
  if s.bypassed then answer s .refusedBypass
  else
    match s.activeWith alertId with
    | [] => answer s .notFound
    | i :: rest => answer ((i :: rest).foldl (fun s i => s.endAlert i .ended) s) .done

/-! ## Content (R75, R76) -/

/-- The region of a definition shares a byte with some window (R75, check 2). -/
def State.regionInWindow (s : State) (d : ContentDef) : Bool :=
  s.path.windows.toList.any fun e =>
    shareByte d.base (d.packets * d.stride) e.base (windowSize s.path.windows e)

/-- The refusal of a definition, if there is one (R75). -/
def State.defineRefusal (s : State) (c : Fin 128) (d : ContentDef) : Option CueOutcome :=
  if 0 < s.content.entries[c].useCount then some .inUse
  else if s.regionInWindow d then some .conflict
  else if (d.comps.map ContentComponent.pid).dedup.length ≠ d.comps.length then some .conflict
  else if s.contentState c ≠ .queued ∧ Config.scanDepth ≤ s.content.scanQueue.length then some .queueFull
  else none

/-- An accepted CONTENT_DEFINE: the definition replaced, the scan results cleared, the entry QUEUED (R75); an idle scanner
starts (R77). -/
def State.defineContent (s : State) (c : Fin 128) (d : ContentDef) : State :=
  let s := s.onContent fun u =>
    { u with
      scanQueue := if u.entries[c].state = .queued then u.scanQueue else u.scanQueue ++ [c]
      entries := u.entries.set c { state := .queued, definition := some d } }
  s.startScan

def State.handleContentDefine (s : State) (ref : CueRef) (b : DefineBody) : State :=
  let answer (s : State) (o : CueOutcome) : State := s.answerCue ref 8 none none o none
  if s.bypassed then answer s .refusedBypass
  else
    match checkDefine b with
    | none => answer s .refusedMalformed
    | some (c, d) =>
      match s.defineRefusal c d with
      | some refusal => answer s refusal
      | none => answer (s.defineContent c d) .done

/-- An accepted CONTENT_RELEASE: the entry becomes FREE and its content notice is sent (R76, R60). -/
def State.releaseContent (s : State) (c : Fin 128) : State :=
  let s := s.onContent fun u =>
    { u with scanQueue := u.scanQueue.filter (· != c), entries := u.entries.set c {} }
  s.contentNotice c

def State.handleContentRelease (s : State) (ref : CueRef) (content : Byte) : State :=
  let answer (s : State) (o : CueOutcome) : State := s.answerCue ref 9 none none o none
  if s.bypassed then answer s .refusedBypass
  else
    match contentIndex content with
    | none => answer s .refusedMalformed
    | some c =>
      if s.contentFree c then answer s .undefined
      else if 0 < s.content.entries[c].useCount then answer s .inUse
      else answer (s.releaseContent c) .done

/-! ## CONFIGURE (R67) and APPLY_STAGED (R68) -/

def State.handleConfigure (s : State) (ref : CueRef) (r : ConfigRecord) : State :=
  let (s, outcome) := s.configure false r
  s.answerCue ref 10 none none outcome (some r.code)

/-- Every staged group map is copied to its active map (R118). -/
def State.applyGroups (s : State) : State := s.onAlert fun u => { u with activeMaps := u.stagedMaps }

/-- The kind code of APPLY_STAGED (12.3). -/
def applyCode : Byte := 11

/-- The cue becomes the pending apply; an earlier one is answered REPLACED (R68), its pending-wrap flag clear (DEDUCED,
log 28). -/
def State.pendApply (s : State) (ref : CueRef) : State :=
  let s :=
    match s.cue.pendingApply with
    | some old => s.answerCue old applyCode none none .replaced none
    | none => s
  s.onCue fun u => { u with pendingApply := some ref }

def State.handleApplyStaged (s : State) (ref : CueRef) (groups arbiter : Bool) : State :=
  let answer (s : State) (o : CueOutcome) : State := s.answerCue ref applyCode none none o none
  if s.bypassed then answer s .refusedBypass
  else if !groups && !arbiter then answer s .refusedMalformed
  else
    let s := if groups then s.applyGroups else s
    if arbiter then s.pendApply ref else answer s .done

/-! ## Cues that change the part state (R69 to R71) -/

def State.handleAckError (s : State) (ref : CueRef) : State :=
  let answer (s : State) (o : CueOutcome) : State := s.answerCue ref 12 none none o none
  if s.fault.capture.isSome then answer (s.onFault fun u => { u with capture := none }) .done else answer s .notFound

def State.handleBypass (s : State) (ref : CueRef) : State :=
  if s.bypassed then s.answerCue ref 13 none none .refusedBypass none
  else (s.onFault fun u => u.setLatch .cue).enterBypass [cueAnswer ref 13 none none .done none]

/-- The outcome of a RESUME (R71; a part that TRANSPARENT holds: DEDUCED, log 21). -/
def State.resumeOutcome (s : State) : CueOutcome :=
  match s.fault.part with
  | .bypass =>
    if s.fault.pinHold then .pinHeld
    else if s.fault.latch = some .transparent then (if s.report.halted then .done else .notFound)
    else .done
  | .operating | .starting => if s.report.halted then .done else .notFound

/-- RESUME clears a latch whose cause is ERROR, CUE or CONFIG (R183). -/
def FaultUnit.resumeLatch (u : FaultUnit) : FaultUnit :=
  match u.latch with
  | some .transparent => u
  | some .error | some .cue | some .config | none => { u with latch := none }

def State.handleResume (s : State) (ref : CueRef) : State :=
  let outcome := s.resumeOutcome
  let s := (s.onReport fun u => { u with halted := false }).onFault FaultUnit.resumeLatch
  s.returnIfClear.answerCue ref 14 none none outcome none

/-! ## Taking a cue (R52, R197) -/

/-- A taken cue is checked and handled by its kind (R54); the bytes are those of its ring slot. -/
def State.handleCue (s : State) (ref : CueRef) (b : List Byte) : State :=
  match (cueKindByte b).toNat with
  | 1 => s.handleSplice false ref (spliceBody b)
  | 2 => s.handleSplice true ref (spliceBody b)
  | 3 => s.handleCancel ref (byteAt b 0) (fieldBits 32 b 4 4)
  | 4 => s.handleFlush ref (byteAt b 0)
  | 5 => s.handleReturnNow ref (byteAt b 0)
  | 6 => s.handleAlertStart ref (alertBody b)
  | 7 => s.handleAlertEnd ref (fieldBits 16 b 0 2)
  | 8 => s.handleContentDefine ref (defineBody b)
  | 9 => s.handleContentRelease ref (byteAt b 0)
  | 10 =>
    match configRecord b with
    | some r => s.handleConfigure ref r
    | none => s.answerCue ref 10 none none .refusedMalformed (some (recordKindByte b))
  | 11 => s.handleApplyStaged ref ((byteAt b 0).getLsbD 0) ((byteAt b 0).getLsbD 1)
  | 12 => s.handleAckError ref
  | 13 => s.handleBypass ref
  | 14 => s.handleResume ref
  | _ => s.answerCue ref (cueKindByte b) none none .refusedMalformed none

/-- The cue in the head slot is taken (R52): read, its flag cleared, numbered, counted, the head moved, then handled. -/
def State.takeCue (s : State) (ring : CueRing) : State :=
  let b := ring.shadow.readBytes (64 * ring.head) 64
  let ref : CueRef := ⟨ring.taken, ring.head, cueTag b⟩
  let next : CueRing :=
    { ring with
      committed := ring.committed.set ring.head false
      head := (ring.head + 1) % ring.committed.length
      taken := ring.taken + 1 }
  ((s.onCue fun u => { u with ring := some next }).handCueTaken next.taken).handleCue ref b

/-- Cues are taken while the head slot is committed and the part is OPERATING or in BYPASS (R52). `fuel` bounds the slots. -/
def State.takeCues : Nat → State → State
  | 0, s => s
  | fuel + 1, s =>
    match s.cue.ring with
    | none => s
    | some ring =>
      if s.fault.part != .starting && ring.committed.getD ring.head false then State.takeCues fuel (s.takeCue ring)
      else s

/-- The largest number of cues that can be committed at once (R49). -/
def cueFuel : Nat := 256

/-- A copy of a forwarded beat reaches the shadow of the cue ring at an offset from its base; a beat that enables all of a
slot's bytes 56..63 commits the slot (R51). -/
def CueRing.write (r : CueRing) (offset : Nat) (data : BeatData) (enables : Enables) : CueRing :=
  { r with
    shadow := r.shadow.writeLanes offset data (enabledLanes enables)
    committed :=
      if offset % 64 = 48 ∧ enables.extractLsb' 8 8 = 0xFF then r.committed.set (offset / 64) true else r.committed }

/-- The CUE window that holds an address: its base (R51). -/
def State.cueBase (s : State) (a : Nat) : Option Nat :=
  match windowAt s.path.windows a with
  | none => none
  | some w =>
    match s.path.windows[w] with
    | .cue base _ => some base
    | .empty | .ingest _ _ _ _ | .view _ _ | .report _ _ => none

/-- A forwarded beat's copy reaches the Cue Unit, which then takes what is committed at its head (R51, R52). -/
def State.cueBeat (s : State) (address : Nat) (data : BeatData) (enables : Enables) : State :=
  match s.cueBase address with
  | none => s
  | some base =>
    (s.onCue fun u => { u with ring := u.ring.map fun r => r.write (address - base) data enables }).takeCues cueFuel

end Sys2Proof.Machine
end

