-- ==== Sys2Proof/Machine/Outcome.lean ====
section
/-! DEFINITION. The shapes of the commands' outcomes: a command that occurs, one that does not, one that breaks the protocol of
the ports. -/

namespace Sys2Proof.Machine

/-- What a step answers. -/
abbrev Result := Host.Outcome State Fault Refusal

/-- The command's effect and what ends every command. -/
def State.did (s : State) : Result := .next s.epilogue

/-- A command that has its effect where the part is out of reset and its event can occur, and none otherwise (DESIGN CHOICE, log 4). -/
def State.when (s : State) (occurs : Bool) (f : State → State) : Result :=
  if !s.resetHeld && occurs then (f s).did else .next s

/-- A command that has no effect in reset or where its event cannot occur; where it occurs its operands must fit the port
(DESIGN CHOICE, log 6). -/
def State.onPort (s : State) (occurs fits : Bool) (f : State → State) : Result :=
  if !s.resetHeld && occurs then (if fits then (f s).did else .refused .portProtocol) else .next s

end Sys2Proof.Machine
end

