-- ==== Sys2Proof/Machine/CueCommands.lean ====
section
/-! DEFINITION. The commands of taken cues (03, 06, 04): each is the handling of its kind, outside STARTING (R52, DEDUCED, log 3). -/

namespace Sys2Proof.Machine

/-- Cues are taken in OPERATING and in BYPASS (R52). -/
def State.takesCues (s : State) : Bool := s.fault.part != .starting

/-- SPLICE_AT_TIME (R58). -/
def execSpliceAtTime (ref : CueRef) (body : SpliceBody) (s : State) : Result :=
  s.when s.takesCues fun s => s.handleSplice false ref body

/-- SPLICE_AT_MARK (R58). -/
def execSpliceAtMark (ref : CueRef) (body : SpliceBody) (s : State) : Result :=
  s.when s.takesCues fun s => s.handleSplice true ref body

/-- CANCEL (R62). -/
def execCancel (ref : CueRef) (service : Byte) (cueId : BitVec 32) (s : State) : Result :=
  s.when s.takesCues fun s => s.handleCancel ref service cueId

/-- FLUSH_SERVICE (R63). -/
def execFlushService (ref : CueRef) (service : Byte) (s : State) : Result :=
  s.when s.takesCues fun s => s.handleFlush ref service

/-- RETURN_NOW (R64). -/
def execReturnNow (ref : CueRef) (service : Byte) (s : State) : Result :=
  s.when s.takesCues fun s => s.handleReturnNow ref service

/-- ALERT_START (R119, R120). -/
def execAlertStart (ref : CueRef) (body : AlertBody) (s : State) : Result :=
  s.when s.takesCues fun s => s.handleAlertStart ref body

/-- ALERT_END (R129). -/
def execAlertEnd (ref : CueRef) (alertId : BitVec 16) (s : State) : Result :=
  s.when s.takesCues fun s => s.handleAlertEnd ref alertId

/-- CONTENT_DEFINE (R75). -/
def execContentDefine (ref : CueRef) (body : DefineBody) (s : State) : Result :=
  s.when s.takesCues fun s => s.handleContentDefine ref body

/-- CONTENT_RELEASE (R76). -/
def execContentRelease (ref : CueRef) (content : Byte) (s : State) : Result :=
  s.when s.takesCues fun s => s.handleContentRelease ref content

/-- APPLY_STAGED (R68, R118, R162). -/
def execApplyStaged (ref : CueRef) (groups arbiter : Bool) (s : State) : Result :=
  s.when s.takesCues fun s => s.handleApplyStaged ref groups arbiter

/-- ACK_ERROR (R69). -/
def execAckError (ref : CueRef) (s : State) : Result := s.when s.takesCues fun s => s.handleAckError ref

/-- BYPASS (R70). -/
def execBypass (ref : CueRef) (s : State) : Result := s.when s.takesCues fun s => s.handleBypass ref

/-- RESUME (R71). -/
def execResume (ref : CueRef) (s : State) : Result := s.when s.takesCues fun s => s.handleResume ref

end Sys2Proof.Machine
end

