-- ==== Sys2Proof/Machine/Loader.lean ====
section
/-! DEFINITION. The Start-up Loader (11, 11.2 to 11.6): the load sequence, the boot shadow, the end of start-up. -/

namespace Sys2Proof.Machine

/-- What a completed sequential read of EEPROM record `k` does on the two-wire bus (R190). -/
def eepromSteps (k : Nat) : List BusStep :=
  [.start, .send 0xA0, .send (BitVec.ofNat 8 (64 * k / 256)), .send (BitVec.ofNat 8 (64 * k)), .repeatedStart,
    .send 0xA1] ++ List.replicate 63 (.receive true) ++ [.receive false, .stop]

/-- The loader begins the read of EEPROM record `k`. -/
def State.beginRead (s : State) (k : Nat) : State :=
  (s.onLoader fun u => { u with stage := .eeprom k }).emit (.eepromRead (eepromSteps k))

/-! ## The end of start-up (R193) -/

/-- The part state entered at the end of start-up (R183). -/
def FaultUnit.enters (u : FaultUnit) : PartState := if u.pinHold || u.latch.isSome then .bypass else .operating

def State.startReport (s : State) (failure : Option StartFailure) : StartReport where
  mode := s.loader.mode.getD .transparent
  failure := failure
  part := s.fault.enters
  pinHold := s.fault.pinHold
  eepromLoaded := s.loader.eepromLoaded
  eepromRefused := s.loader.eepromRefused
  bootLoaded := s.loader.bootLoaded
  bootRefused := s.loader.bootRefused

/-- Start-up ends: STARTED, the part state, the cues committed so far (R193). -/
def State.endStartUp (s : State) (failure : Option StartFailure) : State :=
  let s := s.onLoader fun u => { u with stage := .ended, boot := none }
  let s := s.produce (.started (s.startReport failure))
  let s :=
    match s.fault.enters with
    | .bypass => s.enterBypass []
    | .operating | .starting => s.onFault fun u => { u with part := .operating }
  s.takeCues cueFuel

/-- A failure: CONFIG_ERROR, and start-up ends (R192). -/
def State.failStartUp (s : State) (f : StartFailure) : State :=
  (s.raise .configError 0 (64 * f.index) none).endStartUp (some f)

/-! ## Records (R192) -/

/-- A record's outcome is counted for its source (R192). -/
def StartLoader.count (u : StartLoader) (boot accepted : Bool) : StartLoader :=
  match boot, accepted with
  | false, true => { u with eepromLoaded := u.eepromLoaded + 1 }
  | false, false => { u with eepromRefused := u.eepromRefused + 1 }
  | true, true => { u with bootLoaded := u.bootLoaded + 1 }
  | true, false => { u with bootRefused := u.bootRefused + 1 }

/-- A configuration record is handed to its owner at start-up and counted (R192). -/
def State.loadRecord (s : State) (boot : Bool) (r : ConfigRecord) : State :=
  let (s, outcome) := s.configure true r
  s.onLoader fun u => u.count boot (outcome == .done)

/-- How the bytes of a record are handled at start-up (R192). -/
inductive Loaded
  | ends
  | failed
  | record (r : ConfigRecord)
  deriving DecidableEq, Repr

def loadedAs (b : List Byte) : Loaded :=
  if recordKindByte b = endCode then .ends
  else
    match configRecord b with
    | some r => .record r
    | none => .failed

/-! ## The boot snoop (R191) -/

/-- The head slot's record is taken and handled (R191). -/
def State.takeBoot (s : State) (boot : BootShadow) : State :=
  let slot := boot.head
  let b := boot.shadow.readBytes (64 * slot) 64
  let s := s.onLoader fun u =>
    { u with boot := some { boot with committed := boot.committed.set slot false, head := slot + 1 } }
  match loadedAs b with
  | .ends => s.endStartUp none
  | .failed => s.failStartUp ⟨true, slot, .unknownKind⟩
  | .record r =>
    let s := s.loadRecord true r
    if slot + 1 < Config.bootSlots then s else s.endStartUp none

/-- Boot records are taken while the snoop runs and the head slot is committed (R191). `fuel` bounds the slots. -/
def State.snoopBoot : Nat → State → State
  | 0, s => s
  | fuel + 1, s =>
    match s.loader.stage, s.loader.boot with
    | .snoop, some boot => if boot.committed.getD boot.head false then State.snoopBoot fuel (s.takeBoot boot) else s
    | _, _ => s

/-- A copy of a forwarded beat reaches the boot shadow (R191). -/
def BootShadow.write (b : BootShadow) (address : Nat) (data : BeatData) (enables : Enables) : BootShadow :=
  { b with
    shadow := b.shadow.writeLanes address data (enabledLanes enables)
    committed :=
      if address % 64 = 48 ∧ enables.extractLsb' 8 8 = 0xFF then b.committed.set (address / 64) true else b.committed }

/-- A forwarded beat's copy reaches the Start-up Loader while it keeps a boot shadow (R191). -/
def State.bootBeat (s : State) (address : Nat) (data : BeatData) (enables : Enables) : State :=
  if address < 0x4000 ∧ s.loader.boot.isSome then
    State.snoopBoot Config.bootSlots
      (s.onLoader fun u => { u with boot := u.boot.map fun b => b.write address data enables })
  else s

/-! ## The EEPROM (R190) -/

/-- EEPROM loading has ended: the boot snoop begins to take slots, or start-up ends (R189, R191). -/
def State.endEeprom (s : State) : State :=
  if s.loader.mode = some .both then State.snoopBoot Config.bootSlots (s.onLoader fun u => { u with stage := .snoop })
  else s.endStartUp none

/-- The read of EEPROM record `k` ends (R190, R192). -/
def State.eepromEnds (s : State) (k : Nat) (result : EepromRead) : State :=
  match result with
  | .unreadable _ => s.failStartUp ⟨false, k, .unreadable⟩
  | .record b =>
    match loadedAs b with
    | .ends => s.endEeprom
    | .failed => s.failStartUp ⟨false, k, .unknownKind⟩
    | .record r =>
      let s := s.loadRecord false r
      if k + 1 < Config.bootSlots then s.beginRead (k + 1) else s.endEeprom

/-! ## The release of RESET_N (R189) -/

def startModeOf (mode1 mode0 : Bool) : StartMode :=
  match mode1, mode0 with
  | false, false => .transparent
  | false, true => .eeprom
  | true, false => .boot
  | true, true => .both

/-- The load sequence of a mode starts (R189, R191). -/
def State.startLoading (s : State) (m : StartMode) : State :=
  let s := s.onLoader fun u => { u with mode := some m }
  match m with
  | .transparent => (s.onFault fun u => u.setLatch .transparent).endStartUp none
  | .eeprom => s.beginRead 0
  | .boot => s.onLoader fun u => { u with stage := .snoop, boot := some {} }
  | .both => (s.onLoader fun u => { u with boot := some {} }).beginRead 0

end Sys2Proof.Machine
end

