-- ==== Sys2Proof/Machine/Playout.lean ====
section
/-! DEFINITION. Serving processor reads (07): classing the bytes of a read, claiming and building staging buffers, returning
beats, completions. -/

namespace Sys2Proof.Machine

/-! ## Where the bytes of a read come from (R135, R155) -/

/-- How a byte of a processor read is to be served: read from memory at an address, or as packet byte `k` of an ingest slot
whose own address is `a`. -/
inductive Want
  | direct (a : Nat)
  | packet (slot : SlotRef) (k a : Nat)
  deriving DecidableEq, Repr

/-- The ingest window that a VIEW at an address stands for, with the view byte x (R135). -/
def viewAt (t : Vector WindowEntry 16) (a : Nat) : Option (Fin 16 × Nat) :=
  match windowAt t a with
  | none => none
  | some v =>
    match t[v] with
    | .view base w => some (w, a - base)
    | .empty | .ingest _ _ _ _ | .cue _ _ | .report _ _ => none

/-- How the byte at an address is served (R135). -/
def wantAt (t : Vector WindowEntry 16) (a : Nat) : Want :=
  match viewAt t a with
  | none => .direct a
  | some (w, x) =>
    match t[w] with
    | .ingest base _ stride _ =>
      let slot := x / stride
      let b := x % stride
      if packetStart stride ≤ b ∧ b < packetStart stride + packetLength then
        .packet ⟨w, slot, base + slot * stride⟩ (b - packetStart stride) (base + x)
      else .direct (base + x)
    | .empty | .view _ _ | .cue _ _ | .report _ _ => .direct a

/-- The wants of a read burst of `count` beats, beat by beat. -/
def readWants (t : Vector WindowEntry 16) (beat count : Nat) : List (List Want) :=
  (List.range count).map fun i => (List.range 16).map fun j => wantAt t (16 * (beat + i) + j)

def Want.address? : Want → Option Nat
  | .direct a => some a
  | .packet _ _ _ => none

/-- The source of a byte, given where directly read bytes come from. -/
def Want.source (f : Nat → ByteSource) : Want → ByteSource
  | .direct a => f a
  | .packet slot k a => .packet slot k a .undecided

def Want.isPacket : Want → Bool
  | .packet _ _ _ => true
  | .direct _ => false

/-- The part accepts a read burst. Its pass-through bytes are read from memory: for a burst that touches no view packet byte
that is the whole burst, a pass-through read (R135, R155). The prefix and padding reads of a view read enter the PASS request
queue here, ahead of the ring-slot reads of the buffers claimed for it (DESIGN CHOICE, log 39). In such a burst a beat without a
byte in a VIEW window stays a pass-through beat (R155). -/
def PathUnit.acceptRead (p : PathUnit) (tag beat count : Nat) : PathUnit :=
  let wants := readWants p.windows beat count
  let view := wants.any fun b => b.any Want.isPacket
  let inView (i : Nat) : Bool := (List.range 16).any fun j => (viewAt p.windows (16 * (beat + i) + j)).isSome
  let (p, source) := p.readPieces (if view then .view else .pass) (wants.flatten.filterMap Want.address?)
  { p with reads := p.reads ++ [⟨tag, wants.mapIdx fun i b => ⟨view && inView i, b.map (Want.source source)⟩⟩] }

/-! ## Claiming a buffer (R137) -/

/-- The HELD buffer with the earliest last use: the one used longest ago, the lowest-numbered among equals. -/
def oldestHeld (v : Vector (Option StagingUse) 8) (now : StationTime) : Option (Fin 8) :=
  ((List.finRange 8).foldl
    (fun (best : Option (Fin 8 × Nat)) b =>
      match v[b] with
      | some u =>
        if u.held then
          let age := (now - u.lastUse).toNat
          match best with
          | some (_, a) => if a < age then some (b, age) else best
          | none => some (b, age)
        else best
      | none => best) none).map Prod.fst

/-- The buffer a claim takes: the lowest-numbered FREE one, otherwise the HELD one used longest ago, otherwise none. -/
def State.claimable (s : State) : Option (Fin 8) :=
  match lowest s.path.staging Option.isNone with
  | some b => some b
  | none => oldestHeld s.path.staging s.clock

/-! ## Assembly (R139 to R143) -/

/-- The content packet that an INSERT calls for (R139). -/
def State.insertTarget (s : State) (f : Insert) : FetchTarget :=
  let content : Fin 128 :=
    match f.source with
    | .insertion i _ => s.splice.records[i].content
    | .alert e _ _ => s.alert.entries[e].content
  let service : Fin 64 :=
    match f.source with
    | .insertion i _ => s.splice.records[i].service
    | .alert _ _ service => service
  ⟨content, f.packet, service, s.contentAddress content f.packet⟩

/-- A buffer's packet is complete: the buffer is HELD with that packet and outcome. -/
def StagingUse.complete (u : StagingUse) (packet : List Byte) (outcome : PlayOutcome) : StagingUse :=
  { u with held := true, packet := some packet, outcome := outcome, deadline := none, wait := .nothing }

def State.completeStaging (s : State) (b : Fin 8) (packet : List Byte) (outcome : PlayOutcome) : State :=
  match s.path.staging[b] with
  | some u => s.setStaging b (some (u.complete packet outcome))
  | none => s

/-- The wait of an INSERT buffer ends with its content packet, or without it (R141, R142); the source is checked again, and
a pending demand is let go. -/
def State.finishInsert (s : State) (b : Fin 8) (packet : Option (List Byte)) : State :=
  match s.path.staging[b] with
  | none => s
  | some u =>
    match u.disposition.action with
    | .insert f =>
      let s :=
        if s.sourceCurrent f.source then
          match packet with
          | some p => s.completeStaging b (insertPacketBytes p f.rewrite f.offset) .aired
          | none => s.completeStaging b nullPacket .lost
        else s.completeStaging b nullPacket .none
      s.letGoDemand b u.wait
    | .pass _ | .null => s

/-- The deadline of a waiting buffer is armed (R141). -/
def State.armFetch (s : State) (b : Fin 8) : State :=
  match s.path.staging[b] with
  | some u => s.setStaging b (some { u with deadline := some (after s.clock s.fetchTicks) })
  | none => s

/-- How the named prefetch buffer stands to a slot and take generation (R141): its packet, FAILED, LOADING, or not usable. -/
inductive Usable
  | ready (packet : List Byte)
  | failed
  | loading (b : Fin 256)
  | unusable
  deriving DecidableEq, Repr

def State.usablePrefetch (s : State) (b : Option (Fin 256)) (owner : Owner) : Usable :=
  match b with
  | none => .unusable
  | some b =>
    let p := s.content.prefetch[b]
    if p.owner = some owner then
      match p with
      | .ready _ _ packet => .ready packet
      | .failed _ _ => .failed
      | .loading _ _ => .loading b
      | .free => .unusable
    else .unusable

/-- The content packet of an INSERT buffer with a current source is obtained (R141). -/
def State.obtain (s : State) (b : Fin 8) (u : StagingUse) (f : Insert) : State :=
  match s.usablePrefetch f.prefetch ⟨u.window, u.slot, u.generation⟩ with
  | .ready packet => s.finishInsert b (some packet)
  | .failed => s.finishInsert b none
  | .loading p => (s.setWait b (.prefetch p)).armFetch b
  | .unusable => (s.requestDemand b (s.insertTarget f)).armFetch b

/-- Assembly starts by the disposition's action (R139, R140). -/
def State.assemble (s : State) (b : Fin 8) (u : StagingUse) : State :=
  match u.disposition.action with
  | .null => s.completeStaging b nullPacket .none
  | .pass _ =>
    let read := beatsHolding (slotPacketAddress s.path.windows[u.window] u.slot) packetLength (.staging b u.claim)
    (s.onPath fun p => { p with passQueue := p.passQueue ++ [.read read] }).setWait b .ringSlot
  | .insert f => if s.sourceCurrent f.source then s.obtain b u f else s.completeStaging b nullPacket .none

/-- A HELD buffer is about to be claimed for another slot: the bytes it serves are in hand and stay so (R137; DEDUCED, log 11). -/
def State.reclaim (s : State) (b : Fin 8) : State :=
  match s.path.staging[b] with
  | some u => s.mapSources (ByteSource.reserve b (.reclaimed u))
  | none => s

/-- A buffer is claimed for a slot and its record's take generation (R137). -/
def State.claim (s : State) (b : Fin 8) (w : Fin 16) (slot : Nat) (g : Generation) (d : Disposition) : State :=
  let u : StagingUse :=
    { window := w, slot := slot, generation := g, disposition := d, held := false, void := false, outcome := .none,
      packet := none, deadline := none, wait := .nothing, lastUse := s.clock, claim := s.path.nextClaim }
  let s := (s.reclaim b).setStaging b (some u)
  (s.onPath fun p => { p with nextClaim := p.nextClaim + 1 }).assemble b u

/-! ## Deciding the packet bytes of a read (R137, R138, R149) -/

/-- The slot of a packet byte that nothing serves yet, and whether its read waits for a buffer. -/
def ByteSource.openAt : ByteSource → Option (SlotRef × Bool)
  | .packet slot _ _ .undecided => some (slot, false)
  | .packet slot _ _ .waiting => some (slot, true)
  | .packet _ _ _ (.buffer _) | .packet _ _ _ (.reclaimed _) | .got _ | .failed _ | .memory _ _ | .overtaken _ _ => none

/-- The packet bytes of a slot that nothing serves yet take another source. -/
def ByteSource.serve (slot : SlotRef) (f : Nat → Nat → ByteSource) : ByteSource → ByteSource :=
  ByteSource.mapPacket fun at_ k a old =>
    match old with
    | .undecided | .waiting => if at_ = slot then f k a else .packet at_ k a old
    | .buffer _ | .reclaimed _ => .packet at_ k a old

/-- Changes one outstanding read. -/
def State.onRead (s : State) (i : Nat) (f : ProcRead → ProcRead) : State :=
  s.onPath fun p => { p with reads := p.reads.modify i f }

/-- The bytes of a slot that one read still needs are served from a buffer, or wait for one. -/
def State.tie (s : State) (i : Nat) (slot : SlotRef) (serving : Serving) : State :=
  s.onRead i fun r => r.mapSources (ByteSource.serve slot fun k a => .packet slot k a serving)

/-- An overtake: the bytes come from a null packet, and PLAYOUT_OVERTAKE is raised (R138). -/
def State.overtake (s : State) (i : Nat) (slot : SlotRef) : State :=
  (s.onRead i fun r => r.mapSources (ByteSource.serve slot .overtaken)).raise .playoutOvertake slot.window.val slot.base none

/-- What a claimed buffer is built from: the disposition of a TAKEN or PLAYED record (R137). -/
def SlotRecord.claims (r : SlotRecord) : Option Disposition :=
  match r.state with
  | .rest .taken | .rest .played => r.disposition
  | .rest .empty | .filling _ => none

/-- The buffer that a read is given: the claimable one, unless a read that arrived before it waits for a buffer (R137). -/
def State.given (s : State) (i : Nat) : Option (Fin 8) :=
  if (s.path.reads.take i).any fun r => r.bytes.any fun x => (x.openAt).any Prod.snd then none else s.claimable

/-- The bytes of one slot that a read needs are decided by the slot record (R137, R138). The record of a slot whose read waits
for a buffer is looked at again when a buffer is given; where another read has had one claimed for the slot and its take
generation meanwhile, the bytes are served from that one (DEDUCED, log 40). -/
def State.decideSlot (s : State) (i : Nat) (slot : SlotRef) (waiting : Bool) : State :=
  if s.aside then s
  else
    let r := s.slotRecord slot.window slot.slot
    match stagingFor s.path.staging slot.window slot.slot r.generation with
    | b :: _ => s.tie i slot (.buffer b)
    | [] =>
      match r.claims, s.given i with
      | some d, some b => (s.claim b slot.window slot.slot r.generation d).tie i slot (.buffer b)
      | some _, none => s.tie i slot .waiting
      | none, none => if waiting then s else s.overtake i slot
      | none, some _ => s.overtake i slot

/-- All slots that a read needs are decided; in BYPASS and STARTING its packet bytes are read from memory (R149). -/
def State.decideRead (s : State) (i : Nat) : State :=
  match s.path.reads[i]? with
  | none => s
  | some r =>
    if s.aside then
      s.onPath fun p =>
        let (p, r) := p.fromMemory r
        { p with reads := p.reads.set i r }
    else
      ((r.bytes.filterMap ByteSource.openAt).dedup).foldl (fun s x => s.decideSlot i x.1 x.2) s

/-! ## Returning beats (R135, R145) -/

/-- The assembly that a packet byte is served from. -/
def Serving.use (v : Vector (Option StagingUse) 8) : Serving → Option StagingUse
  | .undecided | .waiting => none
  | .buffer b => v[b]
  | .reclaimed u => some u

/-- A byte in hand, and whether it came without an error; none where it is still awaited. -/
def ByteSource.inHand (v : Vector (Option StagingUse) 8) : ByteSource → Option (Byte × Bool)
  | .got b => some (b, true)
  | .failed b => some (b, false)
  | .memory _ _ => none
  | .overtaken k _ => some (byteAt nullPacket k, true)
  | .packet _ k _ serving =>
    match serving.use v with
    | some u => u.packet.map fun p => (byteAt p k, true)
    | none => none

/-- The staging buffers that serve bytes of a beat. -/
def servers (beat : List ByteSource) : List (Fin 8) :=
  (List.finRange 8).filter fun b => beat.any (ByteSource.tied b)

/-- The assemblies whose packet byte 187 a beat carries (R145). -/
def completers (v : Vector (Option StagingUse) 8) (beat : List ByteSource) : List StagingUse :=
  beat.filterMap fun x =>
    match x with
    | .packet _ 187 _ serving => serving.use v
    | _ => none

/-- On a first answer the source is told how its packet was served (R145). -/
def State.tellOutcome (s : State) (source : Source) (answer : PlayedAnswer) (outcome : PlayOutcome) : State :=
  match answer, outcome with
  | .first, .aired => s.notice source true
  | .first, .lost => s.notice source false
  | _, _ => s

/-- A slot's completion (R145): the played notice, the notice of the outcome on a first answer, the release request. -/
def State.complete (s : State) (u : StagingUse) : State :=
  if u.void then s
  else
    let (r, answer) := (s.slotRecord u.window u.slot).played u.generation
    let s := s.onSlot u.window u.slot fun _ => r
    match u.disposition.action with
    | .insert f =>
      let s := s.tellOutcome f.source answer u.outcome
      match f.prefetch with
      | some p => s.releasePrefetch p ⟨u.window, u.slot, u.generation⟩
      | none => s
    | .pass _ | .null => s

/-- A buffer's last use is now (R137). -/
def State.touch (s : State) (b : Fin 8) : State :=
  match s.path.staging[b] with
  | some u => s.setStaging b (some { u with lastUse := s.clock })
  | none => s

/-- One beat of a read goes back to the processor with its status (R135, R151): with its bytes where none came with an error. A
pass-through beat with an error carries its data as memory gave it; a view beat with one carries no bytes and completes nothing
(DEDUCED, log 19). Either way the beat sets the last use of the buffers that
serve its bytes: for a beat with an error, whose other bytes are discarded, that is the model's choice (DESIGN CHOICE, log 41). -/
def State.returnBeat (s : State) (tag : Nat) (beat : ReadBeat) (bytes : List (Byte × Bool)) : State :=
  let ok := bytes.all Prod.snd
  let data : Option (List Byte) := if ok || !beat.view then some (bytes.map Prod.fst) else none
  let ends := completers s.path.staging beat.bytes
  let s := (servers beat.bytes).foldl State.touch s
  let s := if ok then ends.foldl State.complete s else s
  s.emit (.readBeat tag data ok)

/-- The beats of a read whose bytes are all in hand are returned from its front (R135); a read whose last beat has been
returned is no longer outstanding (R151). `fuel` bounds the beats. -/
def State.returnBeats : Nat → State → Nat → State
  | 0, s, _ => s
  | fuel + 1, s, i =>
    match s.path.reads[i]? with
    | none => s
    | some r =>
      match r.beats with
      | [] => s.onPath fun p => { p with reads := p.reads.eraseIdx i }
      | beat :: rest =>
        match beat.bytes.mapM (ByteSource.inHand s.path.staging) with
        | none => s
        | some bytes =>
          let s := (s.returnBeat r.tag beat bytes).onRead i fun r => { r with beats := rest }
          State.returnBeats fuel s i

/-- One read is decided and what it has in hand returned. -/
def State.serveRead (s : State) (i : Nat) : State :=
  let s := s.decideRead i
  match s.path.reads[i]? with
  | none => s
  | some r => (State.returnBeats (r.beats.length + 1) s i).dropVoids

/-- The outstanding reads are served in the order of their arrival (R137). `fuel` bounds the reads. -/
def State.serveReads : Nat → State → Nat → State
  | 0, s, _ => s
  | fuel + 1, s, i =>
    let n := s.path.reads.length
    if i < n then
      let s := s.serveRead i
      State.serveReads fuel s (if s.path.reads.length < n then i else i + 1)
    else s

/-! ## Arrivals and the deadline (R140 to R142) -/

/-- The slot and take generation that a buffer is claimed for (R137). -/
def StagingUse.owner (u : StagingUse) : Owner := ⟨u.window, u.slot, u.generation⟩

/-- The staging buffer that waits on a prefetch buffer or a demand buffer is told of its packet, or that it FAILED. `owner`: the
owner of a prefetch buffer that settles. A prefetch buffer that another slot or take has come to own is not read (R141), so that
its settling is told to no buffer that still waits on it for its old owner (DEDUCED, log 52). -/
def State.tellStaging (s : State) (w : StagingWait) (owner : Option Owner) (packet : Option (List Byte)) : State :=
  match (List.finRange 8).find? fun b =>
      match s.path.staging[b] with
      | some u => u.wait == w && owner.all fun o => o == u.owner
      | none => false with
  | some b => s.finishInsert b packet
  | none => s

/-- The ring-slot data of a PASS buffer arrive (R140). -/
def State.ringSlotData (s : State) (b : Fin 8) (claim : Nat) (beats : List MemBeat) : State :=
  match s.path.staging[b] with
  | none => s
  | some u =>
    if u.claim = claim ∧ u.wait = .ringSlot then
      if beats.all MemBeat.ok then
        match u.disposition.action with
        | .pass r =>
          let address := slotPacketAddress s.path.windows[u.window] u.slot
          s.completeStaging b (passPacket (bytesOfBeats address packetLength beats) r) .none
        | .insert _ | .null => s
      else (s.setStaging b none).mapSources (ByteSource.failOf b)
    else s

/-- The fetch deadline of a buffer occurs (R142). -/
def State.fetchExpires (s : State) (b : Fin 8) : State :=
  match s.path.staging[b] with
  | none => s
  | some u =>
    match u.disposition.action with
    | .insert f =>
      let late := s.sourceCurrent f.source
      let target := s.insertTarget f
      let s := s.finishInsert b none
      if late then s.raise .fetchLate target.service.val target.address none else s
    | .pass _ | .null => s

end Sys2Proof.Machine
end

