-- ==== Sys2Proof/Machine/Path.lean ====
section
/-! DEFINITION. The Path Unit (08): processor writes and their runs, the acceptance of requests, read tags, write responses. -/

namespace Sys2Proof.Machine

/-! ## Write bursts and runs (R154) -/

/-- Updates a write burst whose response is owed. -/
def PathUnit.onBurst (p : PathUnit) (serial : Nat) (f : WriteBurst → WriteBurst) : PathUnit :=
  { p with bursts := p.bursts.map fun b => if b.serial = serial then f b else b }

/-- A run of that burst that later beats may extend. -/
def WriteRun.extends (r : WriteRun) (burst : Nat) : Bool := r.burst == burst && !r.closed

/-- A forwarded beat extends the open run of its burst, or begins a new run that enters the PASS request queue (R154). -/
def PathUnit.forward (p : PathUnit) (burst beat : Nat) (data : BeatData) (enables : Enables) : PathUnit :=
  let extend : PassRequest → PassRequest
    | .write r => .write (if r.extends burst then { r with beats := r.beats ++ [(data, enables)] } else r)
    | .read r => .read r
  let isOpen : PassRequest → Bool
    | .write r => r.extends burst
    | .read _ => false
  if p.passQueue.any isOpen then { p with passQueue := p.passQueue.map extend }
  else
    let run : PassRequest := .write ⟨burst, beat, [(data, enables)], false⟩
    PathUnit.onBurst { p with passQueue := p.passQueue ++ [run] } burst fun b => { b with runs := b.runs + 1 }

/-- The open run of a burst is complete. -/
def PathUnit.closeRun (p : PathUnit) (burst : Nat) : PathUnit :=
  { p with
    passQueue := p.passQueue.map fun q =>
      match q with
      | .write r => .write (if r.burst = burst then { r with closed := true } else r)
      | .read r => .read r }

/-- The response of a burst is returned once its last beat is decided and every run answered (R154). -/
def State.respond (s : State) (serial : Nat) : State :=
  match s.path.bursts.find? (·.serial == serial) with
  | none => s
  | some b =>
    if b.decided && b.runs == 0 then
      (s.onPath fun p => { p with bursts := p.bursts.filter fun b => b.serial != serial }).emit
        (.writeResponse serial (!b.refused && !b.failed))
    else s

/-- The last beat of a burst has been decided. -/
def State.endBurst (s : State) (serial : Nat) : State :=
  (s.onPath fun p =>
    (PathUnit.closeRun { p with openBurst := none } serial).onBurst serial fun b => { b with decided := true }).respond serial

/-! ## Deciding a write beat (R153) -/

/-- The byte at an address lies in a VIEW window. -/
def State.inView (s : State) (a : Nat) : Bool := (viewAt s.path.windows a).isSome

/-- The lowest enabled byte of a beat that passes a test. -/
def firstByte (address : Nat) (enables : Enables) (test : Nat → Bool) : Option Nat :=
  ((enabledLanes enables).map (address + ·)).find? test

/-- How a write beat is decided (R153). -/
inductive WriteDecision
  | view (address : Nat)
  | guard (address : Nat)
  | forward
  deriving DecidableEq, Repr

def State.decideWrite (s : State) (address : Nat) (enables : Enables) : WriteDecision :=
  match firstByte address enables s.inView with
  | some a => .view a
  | none =>
    match firstByte address enables s.guarded with
    | some a => .guard a
    | none => .forward

/-- The REPORT window's copy of a beat: a beat that enables all four bytes of the consumed-count field sets the consumed
count (R172), read little-endian: R195 does not name the header (DEDUCED, log 46). -/
def State.reportBeat (s : State) (address : Nat) (data : BeatData) (enables : Enables) : State :=
  match s.reportWindow with
  | none => s
  | some (base, _) =>
    if address = base ∧ enables.extractLsb' 0 4 = 0xF then
      s.onReport fun u =>
        { u with
          ring := u.ring.map fun r => { r with consumed := clampConsumed (data.extractLsb' 0 32) r.consumed r.produced } }
    else s

/-- The copies of a forwarded beat go to the blocks that watch its bytes (R153), in the order of R153's table (DEDUCED, log 29). -/
def State.watchers (s : State) (address : Nat) (data : BeatData) (enables : Enables) : State :=
  (((s.ingestBeat address data enables).cueBeat address data enables).reportBeat address data enables).bootBeat
    address data enables

/-- One beat of the open burst is decided (R153, R154). -/
def State.writeBeat (s : State) (burst beat : Nat) (data : BeatData) (enables : Enables) (last : Bool) : State :=
  let address := 16 * beat
  let finish (s : State) : State := if last then s.endBurst burst else s
  let refused (s : State) : State :=
    finish (s.onPath fun p => (p.closeRun burst).onBurst burst fun b => { b with refused := true })
  match s.decideWrite address enables with
  | .view a => (refused s).raise .viewWrite 0 a none
  | .guard a => (refused s).raise .contentGuard 0 a none
  | .forward => (finish (s.onPath fun p => p.forward burst beat data enables)).watchers address data enables

/-! ## Accepting requests (R151, R155) -/

/-- The PASS request queue is full (R155). -/
def PathUnit.full (p : PathUnit) : Bool := decide (Config.passDepth ≤ p.passQueue.length)

def PortRequest.isWrite : PortRequest → Bool
  | .write _ _ _ _ => true
  | .read _ _ _ => false

/-- A new write burst is opened. -/
def PathUnit.openWrite (p : PathUnit) : PathUnit :=
  { p with
    openBurst := some p.nextBurst
    nextBurst := p.nextBurst + 1
    bursts := p.bursts ++ [⟨p.nextBurst, false, false, 0, false⟩] }

/-- The request at a position of the held list is taken off it. -/
def State.unhold (s : State) (i : Nat) : State := s.onPath fun p => { p with held := p.held.eraseIdx i }

/-- A request is decoded in the burst that is open. -/
def State.decode (s : State) (r : PortRequest) : State :=
  match r, s.path.openBurst with
  | .write beat data enables last, some burst => s.writeBeat burst beat.toNat data enables last
  | .write _ _ _ _, none => s
  | .read tag beat more, _ => s.onPath fun p => p.acceptRead tag beat.toNat (more.val + 1)

/-- The next request is accepted, where one can be: the beats of an open write burst first, and a new request only while the
PASS request queue is not full and, for a read, fewer than 32 are outstanding. None where nothing can be accepted. -/
def State.acceptNext (s : State) : Option State :=
  match s.path.openBurst with
  | some _ =>
    match s.path.held.findIdx? PortRequest.isWrite with
    | some i =>
      match s.path.held[i]? with
      | some r => some ((s.unhold i).decode r)
      | none => none
    | none => none
  | none =>
    match s.path.held with
    | [] => none
    | .write beat data enables last :: _ =>
      if s.path.full then none
      else some (((s.unhold 0).onPath PathUnit.openWrite).decode (.write beat data enables last))
    | .read tag beat more :: _ =>
      if s.path.full || decide (Config.readLimit ≤ s.path.reads.length) then none
      else some ((s.unhold 0).decode (.read tag beat more))

/-- The beats that outstanding reads still wait for. -/
def PathUnit.beatsOwed (p : PathUnit) : Nat := (p.reads.map fun r => r.beats.length).sum

/-- How much there is left to accept and to return; it bounds the rounds of serving. -/
def PathUnit.work (p : PathUnit) : Nat := 17 * p.held.length + p.beatsOwed

/-- The port is served: what can be returned is returned and what can be accepted is accepted, until neither goes on. `fuel`
bounds the rounds. -/
def State.servePort : Nat → State → State
  | 0, s => s
  | fuel + 1, s =>
    let owed := s.path.work
    let s := s.serveReads (s.path.reads.length) 0
    match s.acceptNext with
    | some s => State.servePort fuel s
    | none => if s.path.work < owed then State.servePort fuel s else s

/-- The port is served until nothing more can be. -/
def State.serve (s : State) : State := s.servePort (s.path.work + 1)

/-! ## Presenting requests (R151) -/

/-- A write beat continues its burst, or begins one: at most 16 beats, at incrementing addresses. -/
def presentedNext (presented : Option (Nat × Nat)) (beat : Nat) : Bool :=
  match presented with
  | none => true
  | some (next, count) => beat == next && decide (count < 16)

/-- A beat has been presented. -/
def present (presented : Option (Nat × Nat)) (beat : Nat) (last : Bool) : Option (Nat × Nat) :=
  if last then none
  else
    match presented with
    | none => some (beat + 1, 1)
    | some (_, count) => some (beat + 1, count + 1)

/-- A request is presented at the port. -/
def State.presentRequest (s : State) (r : PortRequest) : State := s.onPath fun p => { p with held := p.held ++ [r] }

/-- A read burst of the processor is presented and the port served (R135, R155). -/
def State.presentRead (s : State) (tag : Nat) (beat : BeatAddr) (more : Fin 16) : State :=
  (s.presentRequest (.read tag beat more)).serve

/-! ## Memory's answers (R151, R154) -/

/-- Memory answers the write run at a position of those in flight (R154). -/
def State.runAnswered (s : State) (i : Nat) (ok : Bool) : State :=
  match s.path.issuedRuns[i]? with
  | none => s
  | some burst =>
    (s.onPath fun p =>
      PathUnit.onBurst { p with issuedRuns := p.issuedRuns.eraseIdx i } burst fun b =>
        { b with runs := b.runs - 1, failed := b.failed || !ok }).respond burst

/-- A read tag is given back (R151). -/
def State.freeTag (s : State) (tag : Fin 32) : State := s.onPath fun p => { p with tags := p.tags.set tag none }

/-- The bytes of one returned beat of a memory read take their places (R151). -/
def ByteSource.arrive (request beat : Nat) (data : BeatData) (ok : Bool) (b : ByteSource) : ByteSource :=
  match b with
  | .memory r offset =>
    if r = request ∧ offset / 16 = beat then
      (if ok then .got (laneByte data (offset % 16)) else .failed (laneByte data (offset % 16)))
    else b
  | .got _ | .failed _ | .packet _ _ _ _ | .overtaken _ _ => b

/-- One beat of a pass-through read returns; the tag is given back with its last beat (R151). -/
def State.beatArrives (s : State) (tag : Fin 32) (u : TagUse) (request : Nat) (data : BeatData) (ok : Bool) : State :=
  let s := s.mapSources (ByteSource.arrive request u.got data ok)
  if u.got + 1 < u.read.count then
    s.onPath fun p => { p with tags := p.tags.set tag (some { u with got := u.got + 1 }) }
  else s.freeTag tag

end Sys2Proof.Machine
end

