-- ==== Sys2Proof/Machine/Scan.lean ====
section
/-! DEFINITION. The scanner (04, 4.3): the checks of each packet and the end of a scan. -/

namespace Sys2Proof.Machine

/-- The clock-reference value of a packet that a scan may use (R78, check 5). -/
def scanClock (b : List Byte) : Option Nat :=
  if clockFlag b && !malformed b then some (clockValue b 6 % clockModulus) else none

/-- Checks 2 to 5 on a packet with a good sync byte (R78). -/
def Scan.examine (u : Scan) (d : ContentDef) (k : Nat) (b : List Byte) : Scan :=
  match d.comps.findIdx? (·.pid == packetPid b) with
  | none => u
  | some c =>
    let firstCC :=
      match u.firstCC.getD c none with
      | some _ => u.firstCC
      | none => if hasPayload b then u.firstCC.set c (some (packetCC b)) else u.firstCC
    match scanClock b with
    | none => { u with firstCC := firstCC }
    | some v =>
      let found : FirstClock := ⟨v, k, c⟩
      let video := (d.comps[c]?.map ContentComponent.role) == some .video
      { u with
        firstCC := firstCC
        videoClock := if video then some (u.videoClock.getD found) else u.videoClock
        anyClock := some (u.anyClock.getD found) }

/-- How a scan ends (R78, R79). -/
inductive ScanResult
  | ready (first : FirstClock)
  | failed (reason : FailReason) (packet : Option Nat)
  deriving DecidableEq, Repr

/-- The result of a scan that has reached the end of its last packet (R79). -/
def Scan.finish (u : Scan) : ScanResult :=
  match u.videoClock, u.anyClock with
  | some f, _ => .ready f
  | none, some f => .ready f
  | none, none => .failed .noClock none

/-- The entry as the end of its scan leaves it, the scanner's hold ended (R79). -/
def ContentEntry.scanned (e : ContentEntry) (u : Scan) (r : ScanResult) : ContentEntry :=
  match r with
  | .ready first =>
    { e with
      state := .ready, iFirst := some first, firstCC := u.firstCC, failReason := none, failPacket := none
      useCount := e.useCount - 1 }
  | .failed reason packet =>
    { e with
      state := .failed, iFirst := none, firstCC := [], failReason := some reason, failPacket := packet
      useCount := e.useCount - 1 }

/-- The end of a scan (R79): the entry, the CONTENT_STATE record, the content notice, the next scan. -/
def State.endScan (s : State) (u : Scan) (r : ScanResult) : State :=
  let e := s.content.entries[u.content].scanned u r
  let s := s.onContent fun x => { x with entries := x.entries.set u.content e, scan := none }
  ((s.produce (.contentState ⟨u.content, e⟩)).contentNotice u.content).startScan

/-- The next packet in order, where it has arrived, is checked (R78). `fuel` bounds the packets that have arrived. -/
def State.checkScan : Nat → State → State
  | 0, s => s
  | fuel + 1, s =>
    match s.content.scan with
    | none => s
    | some u =>
      match s.content.entries[u.content].definition, u.arrived.find? (·.1 == u.nextCheck) with
      | some d, some (k, some b) =>
        if byteAt b 0 = syncByte then
          let u := { u.examine d k b with nextCheck := k + 1, arrived := u.arrived.filter fun a => a.1 != k }
          if k + 1 < d.packets then
            State.checkScan fuel (s.onContent fun x => { x with scan := some u })
          else s.endScan u u.finish
        else s.endScan u (.failed .sync (some k))
      | some _, some (k, none) => s.endScan u (.failed .memoryError (some k))
      | _, _ => s

/-- The data of one scan read arrive, or an error response in their place; they are checked in packet order (R78, DEDUCED, log 18).
Data of a scan that has ended are discarded. -/
def State.scanData (s : State) (serial packet : Nat) (data : Option (List Byte)) : State :=
  match s.content.scan with
  | none => s
  | some u =>
    if u.serial = serial then
      State.checkScan (u.arrived.length + 1)
        (s.onContent fun x => { x with scan := some { u with arrived := u.arrived ++ [(packet, data)] } })
    else s

end Sys2Proof.Machine
end

