-- ==== Sys2Proof/Machine/Arbiter.lean ====
section
/-! DEFINITION. The memory-side arbiter (08, 8.6) and the wrap that applies the staged table (R162). -/

namespace Sys2Proof.Machine

/-- The four requesters of the phase table (R159). -/
inductive Requester
  | pass
  | fetch
  | scan
  | report
  deriving DecidableEq, Repr

/-- The requester a phase entry names; an entry that names none is taken as PASS (R160, 12.4). -/
def requesterOf (code : Byte) : Requester :=
  match code.toNat with
  | 1 => .fetch
  | 2 => .scan
  | 3 => .report
  | _ => .pass

/-- The scanner's next read (R78). Until every packet's read has been issued one always waits at SCAN, however far ahead of the
data that have arrived; only free read tags and the packet count bound it (DESIGN CHOICE, log 42). -/
def State.scanRead (s : State) : Option (Scan × MemRead) :=
  match s.content.scan with
  | none => none
  | some u =>
    match s.content.entries[u.content].definition with
    | none => none
    | some d =>
      if u.nextRead < d.packets then
        some (u, beatsHolding (contentPacketAddress d u.nextRead) packetLength (.scan u.serial u.nextRead))
      else none

/-- A memory-side read tag is free (R159). -/
def State.tagFree (s : State) : Bool := s.path.tags.toList.any Option.isNone

/-- The requester is waiting: its oldest request is ready to issue (R159). -/
def State.waiting (s : State) : Requester → Bool
  | .pass =>
    match s.path.passQueue with
    | [] => false
    | .write r :: _ => r.closed
    | .read _ :: _ => s.tagFree
  | .fetch => !s.path.fetchQueue.isEmpty && s.tagFree
  | .scan => s.scanRead.isSome && s.tagFree
  | .report => !s.report.writes.isEmpty

/-- A demand fetch is waiting (R159). -/
def State.demandWaiting (s : State) : Bool := !s.path.demandQueue.isEmpty && s.tagFree

/-- A read is issued to memory under a tag. -/
def State.issueRead (s : State) (tag : Fin 32) (r : MemRead) : State :=
  (s.onPath fun p => { p with tags := p.tags.set tag (some ⟨r, 0⟩) }).emit (.memoryRead tag r)

/-- The head of the PASS request queue is issued (R155). -/
def State.issuePass (s : State) (tag : Fin 32) : State :=
  match s.path.passQueue with
  | [] => s
  | .write r :: rest =>
    (s.onPath fun p => { p with passQueue := rest, issuedRuns := p.issuedRuns ++ [r.burst] }).emit
      (.memoryWrite r.beat (r.beats.map fun b => (beatBytes b.1, b.2)))
  | .read r :: rest => (s.onPath fun p => { p with passQueue := rest }).issueRead tag r

/-- The oldest request of a requester is issued to memory whole (R159). -/
def State.issueFor (s : State) (r : Requester) (tag : Fin 32) : State :=
  match r with
  | .pass => s.issuePass tag
  | .fetch =>
    match s.path.fetchQueue with
    | [] => s
    | q :: rest => (s.onPath fun p => { p with fetchQueue := rest }).issueRead tag q
  | .scan =>
    match s.scanRead with
    | none => s
    | some (u, q) =>
      (s.onContent fun x => { x with scan := some { u with nextRead := u.nextRead + 1 } }).issueRead tag q
  | .report =>
    match s.report.writes with
    | [] => s
    | q :: rest =>
      (s.onReport fun u => { u with writes := rest, issued := u.issued ++ [q] }).emit (.memoryWrite (q.address / 16) q.beats)

/-- The request that would be issued is a read, which takes the tag (R151). -/
def State.takesTag (s : State) : Requester → Bool
  | .pass =>
    match s.path.passQueue with
    | .read _ :: _ => true
    | .write _ :: _ | [] => false
  | .fetch | .scan => true
  | .report => false

/-- The phase that the look finds from the pointer on (R160). -/
def State.grantedPhase (s : State) : Option (Fin 16) :=
  ((List.finRange 16).map fun i => s.path.phase + i).find? fun g => s.waiting (requesterOf s.path.activeTable[g])

/-- A grant of phase `g` from pointer `c` wraps the table (R160). -/
def wraps (c g : Fin 16) : Bool := g.val == 15 || decide (g < c)

/-- At a wrapping grant the staged table becomes active and the pending apply is answered (R162). -/
def State.wrapApply (s : State) : State :=
  match s.cue.pendingApply with
  | none => s
  | some ref =>
    ((s.onPath fun p => { p with activeTable := p.stagedTable }).onCue fun u => { u with pendingApply := none }).produce
      (.cueResult ⟨ref, applyCode, none, none, .done, none, true⟩)

/-- One grant (R159, R160): a waiting demand fetch, otherwise the first waiting phase from the pointer. A read needs the tag
named to be free. None where no request is waiting or the tag is in use: then there is no grant. -/
def State.grant (s : State) (tag : Fin 32) : Option State :=
  let free := s.path.tags[tag].isNone
  if s.demandWaiting then
    match s.path.demandQueue with
    | [] => none
    | q :: rest => if free then some ((s.onPath fun p => { p with demandQueue := rest }).issueRead tag q) else none
  else
    match s.grantedPhase with
    | none => none
    | some g =>
      let r := requesterOf s.path.activeTable[g]
      if s.takesTag r && !free then none
      else
        let c := s.path.phase
        let s := (s.issueFor r tag).onPath fun p => { p with phase := g + 1 }
        some (if wraps c g then s.wrapApply else s)

end Sys2Proof.Machine
end

