-- ==== Sys2Proof/Machine/Data.lean ====
section
/-! DEFINITION. The arrival of the data of the part's own reads, the answers to its report writes, and the arbiter's grant (R78,
R86, R88, R94, R140, R160, R170 to R173). -/

namespace Sys2Proof.Machine

/-- The data of a ring-slot read arrive (R140). -/
def execStagingSlotReadData (tag : Fin 32) (beats : List MemBeat) (s : State) : Result :=
  match s.path.tags[tag] with
  | some ⟨⟨_, count, .staging b claim⟩, _⟩ =>
    s.onPort true (beats.length == count) fun s => ((s.freeTag tag).ringSlotData b claim beats).serve
  | _ => .next s

/-- The last data of a prefetch fetch arrive (R86). -/
def State.prefetchArrives (s : State) (b : Fin 256) (beats : List MemBeat) : State :=
  match s.content.prefetch[b] with
  | .loading none _ => s.onContent fun u => { u with prefetch := u.prefetch.set b .free }
  | .loading (some owner) target =>
    if beats.all MemBeat.ok then
      let packet := bytesOfBeats target.address packetLength beats
      (s.onContent fun u => { u with prefetch := u.prefetch.set b (.ready owner target packet) }).tellStaging
        (.prefetch b) owner (some packet)
    else
      ((s.onContent fun u => { u with prefetch := u.prefetch.set b (.failed owner target) }).raise .fetchFail
        target.service.val target.address none).tellStaging (.prefetch b) owner none
  | .free | .ready _ _ _ | .failed _ _ => s

/-- The last data of a prefetch fetch arrive (R86). -/
def execPrefetchDataArrival (tag : Fin 32) (beats : List MemBeat) (s : State) : Result :=
  match s.path.tags[tag] with
  | some ⟨⟨_, count, .prefetch b⟩, _⟩ =>
    s.onPort true (beats.length == count) fun s => ((s.freeTag tag).prefetchArrives b beats).serve
  | _ => .next s

/-- The data of a demand fetch arrive (R88). -/
def State.demandArrives (s : State) (d : Fin 4) (beats : List MemBeat) : State :=
  match s.content.demand[d] with
  | .loading none _ => (s.onContent fun u => { u with demand := u.demand.set d .free }).serveDemandWait
  | .loading (some staging) target =>
    if beats.all MemBeat.ok then
      let packet := bytesOfBeats target.address packetLength beats
      (s.onContent fun u => { u with demand := u.demand.set d (.ready staging target packet) }).tellStaging (.demand d)
        none (some packet)
    else
      ((s.onContent fun u => { u with demand := u.demand.set d (.failed staging target) }).raise .fetchFail
        target.service.val target.address none).tellStaging (.demand d) none none
  | .free | .ready _ _ _ | .failed _ _ => s

/-- The data of a demand fetch arrive (R88). -/
def execDemandDataArrival (tag : Fin 32) (beats : List MemBeat) (s : State) : Result :=
  match s.path.tags[tag] with
  | some ⟨⟨_, count, .demand d⟩, _⟩ =>
    s.onPort true (beats.length == count) fun s => ((s.freeTag tag).demandArrives d beats).serve
  | _ => .next s

/-- A header entry of that serial number, settled (R94). -/
def settleHeader (serial : Nat) (state : HeaderState) (e : HeaderEntry) : HeaderEntry :=
  if e.serial = serial then { e with state := state } else e

/-- The data of a header read arrive; where the entry has left its queue they are discarded (R94). -/
def State.headerArrives (s : State) (service : Fin 64) (serial address : Nat) (beats : List MemBeat) : State :=
  let state : HeaderState :=
    if beats.all MemBeat.ok then .ready (headerOf (bytesOfBeats address 6 beats)) else .failed
  s.onFields service fun f =>
    { f with
      runQueue := f.runQueue.map (settleHeader serial state)
      standbyQueue := f.standbyQueue.map (settleHeader serial state) }

/-- The data of a header read arrive (R94). -/
def execHeaderReadData (tag : Fin 32) (beats : List MemBeat) (s : State) : Result :=
  match s.path.tags[tag] with
  | some ⟨⟨_, count, .header service serial address⟩, _⟩ =>
    s.onPort true (beats.length == count) fun s => (s.freeTag tag).headerArrives service serial address beats
  | _ => .next s

/-- The bytes of a scanned packet; none where a beat came with an error, which ends the scan with MEMORY_ERROR. R78 gives SYNC and
MEMORY_ERROR to a packet that lacks its sync byte besides; that the error stands, whichever beat it came with, is the model's
choice (DESIGN CHOICE, log 53). -/
def State.scanBytes (s : State) (serial packet : Nat) (beats : List MemBeat) : Option (List Byte) :=
  match s.content.scan with
  | none => none
  | some u =>
    if u.serial = serial ∧ beats.all MemBeat.ok then
      some (bytesOfBeats (s.contentAddress u.content packet) packetLength beats)
    else none

/-- The data of one scan read arrive (R78). -/
def execScanReadData (tag : Fin 32) (beats : List MemBeat) (s : State) : Result :=
  match s.path.tags[tag] with
  | some ⟨⟨_, count, .scan serial packet⟩, _⟩ =>
    s.onPort true (beats.length == count) fun s =>
      (s.freeTag tag).scanData serial packet (s.scanBytes serial packet beats)
  | _ => .next s

/-- The answer to a report write whose write is still the ring's outstanding one; any other answer is discarded (R169, R170,
R171, R173). The first byte of a failed write is the first byte of its burst: for a header write the window base, though its
first enabled byte is the window base plus 8 (DEDUCED, log 45). -/
def State.reportAnswered (s : State) (w : ReportWrite) (ok : Bool) : State :=
  match s.report.ring with
  | none => s
  | some ring =>
    if ring.outstanding = some w.serial then
      match w.kind, ok with
      | .record dropped, true => s.onReport fun u => u.recordWritten ring dropped
      | .header, true => s.onReport fun u => { u with ring := some { ring with outstanding := none } }
      | kind, false =>
        (s.onReport fun u => u.writeFailed ring (kind == .header)).raise .reportWriteFail 0 w.address none
    else s

/-- Takes an answered report write off those in flight. -/
def State.takeIssued (s : State) (i : Nat) : State := s.onReport fun u => { u with issued := u.issued.eraseIdx i }

/-- Memory answers a record write in flight (R170, R173). -/
def execReportRecordWriteResponse (write : Nat) (ok : Bool) (s : State) : Result :=
  match s.report.issued[write]? with
  | some w => s.when (w.kind != .header) fun s => (s.takeIssued write).reportAnswered w ok
  | none => .next s

/-- Memory answers a header write in flight (R171, R173). -/
def execReportHeaderWriteResponse (write : Nat) (ok : Bool) (s : State) : Result :=
  match s.report.issued[write]? with
  | some w => s.when (w.kind == .header) fun s => (s.takeIssued write).reportAnswered w ok
  | none => .next s

/-- The memory-side arbiter makes one grant (R160, R162); room in the PASS request queue lets the port go on (R155). -/
def execArbiterGrant (tag : Fin 32) (s : State) : Result :=
  match s.grant tag with
  | some granted => s.when true fun _ => granted.serve
  | none => .next s

end Sys2Proof.Machine
end

