-- ==== Sys2Proof/Machine/Expiries.lean ====
section
/-! DEFINITION. The expiries of the Station Clock (R188): each occurs where it is armed and reached, and is then disarmed. -/

namespace Sys2Proof.Machine

/-- The silence expiry of a service is due. -/
def State.silenceDue (s : State) (i : Fin 64) : Bool :=
  match s.timebase.clocks[i] with
  | some c => due s.clock c.silence
  | none => false

/-- A silence expiry occurs (R39). -/
def execSilenceExpiry (service : Fin 64) (s : State) : Result :=
  s.when (s.silenceDue service) fun s => s.silenceOccurs service

/-- The close expiry of a CLOSING insertion record occurs: it closes with its outstanding count as unconfirmed (R112). -/
def execInsertionCloseExpiry (index : Fin 68) (s : State) : Result :=
  s.when (due s.clock s.splice.records[index].closeExpiry) fun s =>
    State.producing (s.closeRecord index s.splice.records[index].outstanding)

/-- The station bound of a RETURNING insertion occurs: it is marked as passed (R105). -/
def execReturningStationBound (index : Fin 68) (s : State) : Result :=
  s.when (s.splice.records[index].bound.due s.clock) fun s => s.onRecord index fun r => { r with bound := .passed }

/-- The station bound of a service's alert run is due. -/
def State.runBoundDue (s : State) (i : Fin 64) : Bool :=
  match s.splice.services[i].run with
  | some r => r.bound.due s.clock
  | none => false

/-- The station bound of a returning alert run occurs: it is marked as passed (R131). -/
def execAlertStationBound (service : Fin 64) (s : State) : Result :=
  s.when (s.runBoundDue service) fun s => s.onRun service fun r => { r with bound := .passed }

/-- The fetch deadline of a staging buffer is due. -/
def State.fetchDue (s : State) (b : Fin 8) : Bool :=
  match s.path.staging[b] with
  | some u => due s.clock u.deadline
  | none => false

/-- A fetch deadline occurs (R142); the reads it held back go on. -/
def execFetchDeadline (buffer : Fin 8) (s : State) : Result :=
  s.when (s.fetchDue buffer) fun s => (s.fetchExpires buffer).serve

/-- The duration expiry of an ACTIVE alert occurs: the entry is ended EXPIRED (R130). -/
def execAlertDurationExpiry (entry : Fin 4) (s : State) : Result :=
  s.when (due s.clock s.alert.entries[entry].durationExpiry) fun s => s.endAlert entry .expired

/-- The close expiry of a CLOSING alert entry occurs (R133). -/
def execAlertCloseExpiry (entry : Fin 4) (s : State) : Result :=
  s.when (due s.clock s.alert.entries[entry].closeExpiry) fun s =>
    State.producing (s.closeEntry entry s.alert.entries[entry].outstanding)

/-- The holdoff entry is HOLDING and its expiry is due. -/
def State.holdoffDue (s : State) (k : ErrorKind) (i : Nat) : Bool :=
  decide (i < k.scopeSize) &&
    match s.report.holdoff[holdoffIndex k i] with
    | .holding _ x => reached s.clock x
    | .idle | .lapsed _ => false

/-- The expiry of a HOLDING entry of the holdoff table occurs (R175). -/
def execHoldoffExpiry (kind : ErrorKind) (index : Fin 64) (s : State) : Result :=
  s.when (s.holdoffDue kind index.val) fun s =>
    s.onReport fun u => { u with holdoff := modifyAt u.holdoff (holdoffIndex kind index.val) Holdoff.expire }

end Sys2Proof.Machine
end

