-- ==== Sys2Proof/Machine/Pins.lean ====
section
/-! DEFINITION. RESET_N, BYPASS_N and the EEPROM read (R185, R189, R190). -/

namespace Sys2Proof.Machine

/-- RESET_N is asserted: every block takes its reset value; the pin hold follows BYPASS_N (R189). What waits outside the part
and the order choices used stay (DESIGN CHOICE, log 5). -/
def execResetNAssert (s : State) : Result :=
  .next
    { State.reset with
      pending := s.pending, free := s.free, fault := { State.reset.fault with pinHold := s.fault.pinHold } }

/-- RESET_N is released: the straps are sampled and the load sequence starts (R189). -/
def execResetNRelease (mode1 mode0 : Bool) (s : State) : Result :=
  if s.resetHeld then (({ s with resetHeld := false } : State).startLoading (startModeOf mode1 mode0)).did else .next s

/-- BYPASS_N is asserted (R185). -/
def State.pinAsserted (s : State) : State :=
  let operating := s.fault.part == .operating
  let s := s.onFault fun u => { u with pinHold := true }
  if operating then s.enterBypass [] else s

/-- BYPASS_N becomes asserted: the pin hold is set, and an OPERATING part enters BYPASS (R185). In reset the hold alone
follows the pin (R183). -/
def execBypassNAssert (s : State) : Result :=
  if s.resetHeld then .next (s.onFault fun u => { u with pinHold := true })
  else s.when (!s.fault.pinHold) State.pinAsserted

/-- BYPASS_N is released: the pin hold is cleared, and a part in BYPASS with the latch clear returns to OPERATING (R185,
R186). -/
def execBypassNRelease (s : State) : Result :=
  if s.resetHeld then .next (s.onFault fun u => { u with pinHold := false })
  else s.when s.fault.pinHold fun s => (s.onFault fun u => { u with pinHold := false }).returnIfClear

/-- The EEPROM read in progress ends, and its record is handled (R190, R192). -/
def execEepromRecordRead (result : EepromRead) (s : State) : Result :=
  match s.loader.stage with
  | .eeprom k => s.onPort true result.wellFormed fun s => s.eepromEnds k result
  | .off | .snoop | .ended => .next s

end Sys2Proof.Machine
end

