-- ==== Sys2Proof/Machine/Port.lean ====
section
/-! DEFINITION. The commands of the processor-side port and memory's answers to the processor's accesses (R135, R151 to
R155). -/

namespace Sys2Proof.Machine

/-- The processor presents one write beat (R151, R153, R154). -/
def execProcessorWriteBeat (beat : BeatAddr) (data : BeatData) (enables : Enables) (last : Bool) (s : State) : Result :=
  s.onPort true (presentedNext s.path.presented beat.toNat) fun s =>
    ((s.onPath fun p => { p with presented := present p.presented beat.toNat last }).presentRequest
      (.write beat data enables last)).serve

/-- The processor presents a read burst that touches no view packet byte (R155); the part classes its bytes (DEDUCED, log 33). -/
def execPassThroughRead (tag : Nat) (beat : BeatAddr) (more : Fin 16) (s : State) : Result :=
  s.onPort true (burstFits beat more) fun s => s.presentRead tag beat more

/-- The processor presents a read burst that touches view packet bytes (R135); the part classes its bytes (DEDUCED, log 33). -/
def execViewRead (tag : Nat) (beat : BeatAddr) (more : Fin 16) (s : State) : Result :=
  s.onPort true (burstFits beat more) fun s => s.presentRead tag beat more

/-- Memory answers a write run in flight (R154). -/
def execForwardedWriteResponse (run : Nat) (ok : Bool) (s : State) : Result :=
  s.when (decide (run < s.path.issuedRuns.length)) fun s => s.runAnswered run ok

/-- One beat of a pass-through read returns (R151, R155). -/
def execPassThroughReadData (tag : Fin 32) (data : BeatData) (ok : Bool) (s : State) : Result :=
  match s.path.tags[tag] with
  | some ⟨⟨beat, count, .pass request⟩, got⟩ =>
    s.when true fun s => (s.beatArrives tag ⟨⟨beat, count, .pass request⟩, got⟩ request data ok).serve
  | _ => .next s

/-- One beat of a view read's pass-through bytes returns (R135, R149). -/
def execViewPrefixReadData (tag : Fin 32) (data : BeatData) (ok : Bool) (s : State) : Result :=
  match s.path.tags[tag] with
  | some ⟨⟨beat, count, .view request⟩, got⟩ =>
    s.when true fun s => (s.beatArrives tag ⟨⟨beat, count, .view request⟩, got⟩ request data ok).serve
  | _ => .next s

end Sys2Proof.Machine
end

