-- ==== Sys2Proof/Machine/Records.lean ====
section
/-! DEFINITION. The commands of configuration records (R67, R192): from a CONFIGURE cue outside STARTING, from the EEPROM or the
boot block while that source is being loaded. -/

namespace Sys2Proof.Machine

/-- The record's source is one that records come from now (R52, R190, R191). -/
def State.accepts (s : State) : Origin → Bool
  | .cue _ => s.takesCues
  | .eeprom =>
    match s.loader.stage with
    | .eeprom _ => true
    | .off | .snoop | .ended => false
  | .boot => s.loader.stage == .snoop

/-- A configuration record from its source (R67, R192). -/
def State.handleRecord (s : State) (origin : Origin) (r : ConfigRecord) : State :=
  match origin with
  | .cue ref => s.handleConfigure ref r
  | .eeprom => s.loadRecord false r
  | .boot => s.loadRecord true r

/-- WINDOW (R157, R158); the reads it answers are returned (R148). -/
def execWindow (origin : Origin) (record : WindowRec) (s : State) : Result :=
  s.when (s.accepts origin) fun s => (s.handleRecord origin (.window record)).serve

/-- SERVICE (R20 to R22). -/
def execService (origin : Origin) (record : ServiceRec) (s : State) : Result :=
  s.when (s.accepts origin) fun s => s.handleRecord origin (.service record)

/-- GROUP (R117). -/
def execGroup (origin : Origin) (record : GroupRec) (s : State) : Result :=
  s.when (s.accepts origin) fun s => s.handleRecord origin (.group record)

/-- ARBITER (R161). -/
def execArbiter (origin : Origin) (record : ArbiterRec) (s : State) : Result :=
  s.when (s.accepts origin) fun s => s.handleRecord origin (.arbiter record)

/-- LIMITS (R194, R40). -/
def execLimits (origin : Origin) (record : LimitsRec) (s : State) : Result :=
  s.when (s.accepts origin) fun s => s.handleRecord origin (.limits record)

/-- POLICY (R179). -/
def execPolicy (origin : Origin) (record : PolicyRec) (s : State) : Result :=
  s.when (s.accepts origin) fun s => s.handleRecord origin (.policy record)

end Sys2Proof.Machine
end

