-- ==== Sys2Proof/Machine/Dispatch.lean ====
section
/-! DEFINITION. The meaning of each command, one arm per row of spec/opcode_table.json. -/

namespace Sys2Proof.Machine

def exec (i : Instr) (s : State) : Host.Outcome State Fault Refusal :=
  match i with
  | .resetNAssert => Sys2Proof.Machine.execResetNAssert s
  | .resetNRelease mode1 mode0 => Sys2Proof.Machine.execResetNRelease mode1 mode0 s
  | .bypassNAssert => Sys2Proof.Machine.execBypassNAssert s
  | .bypassNRelease => Sys2Proof.Machine.execBypassNRelease s
  | .processorWriteBeat beat data enables last => Sys2Proof.Machine.execProcessorWriteBeat beat data enables last s
  | .passThroughRead tag beat more => Sys2Proof.Machine.execPassThroughRead tag beat more s
  | .viewRead tag beat more => Sys2Proof.Machine.execViewRead tag beat more s
  | .forwardedWriteResponse run ok => Sys2Proof.Machine.execForwardedWriteResponse run ok s
  | .passThroughReadData tag data ok => Sys2Proof.Machine.execPassThroughReadData tag data ok s
  | .stagingSlotReadData tag beats => Sys2Proof.Machine.execStagingSlotReadData tag beats s
  | .viewPrefixReadData tag data ok => Sys2Proof.Machine.execViewPrefixReadData tag data ok s
  | .prefetchDataArrival tag beats => Sys2Proof.Machine.execPrefetchDataArrival tag beats s
  | .demandDataArrival tag beats => Sys2Proof.Machine.execDemandDataArrival tag beats s
  | .headerReadData tag beats => Sys2Proof.Machine.execHeaderReadData tag beats s
  | .scanReadData tag beats => Sys2Proof.Machine.execScanReadData tag beats s
  | .reportRecordWriteResponse write ok => Sys2Proof.Machine.execReportRecordWriteResponse write ok s
  | .reportHeaderWriteResponse write ok => Sys2Proof.Machine.execReportHeaderWriteResponse write ok s
  | .arbiterGrant tag => Sys2Proof.Machine.execArbiterGrant tag s
  | .eepromRecordRead result => Sys2Proof.Machine.execEepromRecordRead result s
  | .silenceExpiry service => Sys2Proof.Machine.execSilenceExpiry service s
  | .insertionCloseExpiry index => Sys2Proof.Machine.execInsertionCloseExpiry index s
  | .returningStationBound index => Sys2Proof.Machine.execReturningStationBound index s
  | .alertStationBound service => Sys2Proof.Machine.execAlertStationBound service s
  | .fetchDeadline buffer => Sys2Proof.Machine.execFetchDeadline buffer s
  | .alertDurationExpiry entry => Sys2Proof.Machine.execAlertDurationExpiry entry s
  | .alertCloseExpiry entry => Sys2Proof.Machine.execAlertCloseExpiry entry s
  | .holdoffExpiry kind index => Sys2Proof.Machine.execHoldoffExpiry kind index s
  | .spliceAtTime ref body => Sys2Proof.Machine.execSpliceAtTime ref body s
  | .spliceAtMark ref body => Sys2Proof.Machine.execSpliceAtMark ref body s
  | .cancel ref service cueId => Sys2Proof.Machine.execCancel ref service cueId s
  | .flushService ref service => Sys2Proof.Machine.execFlushService ref service s
  | .returnNow ref service => Sys2Proof.Machine.execReturnNow ref service s
  | .alertStart ref body => Sys2Proof.Machine.execAlertStart ref body s
  | .alertEnd ref alertId => Sys2Proof.Machine.execAlertEnd ref alertId s
  | .contentDefine ref body => Sys2Proof.Machine.execContentDefine ref body s
  | .contentRelease ref content => Sys2Proof.Machine.execContentRelease ref content s
  | .window origin record => Sys2Proof.Machine.execWindow origin record s
  | .service origin record => Sys2Proof.Machine.execService origin record s
  | .group origin record => Sys2Proof.Machine.execGroup origin record s
  | .arbiter origin record => Sys2Proof.Machine.execArbiter origin record s
  | .limits origin record => Sys2Proof.Machine.execLimits origin record s
  | .policy origin record => Sys2Proof.Machine.execPolicy origin record s
  | .applyStaged ref groups arbiter => Sys2Proof.Machine.execApplyStaged ref groups arbiter s
  | .ackError ref => Sys2Proof.Machine.execAckError ref s
  | .bypass ref => Sys2Proof.Machine.execBypass ref s
  | .resume ref => Sys2Proof.Machine.execResume ref s

end Sys2Proof.Machine
end

