-- ==== Sys2Proof/Machine/StationClock.lean ====
section
/-! DEFINITION. One tick of REFCLK (R188): station time rises by 1, and the expiries that have been reached become commands that
wait (DESIGN CHOICE, log 2). -/

namespace Sys2Proof.Machine

/-- The commands of the indexes that pass a test. -/
def commandsOf {n : Nat} (test : Fin n → Bool) (f : Fin n → Instr) : List Instr :=
  ((List.finRange n).filter test).map f

/-- The thirteen kinds, in the order of the error table. -/
def allKinds : List ErrorKind :=
  [.syncLoss, .sequenceBreak, .ingestOverrun, .playoutOvertake, .ccGap, .transportFlag, .malformedPacket, .fetchLate,
    .fetchFail, .contentGuard, .viewWrite, .reportWriteFail, .configError]

/-- The expiries that are due, as commands. -/
def State.dueCommands (s : State) : List Instr :=
  commandsOf s.silenceDue .silenceExpiry
    ++ commandsOf (fun i => due s.clock s.splice.records[i].closeExpiry) .insertionCloseExpiry
    ++ commandsOf (fun i => s.splice.records[i].bound.due s.clock) .returningStationBound
    ++ commandsOf s.runBoundDue .alertStationBound
    ++ commandsOf s.fetchDue .fetchDeadline
    ++ commandsOf (fun i => due s.clock s.alert.entries[i].durationExpiry) .alertDurationExpiry
    ++ commandsOf (fun i => due s.clock s.alert.entries[i].closeExpiry) .alertCloseExpiry
    ++ allKinds.flatMap fun k => commandsOf (fun i : Fin 64 => s.holdoffDue k i.val) (.holdoffExpiry k)

/-- One tick of REFCLK while nothing waits: the expiries now due wait in an order that is a free choice (DESIGN CHOICE, log 2, DESIGN CHOICE, log 16). -/
def State.tick (s : State) : State :=
  let s := { s with clock := s.clock + 1 }
  let due := s.dueCommands
  let (queue, free) := interleave due.length s.free (due.map fun c => [c])
  { s with pending := queue, free := free }

end Sys2Proof.Machine
end

