-- ==== Sys2Proof/Machine/Step.lean ====
section
/-! DEFINITION. One step: the command at the front of the queue, or a tick of REFCLK where none waits (DESIGN CHOICE,
log 1, log 2); a command takes no station time (DESIGN CHOICE, log 31). -/

namespace Sys2Proof.Machine

/-- The machine with its queue of waiting commands replaced. -/
def State.withPending (s : State) (queue : List Instr) : State := { s with pending := queue }

def step (s : State) : Host.Outcome State Fault Refusal :=
  match s.pending with
  | c :: rest => exec c (s.withPending rest)
  | [] => if s.resetHeld then .next s else .next s.tick

/-- The state with the command that a word spells put at the front of its queue; no word spells one (DEDUCED, log 27). -/
def State.withFetchWord (s : State) (nbits w : Nat) : State :=
  match decodeTableWord nbits w with
  | some c => s.withPending (c :: s.pending)
  | none => s

end Sys2Proof.Machine
end

