-- ==== Sys2Proof/Safety.lean ====
section
/-! DEFINITION. What the spec promises of every state after every step, in the terms the statements use. None of it is read by
the model. Each promise is stated for all states, so that it also says what a state that no run reaches must meet. -/

namespace Sys2Proof.Machine

/-! ## The report queue and the places kept for as-run records (R166, R167) -/

/-- As-run records among some bodies. -/
def asRuns (bodies : List ReportBody) : Nat := bodies.countP ReportBody.isAsRun

/-- The as-run records in the pending queue. -/
def queuedAsRuns (q : List ReportRecord) : Nat := q.countP fun r => r.body.isAsRun

/-- The general records in the pending queue are never more than 24 (R166). -/
abbrev State.QueueBounded (s : State) : Prop := generalCount s.report.queue ≤ Config.generalLimit

/-- The insertion records that are not FREE. -/
def SpliceEngine.inUse (u : SpliceEngine) : Nat := u.records.toList.countP fun r => r.state != .free

/-- The Alert Table entries that are not FREE. -/
def AlertUnit.inUse (u : AlertUnit) : Nat := u.entries.toList.countP fun e => e.state != .free

/-- The reservation count is the places in use: records not FREE, entries not FREE, as-run records in the queue (R167), and it
never exceeds 72. `owed` counts the places between two owners inside a step. The other fields are what keeps it so: a
service's current record is its own and ACTIVE (R91), and an expiry is armed only in the state that arms it (R110,
R115). -/
structure State.RoomFor (s : State) (owed : Nat) : Prop where
  balance : s.report.reservation = s.splice.inUse + s.alert.inUse + queuedAsRuns s.report.queue + owed
  bound : s.report.reservation ≤ Config.alertRoom
  current : ∀ (i : Fin 64) (r : Fin 68), s.splice.services[i].current = some r →
    s.splice.records[r].state = .active ∧ s.splice.records[r].service = i
  closing : ∀ r : Fin 68, s.splice.records[r].closeExpiry.isSome → s.splice.records[r].state = .closing
  entryClosing : ∀ i : Fin 4, s.alert.entries[i].closeExpiry.isSome → s.alert.entries[i].state = .closing
  entryActive : ∀ i : Fin 4, s.alert.entries[i].durationExpiry.isSome → s.alert.entries[i].state = .active

/-- Between two steps nothing is owed (R167). -/
def State.RoomKept (s : State) : Prop := s.RoomFor 0

/-! ## The as-run accounts (R111, R116) -/

/-- aired + lost + outstanding equals inserted (R111). -/
abbrev InsertionRecord.Balanced (r : InsertionRecord) : Prop := r.aired + r.lost + r.outstanding = r.inserted

/-- The sum over all services of aired and lost, plus outstanding, equals inserted (R116). -/
abbrev AlertEntry.Balanced (e : AlertEntry) : Prop := totalOf e.aired + totalOf e.lost + e.outstanding = e.inserted

/-- Every insertion record and every alert entry balances (R111, R116). -/
structure State.AccountsBalance (s : State) : Prop where
  records : ∀ r : Fin 68, s.splice.records[r].Balanced
  entries : ∀ i : Fin 4, s.alert.entries[i].Balanced

/-! ## The part state and its holds (R183, R189) -/

/-- The part is STARTING while RESET_N is asserted; in BYPASS only while the pin hold or the latch is set; OPERATING only
while both are clear (R183, R189). -/
structure State.PartFollowsHolds (s : State) : Prop where
  reset : s.resetHeld = true → s.fault.part = .starting
  operating : s.fault.part = .operating → s.fault.pinHold = false ∧ s.fault.latch = none
  bypass : s.fault.part = .bypass → s.fault.pinHold = true ∨ s.fault.latch.isSome

/-! ## The Window Table (R156) -/

/-- The entry's fields lie in their ranges (R156). -/
def WindowEntry.InRange : WindowEntry → Prop
  | .empty => True
  | .ingest base slots stride rate =>
    base % 64 = 0 ∧ 64 ≤ slots ∧ slots ≤ 4096 ∧ strideValid stride = true ∧ base + slots * stride ≤ addressLimit ∧
      Config.rateLow ≤ rate ∧ rate ≤ Config.rateHigh
  | .view base _ => base % 64 = 0
  | .cue base slots => base % 64 = 0 ∧ 16 ≤ slots ∧ slots ≤ 256 ∧ base + slots * 64 ≤ addressLimit
  | .report base records =>
    base % 64 = 0 ∧ 64 ≤ records ∧ records ≤ 65536 ∧ base + 64 + records * 128 ≤ addressLimit

/-- What R156 says holds of the table at all times. -/
structure State.TableHolds (s : State) : Prop where
  ranges : ∀ i : Fin 16, s.path.windows[i].InRange
  valid : tableValid s.path.windows s.definedContents = true

/-! ## Clocks, limits, shadows, ATTN -/

/-- Every clock's P lies from 256 × 65536 to 65536 × 65536 − 1 (R29, R36); every nominal rate lies in its range, from which a
start value is computed (R30, R156). -/
structure State.ClocksInRange (s : State) : Prop where
  rates : ∀ i : Fin 16, Config.rateLow ≤ rateOf s.path.windows[i] ∧ rateOf s.path.windows[i] ≤ Config.rateHigh
  clocks : ∀ (i : Fin 64) (c : Clock), s.timebase.clocks[i] = some c → pLow ≤ c.p ∧ c.p ≤ pHigh

/-- A value lies in the range of a LIMITS field (R194). -/
abbrev rangeHolds (r : Config.Range) (v : Nat) : Prop := r.low ≤ v ∧ v ≤ r.high

/-- Every LIMITS field lies in its range (R194). -/
structure State.LimitsInRange (s : State) : Prop where
  silence : rangeHolds Config.silenceRange s.limits.silence
  tolerance : rangeHolds Config.toleranceRange s.limits.tolerance
  close : rangeHolds Config.closeRange s.limits.close
  fetch : rangeHolds Config.fetchRange s.limits.fetch
  holdoff : rangeHolds Config.holdoffRange s.limits.holdoff
  threshold : rangeHolds Config.thresholdRange s.limits.threshold

/-- The cue-ring shadow and the boot shadow are in canonical form (DESIGN CHOICE, log 36). -/
structure State.ShadowsCanonical (s : State) : Prop where
  ring : ∀ r, s.cue.ring = some r → r.shadow.wf = true
  boot : ∀ b, s.loader.boot = some b → b.shadow.wf = true

/-- ATTN stands as its causes say (R174). -/
abbrev State.AttnRight (s : State) : Prop := s.report.attn = s.attnCause

/-! ## How a command ends -/

/-- The conditions under which R170 issues a write: a REPORT window at `base` with `records` record slots, its ring state
`r`, the path RUNNING, no write outstanding. -/
structure State.MayWrite (s : State) (base records : Nat) (r : ReportRing) : Prop where
  window : s.reportWindow = some (base, records)
  ring : s.report.ring = some r
  running : s.report.halted = false
  idle : r.outstanding = none

/-- The write that R170 issues from there: a header write while the header is pending (R171), otherwise a record write of the
queue's head while the ring has room; none where it issues none. -/
def State.reportWrite (s : State) (base records : Nat) (r : ReportRing) : Option ReportWrite :=
  if r.headerPending then some ⟨s.report.nextWrite, .header, base, headerBeats r.produced s.report.cueTaken⟩
  else
    match s.report.queue with
    | [] => none
    | head :: _ =>
      if (r.produced - r.consumed).toNat < records then
        some ⟨s.report.nextWrite, .record (if head.body.isAsRun then 0 else s.report.dropped),
          base + 64 + 128 * (r.produced.toNat % records), wholeBeats 8 (head.image s.report.dropped)⟩
      else none

/-- `t` is `s` with what ends every command done: the report write that R170 chooses, issued (R170, R171), and ATTN as its
causes say (R174); the rest of the state is that of `s`. -/
structure State.EndsAs (s t : State) : Prop where
  rest : t = { s with report := { s.report with
    ring := t.report.ring, writes := t.report.writes, nextWrite := t.report.nextWrite, attn := t.report.attn } }
  issued : ∀ base records r w, s.MayWrite base records r → s.reportWrite base records r = some w →
    t.report.ring = some { r with headerPending := false, outstanding := some s.report.nextWrite } ∧
      t.report.writes = s.report.writes ++ [w] ∧ t.report.nextWrite = s.report.nextWrite + 1
  quiet : (∀ base records r w, s.MayWrite base records r → s.reportWrite base records r ≠ some w) →
    t.report.ring = s.report.ring ∧ t.report.writes = s.report.writes ∧ t.report.nextWrite = s.report.nextWrite
  attn : t.report.attn = t.attnCause

/-- The Report Unit has been handed these records, in this order, and nothing else of the state has changed (R166). -/
def State.told (s : State) (bodies : List ReportBody) : State := s.produceAll bodies

/-- The processor-side port has those reads outstanding and no write burst, and nothing else goes on there: no request is
presented or held, the PASS request queue is not full and without a run of a burst to come, no staging buffer is VOID. -/
structure State.PortServes (s : State) (reads : List ProcRead) : Prop where
  held : s.path.held = []
  presented : s.path.presented = none
  openBurst : s.path.openBurst = none
  reads : s.path.reads = reads
  bursts : s.path.bursts = []
  room : s.path.passQueue.length < Config.passDepth
  runs : ∀ q ∈ s.path.passQueue, ∀ r, q = .write r → r.burst < s.path.nextBurst
  voids : ∀ b : Fin 8, ∀ u, s.path.staging[b] = some u → u.void = false

/-- The processor-side port is at rest: no read is outstanding either. -/
abbrev State.PortQuiet (s : State) : Prop := s.PortServes []

/-- A byte of an outstanding read is still to come: from memory, or, in OPERATING, from a staging buffer whose packet is not
complete (R137). -/
def State.Awaits (s : State) : ByteSource → Prop
  | .memory _ _ => True
  | .packet _ _ _ (.buffer b) => s.fault.part = .operating ∧ ∃ u, s.path.staging[b] = some u ∧ u.packet = none
  | _ => False

/-- Whatever reads and write bursts are outstanding, the processor-side port has nothing to accept and nothing to return: no
request is held, no write burst is being decoded, no byte of an outstanding read has come, no staging buffer is VOID. -/
structure State.PortWaits (s : State) : Prop where
  held : s.path.held = []
  openBurst : s.path.openBurst = none
  reads : ∀ r ∈ s.path.reads, ∃ beat rest, r.beats = beat :: rest ∧ beat.bytes ≠ [] ∧
    ∀ b ∈ r.beats, ∀ x ∈ b.bytes, s.Awaits x
  voids : ∀ b : Fin 8, ∀ u, s.path.staging[b] = some u → u.void = false

/-! ## How a view read is answered, and what its completion does (R111, R112, R116, R133, R137, R145) -/

/-- A view read of one beat, packet bytes `k .. k + 15` of a slot, each served from that staging buffer (R137). -/
def servedRead (tag : Nat) (slot : SlotRef) (k a : Nat) (b : Fin 8) : ProcRead :=
  ⟨tag, [⟨true, (List.range 16).map fun j => .packet slot (k + j) (a + j) (.buffer b)⟩]⟩

/-- An aired or a lost notice: a source that is not current is told nothing (R111, R116); a current one counts it and has one
disposition less outstanding, and a CLOSING one with none left closes: its as-run record is told, its content's hold is
released, it is FREE under the next generation (R112, R133; its other fields stay: DESIGN CHOICE, log 23). -/
def State.counted (s : State) (source : Source) (aired : Bool) : State :=
  match source with
  | .insertion r g =>
    let old := s.splice.records[r]
    let y : InsertionRecord :=
      { old with
        aired := if aired then old.aired + 1 else old.aired
        lost := if aired then old.lost else old.lost + 1
        outstanding := old.outstanding - 1 }
    if old.state = .free ∨ old.generation ≠ g then s
    else if old.state = .closing ∧ old.outstanding = 1 then
      ((s.onRecord r fun _ =>
        { y with unconfirmed := 0, state := .free, generation := g + 1, closeExpiry := none }).onContentEntry y.content fun e =>
          { e with useCount := e.useCount - 1 }).told [.asRun r { y with unconfirmed := 0 }]
    else s.onRecord r fun _ => y
  | .alert i g v =>
    let old := s.alert.entries[i]
    let e : AlertEntry :=
      { old with
        aired := if aired then old.aired.set v (old.aired[v] + 1) else old.aired
        lost := if aired then old.lost else old.lost.set v (old.lost[v] + 1)
        outstanding := old.outstanding - 1 }
    if old.state = .free ∨ old.generation ≠ g then s
    else if old.state = .closing ∧ old.outstanding = 1 then
      ((s.onEntry i fun _ =>
        { e with
          unconfirmed := 0, state := .free, generation := g + 1, durationExpiry := none
          closeExpiry := none }).onContentEntry e.content fun x =>
            { x with useCount := x.useCount - 1 }).told [.alertAsRun i { e with unconfirmed := 0 }]
    else s.onEntry i fun _ => e

/-- The prefetch buffer that a disposition names is released while its slot and take generation own it; one that is LOADING is FREE
once its data have come (R87). -/
def State.letGo (s : State) (named : Option (Fin 256)) (owner : Owner) : State :=
  match named with
  | none => s
  | some p =>
    if s.content.prefetch[p].owner = some owner then
      let released : Prefetch :=
        match s.content.prefetch[p] with
        | .loading _ target => .loading none target
        | _ => .free
      s.onContent fun c => { c with prefetch := c.prefetch.set p released }
    else s

/-- The completion of a slot from a buffer (R145): the played notice makes a TAKEN record of the buffer's take generation PLAYED
(R26), and that first answer alone gives the source the aired or lost notice that the outcome names; then the named prefetch
buffer, while it is the slot's, is released (R87). -/
def State.completed (s : State) (u : StagingUse) : State :=
  let r := s.slotRecord u.window u.slot
  let first : Bool := r.generation = u.generation ∧ (r.state = .rest .taken ∨ r.state = .filling .taken)
  let played : SlotState := if r.state = .rest .taken then .rest .played else .filling .played
  let noted := if first then s.onSlot u.window u.slot fun r => { r with state := played } else s
  match u.disposition.action with
  | .pass _ | .null => noted
  | .insert f =>
    let told :=
      match first, u.outcome with
      | true, .aired => noted.counted f.source true
      | true, .lost => noted.counted f.source false
      | _, _ => noted
    told.letGo f.prefetch ⟨u.window, u.slot, u.generation⟩

/-- The one outstanding read, packet bytes `k .. k + 15` of a slot, is answered from buffer `b`, which now holds `u` with that
packet: the beat is returned, the buffer's last use is now, and packet byte 187 completes the slot (R137, R145). -/
def State.beatFrom (s : State) (tag k : Nat) (b : Fin 8) (u : StagingUse) (packet : List Byte) : State :=
  let s := (s.onPath fun p => { p with reads := [] }).setStaging b (some { u with lastUse := s.clock })
  (if k + 15 = 187 then s.completed u else s).emit
    (.readBeat tag (some ((List.range 16).map fun j => byteAt packet (k + j))) true)

/-! ## What a take settles first (R25, R147) -/

/-- A take of a slot settles its old disposition: one that was not played is discarded with INGEST_OVERRUN for the window, at the
slot's byte 0, unless it bears the bypass take flag or the part is not OPERATING; its source gets a lost notice, and its prefetch
buffer is released (R25, R87, R111, R116). -/
def State.oldSettled (s : State) (w : Fin 16) (slot : Nat) : State :=
  let r := s.slotRecord w slot
  let unplayed : Bool := r.state = .rest .taken ∨ r.state = .filling .taken
  match unplayed, r.disposition with
  | true, some d =>
    let raised :=
      if d.bypassTake = true ∨ s.fault.part ≠ .operating then s
      else s.raise .ingestOverrun w.val (slotAddress s.path.windows[w] slot) none
    match d.action with
    | .insert f => (raised.counted f.source false).letGo f.prefetch ⟨w, slot, r.generation⟩
    | .pass _ | .null => raised
  | _, _ => s

/-- The staging buffer is built, or being built, for the slot as it was last taken (R136). -/
def State.Serves (s : State) (w : Fin 16) (slot : Nat) (b : Fin 8) : Prop :=
  ∃ u, s.path.staging[b] = some u ∧ u.window = w ∧ u.slot = slot ∧ u.generation = (s.slotRecord w slot).generation

/-- Bytes of outstanding reads are to be decided afresh: those that buffer `b` serves, and those of the slot that are in hand from
a reclaimed buffer (R147; DEDUCED, log 11). -/
def State.decidedAfresh (s : State) (w : Fin 16) (slot : Nat) (b : Option (Fin 8)) : State :=
  let again : SlotRef → Serving → Bool := fun at_ x =>
    match x with
    | .buffer b' => b = some b'
    | .reclaimed _ => at_.window = w ∧ at_.slot = slot
    | .undecided | .waiting => false
  let byte : ByteSource → ByteSource := fun x =>
    match x with
    | .packet at_ k a serving => .packet at_ k a (if again at_ serving = true then .undecided else serving)
    | x => x
  s.onPath fun p =>
    { p with reads := p.reads.map fun r => { r with beats := r.beats.map fun b => { b with bytes := b.bytes.map byte } } }

/-- What the demand fetch of a staging buffer is once the buffer has let it go: no longer on the wait list, or freed when its data
come (R89). -/
def State.demandLeft (s : State) (b : Fin 8) (wait : StagingWait) : State :=
  match wait with
  | .demandListed => s.onContent fun c => { c with demandWait := c.demandWait.filter fun q => q.1 != b }
  | .demand d =>
    match s.content.demand[d] with
    | .loading _ target => s.onContent fun c => { c with demand := c.demand.set d (.loading none target) }
    | _ => s
  | .nothing | .ringSlot | .prefetch _ => s

/-- A take of a slot settles the staging buffer of its old take generation: a HELD one is FREE, and what it serves is decided
afresh; an ASSEMBLING one is VOID, its deadline disarmed and its demand let go, with INGEST_OVERRUN at the slot's byte 0 (R147). -/
def State.stagingSettled (s : State) (w : Fin 16) (slot : Nat) : State :=
  let built := (List.finRange 8).find? fun b =>
    match s.path.staging[b] with
    | some u => decide (u.window = w ∧ u.slot = slot ∧ u.generation = (s.slotRecord w slot).generation)
    | none => false
  match built with
  | none => s.decidedAfresh w slot none
  | some b =>
    match s.path.staging[b] with
    | none => s
    | some u =>
      if u.held then (s.setStaging b none).decidedAfresh w slot (some b)
      else
        let void := some { u with void := true, packet := some nullPacket, deadline := none, wait := .nothing }
        (((s.setStaging b void).demandLeft b u.wait).raise .ingestOverrun w.val
          (slotAddress s.path.windows[w] slot) none).decidedAfresh w slot none

/-- Buffer `b` is the one that a claim takes: the lowest-numbered FREE one; where none is FREE, the HELD one used longest ago,
the lowest-numbered among equals (R137). -/
def State.ClaimTakes (s : State) (b : Fin 8) : Prop :=
  (s.path.staging[b] = none ∧ ∀ b' : Fin 8, b' < b → s.path.staging[b'] ≠ none) ∨
    ((∀ b' : Fin 8, s.path.staging[b'] ≠ none) ∧ ∃ u, s.path.staging[b] = some u ∧ u.held = true ∧
      ∀ (b' : Fin 8) u', s.path.staging[b'] = some u' → u'.held = true →
        (s.clock - u'.lastUse).toNat < (s.clock - u.lastUse).toNat ∨
          ((s.clock - u'.lastUse).toNat = (s.clock - u.lastUse).toNat ∧ b ≤ b'))

/-- The header reads of packets 0 .. n − 1 of a content for a service, numbered from `serial` on (R94). -/
def headerReads (service : Fin 64) (serial : Nat) (d : ContentDef) (n : Nat) : List MemRead :=
  (List.range n).map fun k =>
    beatsHolding (contentPacketAddress d k) 6 (.header service (serial + k) (contentPacketAddress d k))

/-- Their entries in a header queue, LOADING (R94). -/
def headerEntries (serial n : Nat) : List HeaderEntry := (List.range n).map fun k => ⟨k, serial + k, .loading⟩

/-- Alert entry `i` goes CLOSING from the fields `e`, its close expiry armed, or closes at once where nothing is outstanding: its
as-run record told, the hold of its content released, FREE under the next generation (R133). -/
def State.alertLeft (s : State) (i : Fin 4) (e : AlertEntry) : State :=
  let y : AlertEntry :=
    { e with
      state := .closing, endTime := some s.clock, durationExpiry := none
      closeExpiry := some (s.clock + BitVec.ofNat 48 (s.limits.close * 27000)) }
  if e.outstanding = 0 then
    ((s.onEntry i fun _ =>
      { y with unconfirmed := 0, state := .free, generation := y.generation + 1, closeExpiry := none }).onContentEntry e.content
        fun x => { x with useCount := x.useCount - 1 }).told [.alertAsRun i { y with unconfirmed := 0 }]
  else s.onEntry i fun _ => y

/-! ## An alert takes services (R113, R121, R124) -/

/-- The preempt request of a service: its alert hold is set, and the insertion that is ACTIVE on it goes CLOSING with end reason
PREEMPTED and its close expiry armed, or closes at once where nothing is outstanding (R112, R113; its other fields stay: DESIGN
CHOICE, log 23). -/
def State.preempted (s : State) (v : Fin 64) : State :=
  let rest : SpliceState := if s.splice.services[v].test.isSome then .armed else .idle
  match s.splice.services[v].current with
  | none => s.onFields v fun f => { f with alertHold := true, state := rest }
  | some r =>
    let y : InsertionRecord :=
      { s.splice.records[r] with
        state := .closing, endReason := some .preempted, endTime := s.clock, tReturn := none, deadline := none, bound := .unset
        closeExpiry := some (s.clock + BitVec.ofNat 48 (s.limits.close * 27000)) }
    let off := s.onFields v fun f =>
      { f with alertHold := true, current := none, runQueue := [], roleMap := [], state := rest }
    if y.outstanding = 0 then
      ((off.onRecord r fun _ =>
        { y with unconfirmed := 0, state := .free, generation := y.generation + 1, closeExpiry := none }).onContentEntry y.content
          fun e => { e with useCount := e.useCount - 1 }).told [.asRun r { y with unconfirmed := 0 }]
    else off.onRecord r fun _ => y

/-- A service goes AIRING for alert entry `i`, whose content is `d`: a run from packet 0, whose headers are asked for (R121, R124;
its offset until the run start: DESIGN CHOICE, log 43). -/
def State.airs (s : State) (v : Fin 64) (i : Fin 4) (d : ContentDef) : State :=
  let e := s.alert.entries[i]
  let n := min 16 d.packets
  let run : AlertRun := ⟨i, e.generation, e.mode, e.content, true, 0, 0, false, none, .unset⟩
  (((s.onAlert fun u => { u with overlays := u.overlays.set v (.airing i e.generation) }).onFields v fun f =>
    { f with run := some run, runQueue := headerEntries s.splice.nextHeader n }).onSplice fun u =>
      { u with nextHeader := u.nextHeader + n }).onPath fun p =>
        { p with fetchQueue := p.fetchQueue ++ headerReads v s.splice.nextHeader d n }

/-- It displaces alert entry `y` there, which notes by whom; `y` goes CLOSING where it is ENDING and that was its last service
(R121, R133). -/
def State.displacing (s : State) (v : Fin 64) (i y : Fin 4) (d : ContentDef) : State :=
  let aired := (s.onEntry y fun e =>
    { e with preemptedBy := e.preemptedBy.set v (some s.alert.entries[i].alertId) }).airs v i d
  if aired.alert.entries[y].state = .ending ∧
      ∀ k : Fin 64, aired.alert.overlays[k].names y = false then aired.alertLeft y aired.alert.entries[y]
  else aired

/-- Service `v` is offered to alert entry `i`, the one accepted last, and whether it takes the service (R121): always where the
overlay is NONE; where another alert airs, if that one's priority is lower, or equal, it being older; where another is RETURNING, if
no ACTIVE alert of higher priority covers the service. -/
def State.offered (s : State) (v : Fin 64) (i : Fin 4) (d : ContentDef) : State × Bool :=
  let x := s.alert.entries[i]
  match s.alert.overlays[v] with
  | .none => ((s.preempted v).airs v i d, true)
  | .airing y _ =>
    let old := s.alert.entries[y]
    if old.priority < x.priority ∨ (old.priority = x.priority ∧ old.startOrder ≠ x.startOrder) then (s.displacing v i y d, true)
    else (s, false)
  | .returning y _ =>
    if ∃ j : Fin 4, s.alert.entries[j].state = .active ∧ s.alert.entries[j].captured.getLsbD v.val = true ∧
        x.priority < s.alert.entries[j].priority then (s, false)
    else (s.displacing v i y d, true)

/-- The services of a set are offered to alert entry `i`, in rising order, and those that it takes (R120, R121). -/
def State.offeredAll (s : State) (i : Fin 4) (set : ServiceSet) (d : ContentDef) : State × ServiceSet :=
  (List.finRange 64).foldl
    (fun p v =>
      if set.getLsbD v.val = true then
        ((p.1.offered v i d).1, if (p.1.offered v i d).2 = true then p.2 ||| BitVec.twoPow 64 v.val else p.2)
      else p) (s, 0)

/-! ## The cue ring (R51, R52) -/

/-- The cue in the ring's head slot has been taken: read, its flag cleared, numbered with the count before the take, counted, the
new count handed to the Report Unit, the head moved to the next slot; then it is handled by its bytes (R52, R54). -/
def State.headTaken (s : State) (ring : CueRing) : State :=
  let b := ring.shadow.readBytes (64 * ring.head) 64
  let next : CueRing :=
    ⟨ring.shadow, ring.committed.set ring.head false, (ring.head + 1) % ring.committed.length, ring.taken + 1⟩
  ((s.onCue fun u => { u with ring := some next }).onReport fun u =>
    { u with cueTaken := ring.taken + 1, ring := u.ring.map fun r => { r with headerPending := true } }).handleCue
      ⟨ring.taken, ring.head, cueTag b⟩ b

/-- From `s`, `n` cues are taken in turn, and then, at `t`, none is to be taken: the head slot is not committed, there is no ring,
or the part is STARTING (R52). -/
inductive State.CuesTaken : Nat → State → State → Prop
  | rest (s : State) (h : s.fault.part = .starting ∨ ∀ ring, s.cue.ring = some ring →
      ring.committed.getD ring.head false = false) : CuesTaken 0 s s
  | next (n : Nat) (s t : State) (ring : CueRing) (h : s.fault.part ≠ .starting) (r : s.cue.ring = some ring)
      (c : ring.committed.getD ring.head false = true) (k : CuesTaken n (s.headTaken ring) t) : CuesTaken (n + 1) s t

/-! ## Arming the head of a cue queue (R59, R96) -/

/-- t90 at the index of the last take of the service's window, where there is one and the clock has a time there (R96). -/
def State.armedAt (s : State) (i : Fin 64) : Option Time90 :=
  match s.ingest.services[i] with
  | some v =>
    match s.ingest.assembly[v.window] with
    | some ⟨_, some (_, n)⟩ => s.t90 i n
    | _ => none
  | none => none

/-- A time cue that arms late: t90 at the arming index has reached T + W (R96). -/
def State.lateOn (s : State) (i : Fin 64) (cue : SpliceCue) : Bool :=
  !cue.mark && (s.armedAt i).any fun t => hasReached t (cue.t + BitVec.ofNat 33 cue.w)

/-- The cue test of a cue begins: its tolerance end is T + W of a time cue, t_arm + W of a mark cue; an IDLE service is ARMED; the
standby queue asks for the headers of the content's first 16 packets, or of all (R94, R96). -/
def State.testBegun (s : State) (i : Fin 64) (cue : SpliceCue) : State :=
  let asked (n : Nat) (reads : List MemRead) : State :=
    ((s.onSplice fun u => { u with nextHeader := u.nextHeader + n }).onPath fun p =>
      { p with fetchQueue := p.fetchQueue ++ reads }).onFields i fun f =>
        { f with
          test := some ⟨cue, if cue.mark then (s.armedAt i).map (· + BitVec.ofNat 33 cue.w)
            else some (cue.t + BitVec.ofNat 33 cue.w), none, false⟩
          state := if f.state = .idle then .armed else f.state
          standbyQueue := f.standbyQueue ++ headerEntries s.splice.nextHeader n }
  match s.content.entries[cue.content].definition with
  | some d => asked (min 16 d.packets) (headerReads i s.splice.nextHeader d (min 16 d.packets))
  | none => asked 0 []

/-- The head of a service's queue, at `s`, has been armed, at `t`: a head whose content is QUEUED or SCANNING waits; one whose
content is FAILED or FREE leaves with MISSED_CONTENT, and the next is armed in turn; one whose content is READY is ARMED: the
content is held, the cue test begins with its tolerance end and the headers of the first 16 packets, or all, are asked for; a late
one leaves again with MISSED_LATE, what it asked for standing, and the next is armed (R59, R94, R96, R100). -/
inductive State.HeadArmed (i : Fin 64) : State → State → Prop
  | empty (s : State) (q : s.cue.queues[i] = []) : State.HeadArmed i s s
  | waits (s : State) (e : QueueEntry) (rest : List QueueEntry) (q : s.cue.queues[i] = e :: rest)
      (c : s.content.entries[e.cue.content].state = .queued ∨ s.content.entries[e.cue.content].state = .scanning) :
      State.HeadArmed i s (s.onQueue i fun _ => ⟨e.cue, .waiting⟩ :: rest)
  | gone (s t : State) (e : QueueEntry) (rest : List QueueEntry) (q : s.cue.queues[i] = e :: rest)
      (c : s.content.entries[e.cue.content].state = .failed ∨ s.content.entries[e.cue.content].state = .free)
      (k : State.HeadArmed i ((s.onQueue i fun _ => rest).told [spliceAnswer i e.cue .missedContent none]) t) :
      State.HeadArmed i s t
  | armed (s : State) (e : QueueEntry) (rest : List QueueEntry) (q : s.cue.queues[i] = e :: rest)
      (c : s.content.entries[e.cue.content].state = .ready) (l : s.lateOn i e.cue = false) :
      State.HeadArmed i s (((s.testBegun i e.cue).onContentEntry e.cue.content fun x =>
        { x with useCount := x.useCount + 1 }).onQueue i fun _ => ⟨e.cue, .armed⟩ :: rest)
  | late (s t : State) (e : QueueEntry) (rest : List QueueEntry) (q : s.cue.queues[i] = e :: rest)
      (c : s.content.entries[e.cue.content].state = .ready) (l : s.lateOn i e.cue = true)
      (k : State.HeadArmed i ((((s.testBegun i e.cue).onFields i fun f =>
        { f with test := none, standbyQueue := [], state := if f.state = .armed then .idle else f.state }).onQueue i fun _ =>
          rest).told [spliceAnswer i e.cue .missedLate none]) t) :
      State.HeadArmed i s t

/-! ## A change of the Window Table (R158) -/

/-- Entry `i` of the Window Table is replaced by `e`, and the owners set up or drop the state that the change concerns, the row of
the old kind first: at a window whose slots hold nothing unplayed and have no staging buffer (R5, R27, R50, R158, R169). -/
def State.windowReplaced (s : State) (i : Fin 16) (e : WindowEntry) : State :=
  let placed := s.onPath fun p => { p with windows := p.windows.set i e }
  let stays : Bool :=
    match e with
    | .ingest _ _ _ _ => true
    | _ => false
  let viewless : WindowEntry → WindowEntry := fun x =>
    match x with
    | .view _ w => if w = i then .empty else x
    | x => x
  let dropped :=
    match s.path.windows[i] with
    | .empty | .view _ _ => placed
    | .cue _ _ => placed.onCue fun u => { u with ring := none }
    | .report _ _ => placed.onReport fun u => { u with ring := none }
    | .ingest _ _ _ _ =>
      let off := (placed.onSlots fun u => { u with records := u.records.set i [] }).onIngest fun u =>
        { u with assembly := u.assembly.set i none }
      if stays then off else off.onPath fun p => { p with windows := p.windows.map viewless }
  match e with
  | .empty | .view _ _ => dropped
  | .ingest _ slots _ _ => (dropped.onSlots fun u => { u with records := u.records.set i (List.replicate slots {}) }).onIngest
      fun u => { u with assembly := u.assembly.set i (some ⟨.seeking, none⟩) }
  | .cue _ slots => (dropped.onCue fun u => { u with ring := some ⟨[], List.replicate slots false, 0, 0⟩ }).onReport fun u =>
      { u with cueTaken := 0, ring := u.ring.map fun r => { r with headerPending := true } }
  | .report _ _ => dropped.onReport fun u => { u with ring := some ⟨0, 0, true, none⟩ }

/-! ## What a service packet is given (R46, R85, R93 to R95, R109, R111, R116) -/

/-- The head of a service's run queue has been used: it has left, and the entry of the packet behind the queue's last has joined as
LOADING with its read, in a run that loops modulo the packet count, otherwise while there is such a packet (R94). A head that was the only entry counts
as the last (DESIGN CHOICE, log 54). -/
def State.headUsed (s : State) (i : Fin 64) (cdef : ContentDef) (loops : Bool) : State :=
  let used := s.onFields i fun f => { f with runQueue := f.runQueue.tail }
  match s.splice.services[i].runQueue.getLast? with
  | none => used
  | some l =>
    let k := if loops then (l.packet + 1) % cdef.packets else l.packet + 1
    let address := contentPacketAddress cdef k
    let serial := s.splice.nextHeader
    if k < cdef.packets then
      ((used.onFields i fun f => { f with runQueue := f.runQueue ++ [⟨k, serial, .loading⟩] }).onSplice fun u =>
        { u with nextHeader := serial + 1 }).onPath fun p =>
          { p with fetchQueue := p.fetchQueue ++ [beatsHolding address 6 (.header i serial address)] }
    else used

/-- A run of a content starts for a service: the role map is formed, and with it the content delta of each component that a content
component maps to, last output CC + 1 − first CC, or 0 where either is absent (R95). -/
def State.runFormed (s : State) (i : Fin 64) (d : Service) (content : Fin 128) (cdef : ContentDef) : State :=
  let map := roleMap cdef.comps d.comps
  let delta := fun (o : OutputCC) (k : Nat) =>
    match o.last, s.content.entries[content].firstCC.getD k none with
    | some last, some first => last + 1 - first
    | _, _ => 0
  s.onFields i fun f =>
    { f with
      roleMap := map
      outputCC := f.outputCC.mapIdx fun j o =>
        match map.findIdx? (· == some j) with
        | some k => { o with contentDelta := some (delta o k) }
        | none => o }

/-- A service packet is given content packet `j` for component `comp`, whose entry of the service is `c`: the output counter that
continues the component's (R93), the mark owed where the header has a clock reference and the component is the clock's (R109), the
lowest-numbered FREE prefetch buffer, with its fetch, for the slot and the take to come (R85); the source counts one more inserted
and outstanding (R111, R116). `forced`: the mark that a run start without network time forces (R46). -/
def State.insertTaken (s : State) (d : Service) (x : TakeNotice) (source : Source) (content : Fin 128) (cdef : ContentDef)
    (j offset : Nat) (h : Header) (comp : Nat) (c : Component) (forced : Bool) : State × Action :=
  let f := s.splice.services[x.service]
  let given := (f.outputCC.getD comp {}).give true h.cc h.payload
  let owed := f.markPending && h.clockReference && comp == d.clock
  let address := contentPacketAddress cdef j
  let marked := s.onFields x.service fun f =>
    { f with outputCC := f.outputCC.set comp given.2, markPending := f.markPending && !owed }
  let buffer := (List.finRange 256).find? fun b => decide (s.content.prefetch[b] = .free)
  let fetched :=
    match buffer with
    | some b =>
      let loading : Prefetch := .loading (some ⟨x.window, x.slot, x.generation⟩) ⟨content, j, x.service, address⟩
      (marked.onContent fun u => { u with prefetch := u.prefetch.set b loading }).onPath fun p =>
          { p with fetchQueue := p.fetchQueue ++ [beatsHolding address 188 (.prefetch b)] }
    | none => marked
  let counted :=
    match source with
    | .insertion r _ => fetched.onRecord r fun y => { y with inserted := y.inserted + 1, outstanding := y.outstanding + 1 }
    | .alert e _ _ => fetched.onEntry e fun y => { y with inserted := y.inserted + 1, outstanding := y.outstanding + 1 }
  (counted, .insert ⟨⟨c.output, given.1, owed || forced⟩, source, j, offset, buffer⟩)

/-- The packet takes content packet `j` by the head of the run queue (R95), from the state `before`, which is `s` but for what the
packet settles first; `advanced` is what follows where j advances. READY and mapped: the INSERT. READY and not mapped: NULL. FAILED:
NULL and FETCH_FAIL. LOADING, or another head: NULL and FETCH_LATE, and j stays. -/
def State.TakesContent (s before : State) (d : Service) (x : TakeNotice) (source : Source) (content : Fin 128)
    (cdef : ContentDef) (j offset : Nat) (loops : Bool) (advanced : State → State) : Prop :=
  let i := x.service
  let f := s.splice.services[i]
  let address := contentPacketAddress cdef j
  (∀ serial h rest ci comp c, f.runQueue = ⟨j, serial, .ready h⟩ :: rest → cdef.comps.findIdx? (·.pid == h.pid) = some ci →
    f.roleMap.getD ci none = some comp → d.comps[comp]? = some c →
    let taken := before.insertTaken d x source content cdef j offset h comp c false
    s.decidePacket d x = (advanced (taken.1.headUsed i cdef loops), taken.2)) ∧
  (∀ serial h rest, f.runQueue = ⟨j, serial, .ready h⟩ :: rest →
    (cdef.comps.findIdx? (·.pid == h.pid)).bind (fun ci => f.roleMap.getD ci none) = none →
    s.decidePacket d x = (advanced (before.headUsed i cdef loops), .null)) ∧
  (∀ serial rest, f.runQueue = ⟨j, serial, .failed⟩ :: rest →
    s.decidePacket d x = ((advanced (before.headUsed i cdef loops)).raise .fetchFail i.val address none, .null)) ∧
  ((f.runQueue.head?.all fun e => decide (e.packet ≠ j ∨ e.state = .loading)) = true →
    s.decidePacket d x = (before.raise .fetchLate i.val address none, .null))

/-! ## The entry to BYPASS (R72, R90, R114, R134, R149, R184) -/

/-- The records that `v` has waiting behind those of `s`. -/
def State.added (s v : State) : List ReportBody := (v.report.queue.drop s.report.queue.length).map ReportRecord.body

/-- The holds of a content that end at entry to BYPASS: of ARMED cues, and of the insertions and alerts that close at once. -/
def State.bypassReleases (s : State) (c : Fin 128) : Nat :=
  (((List.finRange 64).flatMap fun i => s.cue.queues[i]).countP fun e => decide (e.state = .armed ∧ e.cue.content = c)) +
  ((List.finRange 64).countP fun i =>
    match s.splice.services[i].current with
    | some r => decide (s.splice.records[r].outstanding = 0 ∧ s.splice.records[r].content = c)
    | none => false) +
  (List.finRange 4).countP fun e => decide
    ((s.alert.entries[e].state = .active ∨ s.alert.entries[e].state = .ending) ∧ s.alert.entries[e].outstanding = 0 ∧
      s.alert.entries[e].content = c)

/-- `v` is `s` with the entry to BYPASS made, block by block; `answer` holds the DONE of a BYPASS cue. -/
structure State.Bypasses (s v : State) (answer : List ReportBody) : Prop where
  /-- Every service is IDLE and keeps its output continuity alone (R114). -/
  services : ∀ i : Fin 64, v.splice.services[i] = { outputCC := s.splice.services[i].outputCC }
  /-- The ACTIVE insertion of a service goes CLOSING with end reason BYPASS, or closes at once (R112, R114). -/
  current : ∀ (i : Fin 64) (r : Fin 68), s.splice.services[i].current = some r →
    let y : InsertionRecord :=
      { s.splice.records[r] with
        state := .closing, endReason := some .bypass, endTime := s.clock, tReturn := none, deadline := none, bound := .unset
        closeExpiry := some (s.clock + BitVec.ofNat 48 (s.limits.close * 27000)) }
    if y.outstanding = 0 then
      v.splice.records[r] = { y with unconfirmed := 0, state := .free, generation := y.generation + 1, closeExpiry := none } ∧
        .asRun r { y with unconfirmed := 0 } ∈ s.added v
    else v.splice.records[r] = y
  records : ∀ r : Fin 68, (∀ i : Fin 64, s.splice.services[i].current ≠ some r) → v.splice.records[r] = s.splice.records[r]
  /-- An ACTIVE or ENDING alert goes CLOSING with end reason BYPASS, or closes at once (R133, R134). -/
  ending : ∀ e : Fin 4, s.alert.entries[e].state = .active ∨ s.alert.entries[e].state = .ending →
    let y : AlertEntry :=
      { s.alert.entries[e] with
        state := .closing, endReason := some .bypass, endTime := some s.clock, durationExpiry := none
        closeExpiry := some (s.clock + BitVec.ofNat 48 (s.limits.close * 27000)) }
    if y.outstanding = 0 then
      v.alert.entries[e] = { y with unconfirmed := 0, state := .free, generation := y.generation + 1, closeExpiry := none } ∧
        .alertAsRun e { y with unconfirmed := 0 } ∈ s.added v
    else v.alert.entries[e] = y
  entries : ∀ e : Fin 4, s.alert.entries[e].state = .free ∨ s.alert.entries[e].state = .closing →
    v.alert.entries[e] = s.alert.entries[e]
  overlays : v.alert.overlays = Vector.replicate 64 .none
  maps : v.alert.activeMaps = s.alert.activeMaps ∧ v.alert.stagedMaps = s.alert.stagedMaps
  /-- Every cue queue is flushed, by rising service, each oldest entry first (R72); the DONE of a BYPASS cue is told too (R70). -/
  queues : (∀ i : Fin 64, v.cue.queues[i] = []) ∧ v.cue.ring = s.cue.ring ∧ v.cue.pendingApply = s.cue.pendingApply
  flushed : s.report.queue.countP (fun q => !q.body.isAsRun) + (s.cue.queues.toList.map List.length).sum + answer.length ≤ 24 →
    (((List.finRange 64).flatMap fun i => s.cue.queues[i].map fun e =>
      spliceAnswer i e.cue .flushed none).Sublist (s.added v)) ∧ answer.Sublist (s.added v)
  waiting : s.report.queue <+: v.report.queue ∧ v.report.reservation = s.report.reservation ∧
    v.report.holdoff = s.report.holdoff
  /-- Prefetch and demand buffers are released, the wait list is empty (R90), the holds that end are given back (R83). -/
  prefetch : ∀ b : Fin 256, v.content.prefetch[b] =
    match s.content.prefetch[b] with
    | .loading _ target => .loading none target
    | _ => .free
  demand : ∀ d : Fin 4, v.content.demand[d] =
    match s.content.demand[d] with
    | .loading _ target => .loading none target
    | _ => .free
  content : v.content.demandWait = [] ∧ v.content.scan = s.content.scan ∧ v.content.scanQueue = s.content.scanQueue
  held : ∀ c : Fin 128, v.content.entries[c] =
    { s.content.entries[c] with useCount := s.content.entries[c].useCount - s.bypassReleases c }
  /-- Every staging buffer is FREE (R149); the Path Unit's tables stand. -/
  path : v.path.staging = Vector.replicate 8 none ∧ v.path.windows = s.path.windows ∧
    v.path.activeTable = s.path.activeTable ∧ v.path.stagedTable = s.path.stagedTable ∧ v.path.phase = s.path.phase
  rest : v.ingest = s.ingest ∧ v.slots = s.slots ∧ v.timebase = s.timebase ∧ v.clock = s.clock ∧ v.limits = s.limits ∧
    v.loader = s.loader ∧ v.pending = s.pending

/-! ## Which commands occur, and which break the protocol of the ports -/

/-- Station time has reached an armed expiry (R188). -/
def Reached (now x : StationTime) : Prop := (now - x).toNat < 2 ^ 47

/-- The command is an expiry that is armed and reached (R39, R105, R112, R130, R131, R133, R142, R175, R188). -/
def State.Due (s : State) : Instr → Prop
  | .silenceExpiry i => ∃ c x, s.timebase.clocks[i] = some c ∧ c.silence = some x ∧ Reached s.clock x
  | .insertionCloseExpiry r => ∃ x, s.splice.records[r].closeExpiry = some x ∧ Reached s.clock x
  | .returningStationBound r => ∃ x, s.splice.records[r].bound = .armed x ∧ Reached s.clock x
  | .alertStationBound i => ∃ r x, s.splice.services[i].run = some r ∧ r.bound = .armed x ∧ Reached s.clock x
  | .fetchDeadline b => ∃ u x, s.path.staging[b] = some u ∧ u.deadline = some x ∧ Reached s.clock x
  | .alertDurationExpiry e => ∃ x, s.alert.entries[e].durationExpiry = some x ∧ Reached s.clock x
  | .alertCloseExpiry e => ∃ x, s.alert.entries[e].closeExpiry = some x ∧ Reached s.clock x
  | .holdoffExpiry k i => i.val < k.scopeSize ∧
      ∃ n x, s.report.holdoff[holdoffIndex k i.val] = .holding n x ∧ Reached s.clock x
  | _ => False

/-- The data of a read come in another number of beats than the read has (R151). -/
def State.WrongCount (s : State) (tag : Fin 32) (beats : List MemBeat) (test : ReadUse → Bool) : Prop :=
  ∃ u, s.path.tags[tag] = some u ∧ test u.read.use = true ∧ beats.length ≠ u.read.count

/-- The operands break the protocol of the ports: a write beat that does not continue its burst, or a 17th; a read burst that
runs past the last address (R151); data that do not fit their read; an EEPROM read of other than 64 bytes (R190). -/
def State.OffProtocol (s : State) (c : Instr) : Prop :=
  s.resetHeld = false ∧
    match c with
    | .processorWriteBeat beat _ _ _ =>
      ∃ next count, s.path.presented = some (next, count) ∧ (beat.toNat ≠ next ∨ 16 ≤ count)
    | .passThroughRead _ beat more | .viewRead _ beat more => 2 ^ 36 < beat.toNat + more.val + 1
    | .stagingSlotReadData tag beats => s.WrongCount tag beats fun u => match u with | .staging _ _ => true | _ => false
    | .prefetchDataArrival tag beats => s.WrongCount tag beats fun u => match u with | .prefetch _ => true | _ => false
    | .demandDataArrival tag beats => s.WrongCount tag beats fun u => match u with | .demand _ => true | _ => false
    | .headerReadData tag beats => s.WrongCount tag beats fun u => match u with | .header _ _ _ => true | _ => false
    | .scanReadData tag beats => s.WrongCount tag beats fun u => match u with | .scan _ _ => true | _ => false
    | .eepromRecordRead (.record bytes) => (∃ k, s.loader.stage = .eeprom k) ∧ bytes.length ≠ 64
    | _ => False

/-- The record is loaded at start-up, not carried in a cue (R192). -/
def loadedAtStart : Origin → Bool
  | .cue _ => false
  | .eeprom | .boot => true

/-- How the outcome of a configuration record is told: by the answer to its CONFIGURE cue, with the record kind as detail
(R67), or by the count of its source (R192). -/
def State.answered (s : State) (origin : Origin) (code : Byte) (o : CueOutcome) : State :=
  match origin with
  | .cue ref => s.told [cueAnswer ref 10 none none o (some code)]
  | .eeprom => s.onLoader fun u =>
      if o = .done then { u with eepromLoaded := u.eepromLoaded + 1 } else { u with eepromRefused := u.eepromRefused + 1 }
  | .boot => s.onLoader fun u =>
      if o = .done then { u with bootLoaded := u.bootLoaded + 1 } else { u with bootRefused := u.bootRefused + 1 }

end Sys2Proof.Machine
end

