-- ==== Sys2Proof/Certificates/Slice0/Obligations.lean ====
section
/-! DEFINITION. The statements for the provers. `U.EndsAs t` says that `t` is `U` with what ends every command (the report write
that R170 chooses, ATTN); `s.told bodies` is `s` with those records handed to the Report Unit. An equation of the whole next
state is the result, the completion and the frame at once: what `U` does not name is as in `s`. That the write is issued where the
command ends is the model's choice (DESIGN CHOICE, log 44), the byte order of a header write's counts its reading (DEDUCED, log 46).
The serial numbers `nextBurst`, `nextRequest`, `nextHeader` and `nextScan` and the record of outputs `ports` are the model's own
(DESIGN CHOICE, log 8, log 25). -/

open Sys2Proof Sys2Proof.Machine

/-! ## The machine -/

/-- A step with a command at the front of the queue is that command's exec, with the queue's rest (DESIGN CHOICE, log 1). -/
def Obligations.StepRunsTheFrontCommand : Prop :=
  ∀ (s : State) (c : Instr) (rest : List Instr), s.pending = c :: rest → step s = exec c { s with pending := rest }

/-- With nothing waiting, a step is one REFCLK cycle: station time rises by 1, and exactly the expiries that are then reached
wait, each once (DESIGN CHOICE, log 2; their order is free, DESIGN CHOICE, log 16). While RESET_N is asserted nothing moves (R188). -/
def Obligations.IdleStepIsOneTick : Prop :=
  ∀ s : State, s.pending = [] →
    (s.resetHeld = true → step s = .next s) ∧
    (s.resetHeld = false → ∃ t, step s = .next t ∧
      t = { s with clock := s.clock + 1, pending := t.pending, free := t.free } ∧
      t.pending.Nodup ∧ ∀ c, c ∈ t.pending ↔ State.Due { s with clock := s.clock + 1 } c)

/-- No command faults, and a command is refused exactly where its operands break the protocol of the ports (DESIGN CHOICE, log 6). -/
def Obligations.RefusedExactlyOffProtocol : Prop :=
  ∀ (c : Instr) (s : State), (∀ f, exec c s ≠ .fault f) ∧
    ∀ r, exec c s = .refused r ↔ r = .portProtocol ∧ s.OffProtocol c

/-- While RESET_N is asserted only its release, its assertion and the BYPASS_N pin act (R163, R189). -/
def Obligations.InResetOnlyThePinsAct : Prop :=
  ∀ (c : Instr) (s : State), s.resetHeld = true → c ≠ .resetNAssert → (∀ a b, c ≠ .resetNRelease a b) →
    c ≠ .bypassNAssert → c ≠ .bypassNRelease → exec c s = .next s

/-! ## Reset, start-up, the part state (10, 11) -/

/-- RESET_N asserted gives every block its reset value from any state; the pin hold follows the pin, and what waits outside the
part stays (DESIGN CHOICE, log 5). Of insertion records and alert entries that takes in the fields which R110 and R115 give no
value (DESIGN CHOICE, log 50). What the spec says stands then, block by block, the counts of every record and entry among it
(R50, R57, R73, R77, R85, R88, R110, R115, R117, R123, R136, R156, R160, R161, R164, R175, R178, R181, R183, R188, R194). -/
def Obligations.ResetLeavesTheSpecsValues : Prop :=
  (∀ s : State, exec .resetNAssert s = .next
    { State.reset with
      pending := s.pending, free := s.free, fault := { State.reset.fault with pinHold := s.fault.pinHold } }) ∧
  let s := State.reset
  s.clock = 0 ∧ s.limits = ⟨500, 180000, 5000, 20, 1000, 1⟩ ∧
  (∀ i : Fin 16, s.path.windows[i] = .empty ∧ s.slots.records[i] = []) ∧
  (∀ b : Fin 8, s.path.staging[b] = none) ∧ (∀ g : Fin 32, s.path.tags[g] = none) ∧
  s.path.passQueue = [] ∧ s.path.fetchQueue = [] ∧ s.path.demandQueue = [] ∧ s.path.phase = 0 ∧
  (∀ p : Fin 16, s.path.activeTable[p] = (if p.val < 10 then 0 else if p.val < 13 then 1 else if p.val < 15 then 3 else 2) ∧
    s.path.stagedTable[p] = s.path.activeTable[p]) ∧
  (∀ i : Fin 64, s.ingest.services[i] = none ∧ s.timebase.clocks[i] = none ∧ s.cue.queues[i] = [] ∧
    s.splice.services[i].run = none ∧ s.splice.services[i].runQueue = [] ∧ s.alert.overlays[i] = .none) ∧
  s.cue.ring = none ∧ s.cue.pendingApply = none ∧
  (∀ c : Fin 128, s.content.entries[c].state = .free ∧ s.content.entries[c].useCount = 0) ∧
  s.content.scanQueue = [] ∧ s.content.scan = none ∧ s.content.demandWait = [] ∧
  (∀ b : Fin 256, s.content.prefetch[b] = .free) ∧ (∀ d : Fin 4, s.content.demand[d] = .free) ∧
  (∀ r : Fin 68,
    let x := s.splice.records[r]
    x.state = .free ∧ x.generation = 0 ∧ x.inserted = 0 ∧ x.aired = 0 ∧ x.lost = 0 ∧ x.nulls = 0 ∧ x.outstanding = 0 ∧
      x.unconfirmed = 0) ∧
  (∀ e : Fin 4,
    let x := s.alert.entries[e]
    x.state = .free ∧ x.generation = 0 ∧ (∀ i : Fin 64, x.aired[i] = 0 ∧ x.lost[i] = 0 ∧ x.preemptedBy[i] = none) ∧
      x.inserted = 0 ∧ x.outstanding = 0 ∧ x.unconfirmed = 0 ∧ x.durationExpiry = none ∧ x.closeExpiry = none) ∧
  s.alert.startOrder = 0 ∧
  (∀ g : Fin 8, s.alert.activeMaps[g] = 0 ∧ s.alert.stagedMaps[g] = 0) ∧
  s.report.queue = [] ∧ s.report.production = 0 ∧ s.report.dropped = 0 ∧ s.report.reservation = 0 ∧
  s.report.ring = none ∧ s.report.cueTaken = 0 ∧ s.report.halted = false ∧ s.report.attn = false ∧
  (∀ h : Fin 388, s.report.holdoff[h] = .idle) ∧
  (∀ k : ErrorKind, s.fault.policy[errorNumber k] =
    ⟨false, if k = .reportWriteFail ∨ k = .configError then .bypass else .contain⟩) ∧
  s.fault.capture = none ∧ s.fault.part = .starting ∧ s.fault.latch = none

/-- The release of RESET_N in the modes that load: EEPROM begins the read of record 0, BOOT begins the snoop with an empty boot
shadow, EEPROM then BOOT does both, the snoop waiting. In TRANSPARENT mode, from reset, the latch is set with cause
TRANSPARENT, STARTED is the only record, the part is in BYPASS and ATTN is asserted, whatever the pin and whatever waits (R183,
R189, R190, R191, R193). That the steps of a read leave at its beginning is the model's choice (DESIGN CHOICE, log 26). -/
def Obligations.ReleaseStartsTheLoad : Prop :=
  (∀ (queue : List Instr) (free : Nat) (pin : Bool),
    let s : State := { State.reset with pending := queue, free := free, fault := { State.reset.fault with pinHold := pin } }
    exec (.resetNRelease false false) s = .next
      { s with
        resetHeld := false
        loader := { s.loader with mode := some .transparent, stage := .ended }
        fault := { s.fault with part := .bypass, latch := some .transparent }
        report := { s.report with
          queue := [⟨.started ⟨.transparent, none, .bypass, pin, 0, 0, 0, 0⟩, 0, 0⟩], production := 1, attn := true } }) ∧
  ∀ s : State, s.resetHeld = true →
    let s' : State := { s with resetHeld := false }
    (∃ t, exec (.resetNRelease false true) s = .next t ∧
      State.EndsAs ((s'.onLoader fun u => { u with mode := some .eeprom, stage := .eeprom 0 }).emit
        (.eepromRead (eepromSteps 0))) t) ∧
    (∃ t, exec (.resetNRelease true false) s = .next t ∧
      State.EndsAs (s'.onLoader fun u => { u with mode := some .boot, stage := .snoop, boot := some {} }) t) ∧
    (∃ t, exec (.resetNRelease true true) s = .next t ∧
      State.EndsAs ((s'.onLoader fun u => { u with mode := some .both, stage := .eeprom 0, boot := some {} }).emit
        (.eepromRead (eepromSteps 0))) t)

/-- A change of BYPASS_N outside OPERATING: the hold follows the pin, and the part state moves only from BYPASS to OPERATING,
when the pin is released with the latch clear (R185, R186). -/
def Obligations.PinMovesTheHold : Prop :=
  ∀ s : State,
    (s.resetHeld = true →
      exec .bypassNAssert s = .next (s.onFault fun u => { u with pinHold := true }) ∧
      exec .bypassNRelease s = .next (s.onFault fun u => { u with pinHold := false })) ∧
    (s.resetHeld = false → s.fault.part ≠ .operating → s.fault.pinHold = false →
      ∃ t, exec .bypassNAssert s = .next t ∧ State.EndsAs (s.onFault fun u => { u with pinHold := true }) t) ∧
    (s.resetHeld = false → s.fault.pinHold = true →
      ∃ t, exec .bypassNRelease s = .next t ∧
        State.EndsAs (s.onFault fun u =>
          { u with
            pinHold := false
            part := if u.part = .bypass ∧ u.latch = none then .operating else u.part }) t)

/-- How a part enters BYPASS from OPERATING, by the pin or by a BYPASS cue, block by block: each service's current insertion,
and each ACTIVE or ENDING alert, goes CLOSING with end reason BYPASS and its close expiry armed, or closes at once with its
as-run record where nothing is outstanding; every cue queue is flushed with its FLUSHED answers; the content holds that end are
given back; every prefetch, demand and staging buffer is released; output continuity, tables, slots and clocks stay (R70, R72,
R83, R90, R112, R114, R133, R134, R149, R184, R185). A record or an entry that closes at once keeps its other fields while FREE
(DESIGN CHOICE, log 23); in which order the records of several blocks are told is free (DESIGN CHOICE, log 16). Stated from a
state whose room is kept, as every step keeps it; the answers where the queue has room for them. -/
def Obligations.BypassEntry : Prop :=
  ∀ (s : State) (ref : CueRef), s.resetHeld = false → s.fault.part = .operating → s.fault.latch = none →
    s.fault.pinHold = false → s.RoomKept →
    ∃ t u, exec .bypassNAssert s = .next t ∧ exec (.bypass ref) s = .next u ∧
      t.fault = { s.fault with part := .bypass, pinHold := true } ∧
      u.fault = { s.fault with part := .bypass, latch := some .cue } ∧ t.report.attn = true ∧ u.report.attn = true ∧
      s.Bypasses t [] ∧ s.Bypasses u [cueAnswer ref 13 none none .done none]

/-- The read of EEPROM record `k` ends (R190, R192): a record that is not END is handed to its owner and counted, and the next
read begins; END ends start-up in EEPROM mode and begins the boot snoop in the mode of both; an unreadable read ends start-up.
That the steps of a read leave at its beginning is the model's choice (DESIGN CHOICE, log 26). The boot snoop (R191): the copy
of a forwarded beat below 0x4000 writes the boot shadow, and a beat that enables bytes 56..63 of a slot commits it; while the
snoop runs and the head slot is committed it is taken: a record is handed to its owner and counted, END ends start-up, and an
unknown kind fails it, with CONFIG_ERROR and STARTED naming the slot (R183, R193). Stated for a record before the last of its
source, an END with the pin hold and the latch clear, the end of start-up with no CUE window, and a take with the next slot not
committed. -/
def Obligations.EepromRecordHandled : Prop :=
  (∀ (s : State) (k : Nat) (bytes : List Byte), s.resetHeld = false → s.loader.stage = .eeprom k → bytes.length = 64 →
    (∀ r, recordKindByte bytes ≠ 0xFF → configRecord bytes = some r → k < 255 →
      ∃ t, exec (.eepromRecordRead (.record bytes)) s = .next t ∧
        State.EndsAs ((((s.configure true r).1.onLoader fun u =>
          if (s.configure true r).2 = .done then { u with eepromLoaded := u.eepromLoaded + 1 }
          else { u with eepromRefused := u.eepromRefused + 1 }).onLoader fun u => { u with stage := .eeprom (k + 1) }).emit
            (.eepromRead (eepromSteps (k + 1)))) t) ∧
    (recordKindByte bytes = 0xFF → s.loader.mode = some .eeprom → s.fault.pinHold = false → s.fault.latch = none →
      s.cue.ring = none →
      ∃ t, exec (.eepromRecordRead (.record bytes)) s = .next t ∧
        State.EndsAs (((s.onLoader fun u => { u with stage := .ended, boot := none }).told
          [.started ⟨.eeprom, none, .operating, false, s.loader.eepromLoaded, s.loader.eepromRefused, s.loader.bootLoaded,
            s.loader.bootRefused⟩]).onFault fun u => { u with part := .operating }) t) ∧
    (∀ boot, recordKindByte bytes = 0xFF → s.loader.mode = some .both → s.loader.boot = some boot →
      boot.committed.getD boot.head false = false →
      ∃ t, exec (.eepromRecordRead (.record bytes)) s = .next t ∧ (s.onLoader fun u => { u with stage := .snoop }).EndsAs t) ∧
    (∀ step, s.fault.part = .starting → s.cue.ring = none →
      ∃ t, exec (.eepromRecordRead (.unreadable step)) s = .next t ∧ t.fault.part = .bypass ∧
        t.fault.latch = some (s.fault.latch.getD .config) ∧ t.loader.stage = .ended ∧ t.loader.boot = none ∧
        t.path.windows = s.path.windows ∧ t.ingest = s.ingest)) ∧
  ∀ (s : State) (boot : BootShadow) (address : Nat) (data : BeatData) (enables : Enables), s.loader.boot = some boot →
    (0x4000 ≤ address → s.bootBeat address data enables = s) ∧
    (address < 0x4000 →
      let next : BootShadow :=
        { boot with
          shadow := boot.shadow.writeLanes address data (enabledLanes enables)
          committed :=
            if address % 64 = 48 ∧ ∀ k < 16, 8 ≤ k → enables.getLsbD k = true then boot.committed.set (address / 64) true
            else boot.committed }
      let bytes := next.shadow.readBytes (64 * next.head) 64
      let taken := s.onLoader fun u =>
        { u with boot := some { next with committed := next.committed.set next.head false, head := next.head + 1 } }
      (s.loader.stage ≠ .snoop ∨ next.committed.getD next.head false = false →
        s.bootBeat address data enables = s.onLoader fun u => { u with boot := some next }) ∧
      (s.loader.stage = .snoop → next.committed.getD next.head false = true →
        next.committed.getD (next.head + 1) false = false →
        (∀ r, recordKindByte bytes ≠ 0xFF → configRecord bytes = some r → next.head < 255 →
          s.bootBeat address data enables = (taken.configure true r).1.onLoader fun u =>
            if (taken.configure true r).2 = .done then { u with bootLoaded := u.bootLoaded + 1 }
            else { u with bootRefused := u.bootRefused + 1 }) ∧
        (recordKindByte bytes = 0xFF → s.fault.pinHold = false → s.fault.latch = none → s.cue.ring = none →
          s.bootBeat address data enables = ((s.onLoader fun u => { u with stage := .ended, boot := none }).told
            [.started ⟨s.loader.mode.getD .transparent, none, .operating, false, s.loader.eepromLoaded, s.loader.eepromRefused,
              s.loader.bootLoaded, s.loader.bootRefused⟩]).onFault fun u => { u with part := .operating }) ∧
        (recordKindByte bytes ≠ 0xFF → configRecord bytes = none → s.fault.part = .starting → s.cue.ring = none →
          let v := s.bootBeat address data enables
          v.fault.part = .bypass ∧ v.fault.latch = some (s.fault.latch.getD .config) ∧ v.loader.stage = .ended ∧
            v.loader.boot = none ∧ v.path.windows = s.path.windows ∧ v.ingest = s.ingest ∧
            (s.report.queue.countP (fun q => !q.body.isAsRun) < 23 →
              .started ⟨s.loader.mode.getD .transparent, some ⟨true, boot.head, .unknownKind⟩, .bypass, s.fault.pinHold,
                s.loader.eepromLoaded, s.loader.eepromRefused, s.loader.bootLoaded, s.loader.bootRefused⟩ ∈ s.added v))))

/-! ## The processor-side port and memory's answers (07, 08) -/

/-- A write of one beat with an enabled byte in a VIEW, or else with one in the region of a held content, is refused: no byte of
it goes on, the response is ERROR, and VIEW_WRITE or CONTENT_GUARD is raised with the lowest such byte (R84, R153, R154). -/
def Obligations.RefusedWriteBeat : Prop :=
  ∀ (s : State) (beat : BeatAddr) (data : BeatData) (enables : Enables) (lane : Fin 16),
    s.resetHeld = false → s.PortQuiet → enables.getLsbD lane.val = true →
    let a := 16 * beat.toNat + lane.val
    let refused := (s.onPath fun p => { p with nextBurst := p.nextBurst + 1 }).emit (.writeResponse s.path.nextBurst false)
    (s.inView a = true → (∀ k < lane.val, enables.getLsbD k = true → s.inView (16 * beat.toNat + k) = false) →
      ∃ t, exec (.processorWriteBeat beat data enables true) s = .next t ∧
        (refused.raise .viewWrite 0 a none).EndsAs t) ∧
    ((∀ k < 16, enables.getLsbD k = true → s.inView (16 * beat.toNat + k) = false) → s.guarded a = true →
      (∀ k < lane.val, enables.getLsbD k = true → s.guarded (16 * beat.toNat + k) = false) →
      ∃ t, exec (.processorWriteBeat beat data enables true) s = .next t ∧
        (refused.raise .contentGuard 0 a none).EndsAs t)

/-- A write of one beat that touches no view and no held content is forwarded: one write run waits in the PASS request queue,
its response is owed, and the blocks that watch its bytes get their copies in this order: the Ingest Parser, the Cue Unit, the
Report Unit, the Start-up Loader. Where no enabled byte lies in a window or in the boot block being snooped, no block acts on
them (R153, R154, R155). That the blocks act in that order is the model's reading (DEDUCED, log 29). What each block does with
its copy is stated by IngestWriteAssembled, CommitTakesTheHeadCue, ConsumedCountIsClamped and EepromRecordHandled. -/
def Obligations.ForwardedWriteBeat : Prop :=
  ∀ (s : State) (beat : BeatAddr) (data : BeatData) (enables : Enables), s.resetHeld = false → s.PortQuiet →
    (∀ k < 16, enables.getLsbD k = true →
      s.inView (16 * beat.toNat + k) = false ∧ s.guarded (16 * beat.toNat + k) = false) →
    let a := 16 * beat.toNat
    let queued := s.onPath fun p =>
      { p with
        nextBurst := p.nextBurst + 1
        bursts := [⟨p.nextBurst, false, false, 1, true⟩]
        passQueue := p.passQueue ++ [.write ⟨p.nextBurst, beat.toNat, [(data, enables)], true⟩] }
    (∃ t, exec (.processorWriteBeat beat data enables true) s = .next t ∧
      State.EndsAs ((((queued.ingestBeat a data enables).cueBeat a data enables).reportBeat a data enables).bootBeat
        a data enables) t) ∧
    ((∀ k < 16, enables.getLsbD k = true → windowAt s.path.windows (a + k) = none) →
      (s.loader.boot = none ∨ 0x4000 ≤ a) → windowAt s.path.windows a = none →
      ∃ t, exec (.processorWriteBeat beat data enables true) s = .next t ∧ queued.EndsAs t)

/-- A beat that enables all four bytes of the consumed-count field of the REPORT window at `base` sets the consumed count to the
value written, or to the produced count where the value is ahead of it or behind the consumed count; a beat at another address,
or with a byte of the four not enabled, changes nothing in the Report Unit. The third part is a forwarded one-beat write to the
header, with no other block watching (R172). That the count lies little-endian is the model's reading (DEDUCED, log 46). -/
def Obligations.ConsumedCountIsClamped : Prop :=
  ∀ (s : State) (base records : Nat) (r : ReportRing) (data : BeatData),
    s.reportWindow = some (base, records) → s.report.ring = some r →
    let v : Count32 := data.extractLsb' 0 32
    let clamped : ReportRing :=
      { r with consumed := if (v - r.consumed).toNat ≤ (r.produced - r.consumed).toNat then v else r.produced }
    (∀ (address : Nat) (enables : Enables), (address = base ∧ ∀ k < 4, enables.getLsbD k = true) →
      s.reportBeat address data enables = s.onReport fun u => { u with ring := some clamped }) ∧
    (∀ (address : Nat) (enables : Enables), ¬ (address = base ∧ ∀ k < 4, enables.getLsbD k = true) →
      s.reportBeat address data enables = s) ∧
    (∀ (beat : BeatAddr) (w : Fin 16), s.resetHeld = false → s.PortQuiet → s.loader.boot = none →
      base = 16 * beat.toNat → s.path.windows[w] = .report base records →
      (∀ k < 4, windowAt s.path.windows (base + k) = some w ∧ s.guarded (base + k) = false) →
      ∃ t, exec (.processorWriteBeat beat data 0x000F true) s = .next t ∧
        State.EndsAs ((s.onPath fun p =>
          { p with
            nextBurst := p.nextBurst + 1
            bursts := [⟨p.nextBurst, false, false, 1, true⟩]
            passQueue := p.passQueue ++ [.write ⟨p.nextBurst, beat.toNat, [(data, 0x000F)], true⟩] }).onReport fun u =>
          { u with ring := some clamped }) t)

/-- A forwarded beat outside the CUE window changes nothing in the Cue Unit. One in it copies its enabled bytes into the shadow,
and commits its slot where it enables all of the slot's bytes 56..63, and in no other case (R51). Then cues are taken from the
head slot, one after another, while it is committed and the part is OPERATING or in BYPASS; none is taken where the slot
committed is not the head, or in STARTING (R52). What one take does is `headTaken`: flag cleared, numbered with the count
before, counted, head moved, the count handed to the Report Unit, then handled by its bytes. The third part is the beat at the
port, where it takes nothing, stated where the Window Table is as R156 keeps it, so that no window shares a byte with the CUE
window. Stated for up to 256 takes at one beat, the slots of the largest ring. -/
def Obligations.CommitTakesTheHeadCue : Prop :=
  (∀ (s : State) (address : Nat) (data : BeatData) (enables : Enables),
    (∀ w base slots, windowAt s.path.windows address = some w → s.path.windows[w] ≠ .cue base slots) →
    s.cueBeat address data enables = s) ∧
  ∀ (s : State) (w : Fin 16) (base slots address : Nat) (ring : CueRing) (data : BeatData) (enables : Enables),
    windowAt s.path.windows address = some w → s.path.windows[w] = .cue base slots → s.cue.ring = some ring →
    let offset := address - base
    let written := s.onCue fun u =>
      { u with ring := some { ring with
          shadow := ring.shadow.writeLanes offset data (enabledLanes enables)
          committed :=
            if offset % 64 = 48 ∧ ∀ k < 16, 8 ≤ k → enables.getLsbD k = true then ring.committed.set (offset / 64) true
            else ring.committed } }
    (∀ n t, n ≤ 256 → State.CuesTaken n written t → s.cueBeat address data enables = t) ∧
    ∀ beat : BeatAddr, address = 16 * beat.toNat → State.CuesTaken 0 written written → s.resetHeld = false → s.PortQuiet →
      s.TableHolds → s.loader.boot = none →
      (∀ k < 16, enables.getLsbD k = true → windowAt s.path.windows (address + k) = some w ∧ s.guarded (address + k) = false) →
      ∃ t, exec (.processorWriteBeat beat data enables true) s = .next t ∧
        State.EndsAs (written.onPath fun p =>
          { p with
            nextBurst := p.nextBurst + 1
            bursts := [⟨p.nextBurst, false, false, 1, true⟩]
            passQueue := p.passQueue ++ [.write ⟨p.nextBurst, beat.toNat, [(data, enables)], true⟩] }) t

/-- The memory's answer to a write run: the response of its burst is returned when every run has been answered, OK only where
no beat was refused and every run received OK; the burst waits on while another run is out (R154). A response names its run by
its place among those in flight (DESIGN CHOICE, log 8). -/
def Obligations.WriteRunAnswered : Prop :=
  ∀ (s : State) (i burst : Nat) (b : WriteBurst) (ok : Bool), s.resetHeld = false →
    s.path.issuedRuns[i]? = some burst → s.path.bursts = [b] → b.serial = burst → b.decided = true → 1 ≤ b.runs →
    let s' := s.onPath fun p => { p with issuedRuns := p.issuedRuns.eraseIdx i }
    (b.runs = 1 →
      ∃ t, exec (.forwardedWriteResponse i ok) s = .next t ∧
        State.EndsAs ((s'.onPath fun p => { p with bursts := [] }).emit
          (.writeResponse burst (!b.refused && !b.failed && ok))) t) ∧
    (1 < b.runs →
      ∃ t, exec (.forwardedWriteResponse i ok) s = .next t ∧
        State.EndsAs (s'.onPath fun p =>
          { p with bursts := [{ b with runs := b.runs - 1, failed := b.failed || !ok }] }) t)

/-- A read burst that touches no view byte, presented at a port at rest, waits in the PASS request queue whole, and each of its
bytes is to come from that one memory read (R151, R155). Both read rows class by the bytes touched (DEDUCED, log 33). -/
def Obligations.PassThroughReadWaitsWhole : Prop :=
  ∀ (s : State) (tag : Nat) (beat : BeatAddr) (more : Fin 16) (c : Instr),
    c = .passThroughRead tag beat more ∨ c = .viewRead tag beat more →
    s.resetHeld = false → s.PortQuiet → beat.toNat + more.val + 1 ≤ 2 ^ 36 →
    (∀ k < 16 * (more.val + 1), viewAt s.path.windows (16 * beat.toNat + k) = none) →
    ∃ t, exec c s = .next t ∧
      State.EndsAs (s.onPath fun p =>
        { p with
          passQueue := p.passQueue ++ [.read ⟨beat.toNat, more.val + 1, .pass p.nextRequest⟩]
          nextRequest := p.nextRequest + 1
          reads := [⟨tag, (List.range (more.val + 1)).map fun i =>
            ⟨false, (List.range 16).map fun j => .memory p.nextRequest (16 * i + j)⟩⟩] }) t

/-- One beat of a read returns while that read alone is outstanding and its beats wait on nothing else: the beat goes to the
processor with its data and status, and with the last beat the memory tag is given back and the read ends. A pass-through beat
that came with an error carries its data, a beat of a view burst with bytes in a VIEW window carries none (R135, R151, R155;
DEDUCED, log 19). -/
def Obligations.ReadBeatReturned : Prop :=
  ∀ (s : State) (tag : Fin 32) (ptag beat count got request : Nat) (split : Bool) (view : Nat → Bool) (data : BeatData)
    (ok : Bool), s.resetHeld = false → s.path.held = [] → s.path.openBurst = none →
    (∀ b : Fin 8, ∀ u, s.path.staging[b] = some u → u.void = false) → got < count →
    s.path.tags[tag] = some ⟨⟨beat, count, if split then .view request else .pass request⟩, got⟩ →
    (let row := fun i : Nat => ReadBeat.mk (view i) ((List.range 16).map fun j => .memory request (16 * i + j))
     s.path.reads = [⟨ptag, (List.range (count - got)).map fun i => row (got + i)⟩] →
     ∃ t, exec (if split then .viewPrefixReadData tag data ok else .passThroughReadData tag data ok) s = .next t ∧
      State.EndsAs ((s.onPath fun p =>
        { p with
          tags := p.tags.set tag
            (if got + 1 < count then some ⟨⟨beat, count, if split then .view request else .pass request⟩, got + 1⟩ else none)
          reads := if got + 1 < count then
              [⟨ptag, (List.range (count - got - 1)).map fun i => row (got + 1 + i)⟩]
            else [] }).emit
        (.readBeat ptag (if ok || !view got then some (beatBytes data) else none) ok)) t)

/-- A one-beat view read, at a port at rest, of a beat of packet bytes alone, `k .. k+15` of a slot for whose record's take
generation a buffer HOLDS the packet is returned at once from it, and the buffer's last use becomes now. A beat with packet byte
187 completes the slot besides: a TAKEN record becomes PLAYED, and with that first answer alone the source of an INSERT is told
the outcome: AIRED raises its aired count, LOST its lost count, one disposition less is outstanding, and a CLOSING source with
none left closes with its as-run record; the prefetch buffer that the disposition names is released while the slot owns it (R26,
R87, R111, R112, R116, R133, R135, R137, R145). In a burst whose beat before it has no byte in a VIEW, that beat is read from
memory by a pass-through read of its own and stays a pass-through beat, and the view beat, served from the buffer, waits behind
it (R135, R155). That a read under the name of the other row is served alike is the model's reading (DEDUCED, log 33), that a
record or an entry which closes keeps its other fields while FREE its choice (DESIGN CHOICE, log 23). -/
def Obligations.ViewReadFromHeldBuffer : Prop :=
  ∀ (s : State) (tag : Nat) (beat : BeatAddr) (w : Fin 16) (slot base k a : Nat) (b : Fin 8) (u : StagingUse)
    (packet : List Byte), s.resetHeld = false → s.PortQuiet → s.fault.part = .operating →
    (∀ j < 16, wantAt s.path.windows (16 * beat.toNat + j) = .packet ⟨w, slot, base⟩ (k + j) (a + j)) →
    s.path.staging[b] = some u → u.held = true → u.packet = some packet → u.window = w → u.slot = slot →
    u.generation = (s.slotRecord w slot).generation → (∀ b' : Fin 8, ∀ u', s.path.staging[b'] = some u' →
      u'.window = w → u'.slot = slot → u'.generation = (s.slotRecord w slot).generation → b' = b) →
    (∀ c, c = .viewRead tag beat 0 ∨ c = .passThroughRead tag beat 0 →
      ∃ t, exec c s = .next t ∧ (s.beatFrom tag k b u packet).EndsAs t) ∧
    ∀ first : BeatAddr, first.toNat + 1 = beat.toNat →
      (∀ j < 16, viewAt s.path.windows (16 * first.toNat + j) = none) →
      ∀ c, c = .viewRead tag first 1 ∨ c = .passThroughRead tag first 1 →
        ∃ t, exec c s = .next t ∧
          State.EndsAs (s.onPath fun p =>
            { p with
              passQueue := p.passQueue ++ [.read ⟨first.toNat, 1, .view p.nextRequest⟩]
              nextRequest := p.nextRequest + 1
              reads := [⟨tag, [⟨false, (List.range 16).map fun j => .memory p.nextRequest j⟩,
                ⟨true, (List.range 16).map fun j => .packet ⟨w, slot, base⟩ (k + j) (a + j) (.buffer b)⟩]⟩] }) t

/-- A one-beat view read, at a port at rest, of packet bytes of a slot that no buffer serves. The slot never taken, or filling:
an overtake, with the null packet's bytes and PLAYOUT_OVERTAKE once at the slot's byte 0, and no slot record or buffer changes
(stated for severity CONTAIN). The slot TAKEN or PLAYED: while all 8 buffers are ASSEMBLING the read waits for one, and
otherwise a buffer is claimed for its take generation and disposition. A NULL one, and an INSERT whose source is not current,
are served the null packet at once; an INSERT whose prefetch buffer is the slot's and READY the rewritten content packet,
outcome AIRED, FAILED the null packet, outcome LOST; while it is LOADING, and by a demand fetch where no buffer of the slot is
named, the read waits under the fetch deadline; for a PASS it waits for the ring-slot read (R88, R137 to R141, R145). A record
or an entry which closes with that beat's completion keeps its other fields while FREE (DESIGN CHOICE, log 23). -/
def Obligations.ViewReadOvertakes : Prop :=
  (∀ (s : State) (tag : Nat) (beat : BeatAddr) (w : Fin 16) (slot base k a : Nat), s.resetHeld = false → s.PortQuiet →
    s.fault.part = .operating → s.fault.policy[errorNumber .playoutOvertake].severity = .contain →
    (∀ j < 16, wantAt s.path.windows (16 * beat.toNat + j) = .packet ⟨w, slot, base⟩ (k + j) (a + j)) →
    (s.slotRecord w slot).state = .rest .empty ∨ (∃ prior, (s.slotRecord w slot).state = .filling prior) →
    (∀ b : Fin 8, ∀ u, s.path.staging[b] = some u →
      ¬ (u.window = w ∧ u.slot = slot ∧ u.generation = (s.slotRecord w slot).generation)) →
    ∃ t, exec (.viewRead tag beat 0) s = .next t ∧
      State.EndsAs ((s.raise .playoutOvertake w.val base none).emit
        (.readBeat tag (some ((List.range 16).map fun j => byteAt nullPacket (k + j))) true)) t) ∧
  (∀ (s : State) (tag : Nat) (beat : BeatAddr) (w : Fin 16) (slot base k a : Nat) (d : Disposition), s.resetHeld = false →
    s.PortQuiet → s.fault.part = .operating →
    (∀ j < 16, wantAt s.path.windows (16 * beat.toNat + j) = .packet ⟨w, slot, base⟩ (k + j) (a + j)) →
    (s.slotRecord w slot).state = .rest .taken ∨ (s.slotRecord w slot).state = .rest .played →
    (s.slotRecord w slot).disposition = some d →
    (∀ b : Fin 8, ∃ u, s.path.staging[b] = some u ∧ u.held = false ∧
      ¬ (u.window = w ∧ u.slot = slot ∧ u.generation = (s.slotRecord w slot).generation)) →
    ∃ t, exec (.viewRead tag beat 0) s = .next t ∧
      State.EndsAs (s.onPath fun p =>
        { p with
          reads := [⟨tag, [⟨true, (List.range 16).map fun j => .packet ⟨w, slot, base⟩ (k + j) (a + j) .waiting⟩]⟩] }) t) ∧
  ∀ (s : State) (tag : Nat) (beat : BeatAddr) (w : Fin 16) (slot base k a : Nat) (d : Disposition) (b : Fin 8),
    s.resetHeld = false → s.PortQuiet → s.fault.part = .operating →
    (∀ j < 16, wantAt s.path.windows (16 * beat.toNat + j) = .packet ⟨w, slot, base⟩ (k + j) (a + j)) →
    (s.slotRecord w slot).state = .rest .taken ∨ (s.slotRecord w slot).state = .rest .played →
    (s.slotRecord w slot).disposition = some d →
    (∀ b : Fin 8, ∀ u, s.path.staging[b] = some u →
      ¬ (u.window = w ∧ u.slot = slot ∧ u.generation = (s.slotRecord w slot).generation)) →
    s.ClaimTakes b →
    let owner : Owner := ⟨w, slot, (s.slotRecord w slot).generation⟩
    let u : StagingUse :=
      { window := w, slot := slot, generation := owner.generation, disposition := d, held := false, void := false
        outcome := .none, packet := none, deadline := none, wait := .nothing, lastUse := s.clock, claim := s.path.nextClaim }
    let armed : StagingUse := { u with deadline := some (s.clock + BitVec.ofNat 48 (s.limits.fetch * 27)) }
    let claimed := s.onPath fun p => { p with nextClaim := p.nextClaim + 1 }
    let answered := fun (packet : List Byte) (outcome : PlayOutcome) =>
      ∃ t, exec (.viewRead tag beat 0) s = .next t ∧
        (claimed.beatFrom tag k b { u with held := true, packet := some packet, outcome := outcome } packet).EndsAs t
    let waits := fun (x : State) (u : StagingUse) =>
      ∃ t, exec (.viewRead tag beat 0) s = .next t ∧
        ((x.onPath fun p => { p with reads := [servedRead tag ⟨w, slot, base⟩ k a b] }).setStaging b (some u)).EndsAs t
    (d.action = .null → answered nullPacket .none) ∧
    (∀ r, d.action = .pass r →
      waits (claimed.onPath fun p =>
        { p with passQueue := p.passQueue ++
            [.read (beatsHolding (slotPacketAddress s.path.windows[w] slot) 188 (.staging b s.path.nextClaim))] })
        { u with wait := .ringSlot }) ∧
    ∀ f : Insert, d.action = .insert f →
      (s.sourceCurrent f.source = false → answered nullPacket .none) ∧
      (s.sourceCurrent f.source = true →
        (∀ p target packet, f.prefetch = some p → s.content.prefetch[p] = .ready owner target packet →
          answered (insertPacketBytes packet f.rewrite f.offset) .aired) ∧
        (∀ p target, f.prefetch = some p → s.content.prefetch[p] = .failed owner target → answered nullPacket .lost) ∧
        (∀ p target, f.prefetch = some p → s.content.prefetch[p] = .loading (some owner) target →
          waits claimed { armed with wait := .prefetch p }) ∧
        ((∀ p, f.prefetch = some p → s.content.prefetch[p].owner ≠ some owner) →
          let target := s.insertTarget f
          (∀ q : Fin 4, s.content.demand[q] = .free → (∀ q' : Fin 4, q' < q → s.content.demand[q'] ≠ .free) →
            waits ((claimed.onContent fun c => { c with demand := c.demand.set q (.loading (some b) target) }).onPath fun p =>
              { p with demandQueue := p.demandQueue ++ [beatsHolding target.address 188 (.demand q)] })
              { armed with wait := .demand q }) ∧
          ((∀ q : Fin 4, s.content.demand[q] ≠ .free) →
            waits (claimed.onContent fun c => { c with demandWait := c.demandWait ++ [(b, target)] })
              { armed with wait := .demandListed })))

/-- The bytes of a packet that passes with a rewrite: PID and continuity counter are the disposition's, the discontinuity flag
is set where a mark is owed and there is an adaptation field with a flags byte, every other bit is as read; without a rewrite
the packet is as read. A clock reference of content is rebased by the offset O modulo M and written as base and extension, the
six reserved bits and every other byte kept: the field holds (base × 300 + ext + O) mod M, with an extension below 300. An
inserted packet that is malformed has its header alone rewritten; a well-formed one also its clock reference and original clock
reference rebased, the mark set, and the timestamps of a whole optional PES header moved by floor(O / 300), code and markers
kept, every other byte as read (R47, R48, R140, R143, R144). That a flagged timestamp which runs past the packet's end is left
as read is the model's reading (DEDUCED, log 35). -/
def Obligations.OutputPacketBytes : Prop :=
  (∀ (b : List Byte), b.length = 188 → passPacket b none = b ∧
    ∀ r : Rewrite,
      (passPacket b (some r)).length = 188 ∧ packetPid (passPacket b (some r)) = r.pid ∧
      packetCC (passPacket b (some r)) = r.cc ∧
      (byteAt (passPacket b (some r)) 1).extractLsb' 5 3 = (byteAt b 1).extractLsb' 5 3 ∧
      (byteAt (passPacket b (some r)) 3).extractLsb' 4 4 = (byteAt b 3).extractLsb' 4 4 ∧
      byteAt (passPacket b (some r)) 5 =
        (if r.mark ∧ (byteAt b 3).getLsbD 5 = true ∧ 1 ≤ (byteAt b 4).toNat then byteAt b 5 ||| 0x80 else byteAt b 5) ∧
      ∀ i, i ≠ 1 → i ≠ 2 → i ≠ 3 → i ≠ 5 → byteAt (passPacket b (some r)) i = byteAt b i) ∧
  (∀ (b : List Byte) (i offset : Nat), i + 6 ≤ b.length →
    let c := (clockValue b i + offset) % clockModulus
    clockValue (rebaseClock b i offset) i = c ∧ clockField (rebaseClock b i offset) i % 2 ^ 9 = c % 300 ∧
      clockField (rebaseClock b i offset) i / 2 ^ 15 = c / 300 ∧
      clockField (rebaseClock b i offset) i / 2 ^ 9 % 2 ^ 6 = clockField b i / 2 ^ 9 % 2 ^ 6 ∧
      (rebaseClock b i offset).length = b.length ∧
      ∀ j, j < i ∨ i + 6 ≤ j → byteAt (rebaseClock b i offset) j = byteAt b j) ∧
  ∀ (b : List Byte) (r : Rewrite) (offset : Nat), b.length = 188 →
    let out := insertPacketBytes b r offset
    (malformed b = true → out = passPacket b (some { r with mark := false })) ∧
    (malformed b = false →
      let flags : Bool := (byteAt b 3).getLsbD 5 ∧ 1 ≤ (byteAt b 4).toNat
      let clock : Bool := flags ∧ (byteAt b 5).getLsbD 4
      let original : Bool := flags ∧ (byteAt b 5).getLsbD 3
      let second := if clock then 12 else 6
      let p := if (byteAt b 3).getLsbD 5 then 5 + (byteAt b 4).toNat else 4
      let stamps := (byteAt b (p + 7)).extractLsb' 6 2
      let pes := (byteAt b 3).getLsbD 4 = true ∧ (byteAt b 1).getLsbD 6 = true ∧ byteAt b p = 0 ∧ byteAt b (p + 1) = 0 ∧
        byteAt b (p + 2) = 1 ∧ p + 9 + (byteAt b (p + 8)).toNat ≤ 188 ∧ p + 9 ≤ 188 ∧
        (byteAt b (p + 6)).extractLsb' 6 2 = 2#2
      let both := pes ∧ stamps = 3#2 ∧ p + 19 ≤ 188
      let presented := both ∨ (pes ∧ stamps = 2#2 ∧ p + 14 ≤ 188)
      let moved := fun i : Nat =>
        timestamp out i = timestamp b i + BitVec.ofNat 33 (offset / 300) ∧
          (byteAt out i).extractLsb' 4 4 = (byteAt b i).extractLsb' 4 4 ∧
          ∀ k, k = 0 ∨ k = 2 ∨ k = 4 → (byteAt out (i + k)).getLsbD 0 = (byteAt b (i + k)).getLsbD 0
      let rebased := fun i : Nat =>
        clockValue out i = (clockValue b i + offset) % clockModulus ∧ clockField out i % 2 ^ 9 < 300 ∧
          clockField out i / 2 ^ 9 % 2 ^ 6 = clockField b i / 2 ^ 9 % 2 ^ 6
      out.length = 188 ∧ packetPid out = r.pid ∧ packetCC out = r.cc ∧
        (byteAt out 1).extractLsb' 5 3 = (byteAt b 1).extractLsb' 5 3 ∧
        (byteAt out 3).extractLsb' 4 4 = (byteAt b 3).extractLsb' 4 4 ∧
        byteAt out 5 = (if flags = true ∧ r.mark = true then byteAt b 5 ||| 0x80 else byteAt b 5) ∧
        (clock = true → rebased 6) ∧ (original = true → rebased second) ∧
        (presented → moved (p + 9)) ∧ (both → moved (p + 14)) ∧
        ∀ i, i ≠ 1 → i ≠ 2 → i ≠ 3 → i ≠ 5 → ¬ (clock = true ∧ 6 ≤ i ∧ i < 12) →
          ¬ (original = true ∧ second ≤ i ∧ i < second + 6) → ¬ (presented ∧ p + 9 ≤ i ∧ i < p + 14) →
          ¬ (both ∧ p + 14 ≤ i ∧ i < p + 19) → byteAt out i = byteAt b i)

/-- A buffer that is ASSEMBLING serves an outstanding read of packet bytes `k .. k+15` of its slot. Its wait ends and the read
is answered from it: by the ring-slot data of a PASS, rewritten; by the data of its prefetch or demand fetch, with the rewritten
content packet and outcome AIRED, or on an error the null packet, outcome LOST, and FETCH_FAIL; or by its fetch deadline, with
the null packet, outcome LOST, and FETCH_LATE at the content packet's address. Where the source is no longer current it is the
null packet, outcome NONE, and no FETCH_LATE. What it held of the demand fetches is let go. An error of the ring-slot data frees
the buffer and the beat comes back in error; data for an earlier claim of the buffer, and data of a demand buffer that was let
go, change nothing else, whatever reads and write bursts wait (R86, R88, R89, R140 to R142, R145). A record or an entry which
closes with that beat's completion keeps its other fields while FREE (DESIGN CHOICE, log 23), and a buffer that waits for an old
owner of the same prefetch buffer waits on (DEDUCED, log 52). The rest is stated with that one read outstanding, no other buffer
waiting on the same fetch for the same owner and no request held at the port, with no request on the demand wait list where a
demand fetch ends or is let go, and for errors of severity CONTAIN. -/
def Obligations.StagingWaitEnds : Prop :=
  (∀ (s : State) (tag : Fin 32) (beat got : Nat) (beats : List MemBeat), s.resetHeld = false → s.PortWaits →
    let freed := s.onPath fun p => { p with tags := p.tags.set tag none }
    (∀ (b : Fin 8) (claim : Nat), s.path.tags[tag] = some ⟨⟨beat, beats.length, .staging b claim⟩, got⟩ →
      (∀ u, s.path.staging[b] = some u → u.claim ≠ claim) →
      ∃ t, exec (.stagingSlotReadData tag beats) s = .next t ∧ freed.EndsAs t) ∧
    ∀ (d : Fin 4) (target : FetchTarget), s.path.tags[tag] = some ⟨⟨beat, beats.length, .demand d⟩, got⟩ →
      s.content.demand[d] = .loading none target → s.content.demandWait = [] →
      ∃ t, exec (.demandDataArrival tag beats) s = .next t ∧
        (freed.onContent fun c => { c with demand := c.demand.set d .free }).EndsAs t) ∧
  ∀ (s : State) (ptag k a : Nat) (slot : SlotRef) (b : Fin 8) (u : StagingUse), s.resetHeld = false →
    s.fault.part = .operating → k + 15 ≤ 187 → s.PortServes [servedRead ptag slot k a b] →
    s.path.staging[b] = some u → u.held = false → u.packet = none →
    let ends := fun (c : Instr) (x : State) (packet : List Byte) (outcome : PlayOutcome) =>
      ∃ t, exec c s = .next t ∧
        (x.beatFrom ptag k b { u with
          held := true, packet := some packet, outcome := outcome, deadline := none, wait := .nothing } packet).EndsAs t
    let freed := fun tag : Fin 32 => s.onPath fun p => { p with tags := p.tags.set tag none }
    (∀ (tag : Fin 32) (beat got : Nat) (beats : List MemBeat) (r : Option Rewrite),
      s.path.tags[tag] = some ⟨⟨beat, beats.length, .staging b u.claim⟩, got⟩ → u.disposition.action = .pass r →
      u.wait = .ringSlot →
      (beats.all MemBeat.ok = true →
        ends (.stagingSlotReadData tag beats) (freed tag)
          (passPacket (bytesOfBeats (slotPacketAddress s.path.windows[u.window] u.slot) 188 beats) r) .none) ∧
      (beats.all MemBeat.ok = false →
        ∃ t, exec (.stagingSlotReadData tag beats) s = .next t ∧
          State.EndsAs ((((freed tag).onPath fun p => { p with reads := [] }).setStaging b none).emit
            (.readBeat ptag none false)) t)) ∧
    ∀ f : Insert, u.disposition.action = .insert f →
      let current := s.sourceCurrent f.source
      let built := fun (target : FetchTarget) (beats : List MemBeat) =>
        if current then insertPacketBytes (bytesOfBeats target.address 188 beats) f.rewrite f.offset else nullPacket
      let whenAired : PlayOutcome := if current then .aired else .none
      let whenLost : PlayOutcome := if current then .lost else .none
      (∀ (tag : Fin 32) (beat got : Nat) (p : Fin 256) (beats : List MemBeat) (owner : Owner) (target : FetchTarget),
        s.path.tags[tag] = some ⟨⟨beat, beats.length, .prefetch p⟩, got⟩ → u.wait = .prefetch p →
        s.content.prefetch[p] = .loading (some owner) target → owner = ⟨u.window, u.slot, u.generation⟩ →
        (∀ x : Fin 8, ∀ u', s.path.staging[x] = some u' → u'.wait = .prefetch p →
          owner = ⟨u'.window, u'.slot, u'.generation⟩ → x = b) →
        let settled := fun v : Prefetch => (freed tag).onContent fun c => { c with prefetch := c.prefetch.set p v }
        (beats.all MemBeat.ok = true →
          ends (.prefetchDataArrival tag beats) (settled (.ready owner target (bytesOfBeats target.address 188 beats)))
            (built target beats) whenAired) ∧
        (beats.all MemBeat.ok = false → s.fault.policy[errorNumber .fetchFail].severity = .contain →
          ends (.prefetchDataArrival tag beats)
            ((settled (.failed owner target)).raise .fetchFail target.service.val target.address none) nullPacket whenLost)) ∧
      (∀ (tag : Fin 32) (beat got : Nat) (d : Fin 4) (beats : List MemBeat) (target : FetchTarget),
        s.path.tags[tag] = some ⟨⟨beat, beats.length, .demand d⟩, got⟩ → u.wait = .demand d →
        s.content.demand[d] = .loading (some b) target → s.content.demandWait = [] →
        (∀ x : Fin 8, ∀ u', s.path.staging[x] = some u' → u'.wait = .demand d → x = b) →
        let settled := (freed tag).onContent fun c => { c with demand := c.demand.set d .free }
        (beats.all MemBeat.ok = true → ends (.demandDataArrival tag beats) settled (built target beats) whenAired) ∧
        (beats.all MemBeat.ok = false → s.fault.policy[errorNumber .fetchFail].severity = .contain →
          ends (.demandDataArrival tag beats) (settled.raise .fetchFail target.service.val target.address none)
            nullPacket whenLost)) ∧
      ∀ x : StationTime, u.deadline = some x → (s.clock - x).toNat < 2 ^ 47 →
        s.fault.policy[errorNumber .fetchLate].severity = .contain →
        let target := s.insertTarget f
        let late := fun y : State => if current then y.raise .fetchLate target.service.val target.address none else y
        (∀ p, u.wait = .prefetch p → ends (.fetchDeadline b) (late s) nullPacket whenLost) ∧
        (∀ d target', u.wait = .demand d → s.content.demand[d] = .loading (some b) target' → s.content.demandWait = [] →
          ends (.fetchDeadline b)
            (late (s.onContent fun c => { c with demand := c.demand.set d (.loading none target') })) nullPacket whenLost) ∧
        (u.wait = .demandListed →
          ends (.fetchDeadline b)
            (late (s.onContent fun c => { c with demandWait := c.demandWait.filter fun q => q.1 != b })) nullPacket whenLost)

/-- The last data of a prefetch fetch arrive, and no staging buffer waits on it for the slot and take generation that own it
now: one that still waits for an old owner waits on (R141; DEDUCED, log 52), whatever reads and write bursts are outstanding.
The buffer is READY with the packet; FAILED with FETCH_FAIL for its service at the packet's address; FREE where it was released
meanwhile, whatever the data (R86). -/
def Obligations.PrefetchSettles : Prop :=
  ∀ (s : State) (tag : Fin 32) (beat got : Nat) (b : Fin 256) (beats : List MemBeat) (target : FetchTarget),
    s.resetHeld = false → s.PortWaits → s.path.tags[tag] = some ⟨⟨beat, beats.length, .prefetch b⟩, got⟩ →
    (∀ x : Fin 8, ∀ u, s.path.staging[x] = some u → u.wait = .prefetch b →
      s.content.prefetch[b].owner ≠ some ⟨u.window, u.slot, u.generation⟩) →
    let settled := fun p : Prefetch => (s.onPath fun q => { q with tags := q.tags.set tag none }).onContent fun u =>
      { u with prefetch := u.prefetch.set b p }
    (∀ owner, s.content.prefetch[b] = .loading (some owner) target → beats.all MemBeat.ok = true →
      ∃ t, exec (.prefetchDataArrival tag beats) s = .next t ∧
        (settled (.ready owner target (bytesOfBeats target.address 188 beats))).EndsAs t) ∧
    (∀ owner, s.content.prefetch[b] = .loading (some owner) target → beats.all MemBeat.ok = false →
      s.PortQuiet ∨ s.fault.policy[errorNumber .fetchFail].severity = .contain →
      ∃ t, exec (.prefetchDataArrival tag beats) s = .next t ∧
        ((settled (.failed owner target)).raise .fetchFail target.service.val target.address none).EndsAs t) ∧
    (s.content.prefetch[b] = .loading none target →
      ∃ t, exec (.prefetchDataArrival tag beats) s = .next t ∧ (settled .free).EndsAs t)

/-- The data of a header read arrive: the entry of that read is READY with the header fields of packet bytes 0..5, or FAILED with
an error in any beat; every other entry stays, and where the entry has left its queue nothing changes (R94). -/
def Obligations.HeaderSettles : Prop :=
  ∀ (s : State) (tag : Fin 32) (beat got serial address : Nat) (service : Fin 64) (beats : List MemBeat),
    s.resetHeld = false → s.path.tags[tag] = some ⟨⟨beat, beats.length, .header service serial address⟩, got⟩ →
    let b := bytesOfBeats address 6 beats
    let state : HeaderState :=
      if beats.all MemBeat.ok then
        .ready ⟨packetPid b, hasPayload b, packetCC b,
          hasAdaptation b && decide (7 ≤ (byteAt b 4).toNat) && (byteAt b 5).getLsbD 4⟩
      else .failed
    let settle := fun e : HeaderEntry => if e.serial = serial then { e with state := state } else e
    ∃ t, exec (.headerReadData tag beats) s = .next t ∧
      State.EndsAs ((s.onPath fun p => { p with tags := p.tags.set tag none }).onFields service fun f =>
        { f with runQueue := f.runQueue.map settle, standbyQueue := f.standbyQueue.map settle }) t

/-- The data of the scan read of the packet that is next to be checked arrive, nothing else having arrived. A packet with its
sync byte is examined and the scan goes on, unless it is the last: of a component of the content it gives that component's first
CC, where it is the first with payload, and, where it carries a clock reference and is well formed, the first clock reference
found, of any component and of a VIDEO one; a packet of another PID gives nothing. No sync byte, or an error, ends the scan
FAILED at that packet, with its results dropped and reason SYNC or MEMORY_ERROR (MEMORY_ERROR where both hold: DESIGN CHOICE,
log 53), and the last packet ends it READY with the clock reference found, a VIDEO component's before any other's, or FAILED
with reason NO_CLOCK; at the end the scanner's hold ends and CONTENT_STATE is handed over. The end is stated with no other
content queued and no cue waiting on it (R78, R79). -/
def Obligations.ScanChecksThePacket : Prop :=
  ∀ (s : State) (tag : Fin 32) (beat got k : Nat) (beats : List MemBeat) (u : Scan) (d : ContentDef),
    s.resetHeld = false → s.path.tags[tag] = some ⟨⟨beat, beats.length, .scan u.serial k⟩, got⟩ →
    s.content.scan = some u → u.nextCheck = k → u.arrived = [] →
    s.content.entries[u.content].definition = some d →
    let b := bytesOfBeats (contentPacketAddress d k) 188 beats
    let examined : Scan :=
      match d.comps.findIdx? (·.pid == packetPid b) with
      | none => u
      | some c =>
        let clock : Option FirstClock :=
          if clockFlag b = true ∧ malformed b = false then some ⟨clockValue b 6 % 2576980377600, k, c⟩ else none
        { u with
          firstCC := if u.firstCC.getD c none = none ∧ hasPayload b then u.firstCC.set c (some (packetCC b)) else u.firstCC
          videoClock := if (d.comps[c]?.map ContentComponent.role) = some .video then u.videoClock.or clock else u.videoClock
          anyClock := u.anyClock.or clock }
    let freed := s.onPath fun p => { p with tags := p.tags.set tag none }
    (beats.all MemBeat.ok = true → byteAt b 0 = 0x47 → k + 1 < d.packets →
      ∃ t, exec (.scanReadData tag beats) s = .next t ∧
        (freed.onContent fun x => { x with scan := some { examined with nextCheck := k + 1 } }).EndsAs t) ∧
    ((beats.all MemBeat.ok = false ∨ byteAt b 0 ≠ 0x47) → s.content.scanQueue = [] →
      (∀ i : Fin 64, ∀ e rest, s.cue.queues[i] = e :: rest → ¬ (e.state = .waiting ∧ e.cue.content = u.content)) →
      let old := s.content.entries[u.content]
      let e : ContentEntry :=
        ⟨.failed, some d, none, [], some (if beats.all MemBeat.ok then .sync else .memoryError), some k, old.useCount - 1⟩
      ∃ t, exec (.scanReadData tag beats) s = .next t ∧
        ((freed.onContent fun x => { x with scan := none, entries := x.entries.set u.content e }).told
          [.contentState ⟨u.content, e⟩]).EndsAs t) ∧
    (beats.all MemBeat.ok = true → byteAt b 0 = 0x47 → d.packets ≤ k + 1 → s.content.scanQueue = [] →
      (∀ i : Fin 64, ∀ e rest, s.cue.queues[i] = e :: rest → ¬ (e.state = .waiting ∧ e.cue.content = u.content)) →
      let old := s.content.entries[u.content]
      let e : ContentEntry :=
        match examined.videoClock, examined.anyClock with
        | some f, _ | none, some f => ⟨.ready, some d, some f, examined.firstCC, none, none, old.useCount - 1⟩
        | none, none => ⟨.failed, some d, none, [], some .noClock, none, old.useCount - 1⟩
      ∃ t, exec (.scanReadData tag beats) s = .next t ∧
        ((freed.onContent fun x => { x with scan := none, entries := x.entries.set u.content e }).told
          [.contentState ⟨u.content, e⟩]).EndsAs t)

/-- The response to the outstanding record write comes back: on OK the head leaves the queue, an as-run record gives its place
back, a general record takes the dropped count it carried off, the produced count rises and the header is pending; on ERROR the
path is HALTED, the record stays and REPORT_WRITE_FAIL is raised at the first byte of the write. A response to a write that is
no longer outstanding is discarded. The same for a header write, where OK changes nothing further and ERROR sets the
header-pending flag again (R169, R170, R171, R173). The address reported for a header write, the window's base, is the model's
reading (DEDUCED, log 45); that a write handed to the REPORT requester is outstanding from there on its choice (DESIGN CHOICE,
log 51). A response names its write by its place among those in flight (DESIGN CHOICE, log 8). -/
def Obligations.ReportWriteAnswered : Prop :=
  (∀ (s : State) (i : Nat) (w : ReportWrite) (dropped : Nat) (ring : ReportRing), s.resetHeld = false →
    s.report.issued[i]? = some w → w.kind = .record dropped → s.report.ring = some ring →
    let taken := s.onReport fun u => { u with issued := u.issued.eraseIdx i }
    (∀ head rest, ring.outstanding = some w.serial → s.report.queue = head :: rest →
      ∃ t, exec (.reportRecordWriteResponse i true) s = .next t ∧
        State.EndsAs (taken.onReport fun u =>
          { u with
            queue := rest
            reservation := if head.body.isAsRun then u.reservation - 1 else u.reservation
            dropped := if head.body.isAsRun then u.dropped else u.dropped - dropped
            ring := some ⟨ring.produced + 1, ring.consumed, true, none⟩ }) t) ∧
    (ring.outstanding = some w.serial →
      ∃ t, exec (.reportRecordWriteResponse i false) s = .next t ∧
        State.EndsAs ((taken.onReport fun u =>
          { u with halted := true, ring := some { ring with outstanding := none } }).raise .reportWriteFail 0 w.address
            none) t) ∧
    (ring.outstanding ≠ some w.serial → ∀ ok,
      ∃ t, exec (.reportRecordWriteResponse i ok) s = .next t ∧ taken.EndsAs t)) ∧
  ∀ (s : State) (i : Nat) (w : ReportWrite) (ring : ReportRing), s.resetHeld = false →
    s.report.issued[i]? = some w → w.kind = .header → s.report.ring = some ring →
    let taken := s.onReport fun u => { u with issued := u.issued.eraseIdx i }
    (ring.outstanding = some w.serial →
      (∃ t, exec (.reportHeaderWriteResponse i true) s = .next t ∧
        State.EndsAs (taken.onReport fun u => { u with ring := some { ring with outstanding := none } }) t) ∧
      (∃ t, exec (.reportHeaderWriteResponse i false) s = .next t ∧
        State.EndsAs ((taken.onReport fun u =>
          { u with halted := true, ring := some { ring with outstanding := none, headerPending := true } }).raise
            .reportWriteFail 0 w.address none) t)) ∧
    (ring.outstanding ≠ some w.serial → ∀ ok,
      ∃ t, exec (.reportHeaderWriteResponse i ok) s = .next t ∧ taken.EndsAs t)

/-- While a demand fetch waits and the tag is free, the grant goes to the oldest one, and the phase pointer stays. Otherwise it
goes to the first phase from the pointer whose requester waits: its oldest request is issued whole, a read taking the tag, and
the pointer is one past it. A grant that wraps the table with an apply pending makes the staged table
active and answers the cue DONE with the pending-wrap flag (R159, R160, R162). Stated with whatever reads and write bursts are
outstanding, none of whose beats can be returned yet, and no request held at the port. Which free tag a read takes is an operand
(DESIGN CHOICE, log 8). -/
def Obligations.ArbiterGrants : Prop :=
  (∀ (s : State) (tag : Fin 32) (q : MemRead) (rest : List MemRead), s.resetHeld = false → s.PortWaits →
    s.path.demandQueue = q :: rest → s.path.tags[tag] = none →
    ∃ t, exec (.arbiterGrant tag) s = .next t ∧
      State.EndsAs ((s.onPath fun p =>
        { p with demandQueue := rest, tags := p.tags.set tag (some ⟨q, 0⟩) }).emit (.memoryRead tag q)) t) ∧
  ∀ (s : State) (tag : Fin 32) (g : Fin 16), s.resetHeld = false → s.PortWaits → s.path.demandQueue = [] →
    s.waiting (requesterOf s.path.activeTable[g]) = true →
    (∀ i : Fin 16, i.val < (g - s.path.phase).val →
      s.waiting (requesterOf s.path.activeTable[s.path.phase + i]) = false) →
    let moved := fun x : State => x.onPath fun p => { p with phase := g + 1 }
    let wrapped := fun x : State =>
      match s.cue.pendingApply with
      | some ref =>
        if g.val = 15 ∨ g < s.path.phase then
          ((x.onPath fun p => { p with activeTable := p.stagedTable }).onCue fun u => { u with pendingApply := none }).told
            [.cueResult ⟨ref, 11, none, none, .done, none, true⟩]
        else x
      | none => x
    (∀ q rest, requesterOf s.path.activeTable[g] = .pass → s.path.passQueue = .read q :: rest →
      s.path.tags[tag] = none →
      ∃ t, exec (.arbiterGrant tag) s = .next t ∧
        (wrapped (moved ((s.onPath fun p =>
          { p with passQueue := rest, tags := p.tags.set tag (some ⟨q, 0⟩) }).emit (.memoryRead tag q)))).EndsAs t) ∧
    (∀ r rest, requesterOf s.path.activeTable[g] = .pass → s.path.passQueue = .write r :: rest →
      ∃ t, exec (.arbiterGrant tag) s = .next t ∧
        (wrapped (moved ((s.onPath fun p =>
          { p with passQueue := rest, issuedRuns := p.issuedRuns ++ [r.burst] }).emit
            (.memoryWrite r.beat (r.beats.map fun b => (beatBytes b.1, b.2)))))).EndsAs t) ∧
    (∀ q rest, requesterOf s.path.activeTable[g] = .fetch → s.path.fetchQueue = q :: rest →
      s.path.tags[tag] = none →
      ∃ t, exec (.arbiterGrant tag) s = .next t ∧
        (wrapped (moved ((s.onPath fun p =>
          { p with fetchQueue := rest, tags := p.tags.set tag (some ⟨q, 0⟩) }).emit (.memoryRead tag q)))).EndsAs t) ∧
    (∀ u d, requesterOf s.path.activeTable[g] = .scan → s.content.scan = some u →
      s.content.entries[u.content].definition = some d → u.nextRead < d.packets →
      s.path.tags[tag] = none →
      let q := beatsHolding (contentPacketAddress d u.nextRead) 188 (.scan u.serial u.nextRead)
      ∃ t, exec (.arbiterGrant tag) s = .next t ∧
        (wrapped (moved (((s.onContent fun x => { x with scan := some { u with nextRead := u.nextRead + 1 } }).onPath fun p =>
          { p with tags := p.tags.set tag (some ⟨q, 0⟩) }).emit (.memoryRead tag q)))).EndsAs t) ∧
    (∀ w rest, requesterOf s.path.activeTable[g] = .report → s.report.writes = w :: rest →
      ∃ t, exec (.arbiterGrant tag) s = .next t ∧
        (wrapped (moved ((s.onReport fun u => { u with writes := rest, issued := u.issued ++ [w] }).emit
          (.memoryWrite (w.address / 16) w.beats)))).EndsAs t)

/-! ## Takes (01), service timebase (02), output continuity (05) -/

/-- How the Ingest Parser assembles slots. A forwarded beat's enabled bytes in the recorded spans of slots reach it as one write
for each run of consecutive slot bytes, in rising address; the others are not seen (R3, R4). A write, stated too short to fill a
slot by itself: in SEEKING one at slot byte 0 begins its slot, another is disregarded; in EXPECTING one at byte 0 begins its
slot, and SEQUENCE_BREAK is raised where the slot is not the one expected (in this order: DEDUCED, log 47), and another raises
SEQUENCE_BREAK and goes SEEKING; in a slot, a write at the fill point extends it, and at the take byte takes it and expects the
next slot of the ring; one at byte 0 of the same slot begins it again with SEQUENCE_BREAK; any other tears the slot: it is taken
torn, SEQUENCE_BREAK is raised, and the write begins its own slot or is disregarded, going SEEKING. A slot that begins makes its
record FILLING over its prior state (R5 to R10, R24, R28). Stated for a beat of whose bytes none is seen, or one run, or the end
of a slot and the start of another, for SEQUENCE_BREAK of severity CONTAIN and for a slot that begins while no staging buffer is
built for it. -/
def Obligations.IngestWriteAssembled : Prop :=
  (∀ (s : State) (address : Nat) (data : BeatData) (enables : Enables),
    let seen := fun k : Nat => if enables.getLsbD k then spanAt s.path.windows (address + k) else none
    ((∀ k < 16, seen k = none) → s.ingestBeat address data enables = s) ∧
    (∀ (w : Fin 16) (slot off low n : Nat), 1 ≤ n → low + n ≤ 16 →
      (∀ k < 16, seen k = if low ≤ k ∧ k < low + n then some (w, slot, off + (k - low)) else none) →
      s.ingestBeat address data enables =
        s.ingestWrite ⟨w, slot, off, address + low, ((beatBytes data).drop low).take n⟩) ∧
    ∀ (w w' : Fin 16) (slot slot' off n : Nat), 1 ≤ n → n < 16 →
      (∀ k < 16, seen k = if k < n then some (w, slot, off + k) else some (w', slot', k - n)) →
      s.ingestBeat address data enables =
        (s.ingestWrite ⟨w, slot, off, address, (beatBytes data).take n⟩).ingestWrite
          ⟨w', slot', 0, address + n, (beatBytes data).drop n⟩) ∧
  ∀ (s : State) (x : IngestWrite) (a : Assembly) (base slots stride rate : Nat),
    s.ingest.assembly[x.window] = some a → s.path.windows[x.window] = .ingest base slots stride rate →
    s.fault.policy[errorNumber .sequenceBreak].severity = .contain →
    let w := x.window
    let full := if stride = 192 then 192 else 188
    let lead := if stride = 192 then 4 else 0
    x.bytes.length < full →
    let mode := fun (y : State) (m : AssemblyMode) => y.onIngest fun u =>
      { u with assembly := u.assembly.set w (u.assembly[w].map fun a => { a with mode := m }) }
    let idle := fun y : State => ∀ b : Fin 8, ∀ u, y.path.staging[b] = some u →
      ¬ (u.window = w ∧ u.slot = x.slot ∧ u.generation = (y.slotRecord w x.slot).generation)
    let begun := fun y : State =>
      mode (y.onSlot w x.slot fun r =>
        { r with state := .filling (match r.state with | .rest p | .filling p => p) }) (.inSlot x.slot x.bytes)
    let broken := fun (y : State) (recorded : List Byte) =>
      y.raise .sequenceBreak w.val x.address
        (if lead + 4 ≤ recorded.length then some ((recorded.drop lead).take 4) else none)
    (a.mode = .seeking →
      (x.offset = 0 → idle s → s.ingestWrite x = begun s) ∧ (x.offset ≠ 0 → s.ingestWrite x = s)) ∧
    (∀ e, a.mode = .expecting e →
      (x.offset = 0 → x.slot = e → idle s → s.ingestWrite x = begun s) ∧
      (x.offset = 0 → x.slot ≠ e → idle s → s.ingestWrite x = broken (begun s) []) ∧
      (x.offset ≠ 0 → s.ingestWrite x = mode (broken s []) .seeking)) ∧
    ∀ slot recorded, a.mode = .inSlot slot recorded → recorded ≠ [] →
      (x.slot = slot → x.offset = recorded.length →
        s.ingestWrite x =
          if recorded.length + x.bytes.length < full then mode s (.inSlot slot (recorded ++ x.bytes))
          else mode (s.take w slot (some ((recorded ++ x.bytes).drop lead))) (.expecting ((slot + 1) % slots))) ∧
      (x.slot = slot → x.offset = 0 → s.ingestWrite x = mode (broken s recorded) (.inSlot slot x.bytes)) ∧
      (x.slot ≠ slot → x.offset = 0 → idle (s.take w slot none) →
        s.ingestWrite x = begun (broken (s.take w slot none) recorded)) ∧
      (x.offset ≠ 0 → ¬ (x.slot = slot ∧ x.offset = recorded.length) →
        s.ingestWrite x = mode (broken (s.take w slot none) recorded) .seeking)

/-- A take of a slot: the old disposition and the staging buffer of the old generation are settled first, as `oldSettled` and
`stagingSettled` spell out (R25, R147; that they come before the other steps is read from the rules, DEDUCED, log 12; that bytes
in hand from a reclaimed buffer of the slot are decided afresh too, DEDUCED, log 11; that a record or an entry which closes
keeps its other fields, DESIGN CHOICE, log 23). Then the generation rises by 1, the record is TAKEN, the take's index is 0 at
the first take and otherwise rises by the ring distance, N for the same slot again. A torn take, a packet without its sync byte
(SYNC_LOSS raised, at the packet's address with its first 4 bytes) store NULL; a packet of no service stores PASS without
rewrite. A packet of a service has TRANSPORT_FLAG and MALFORMED_PACKET raised by its header, its continuity checked (one repeat
allowed; CC_GAP), its clock sample handled, and then its disposition decided from the take notice; a malformed one is no random
access point, has no countdown and gives no sample. Outside OPERATING, or where an error that the decision raises has the part
enter BYPASS (DEDUCED, log 13), the take bears the bypass take flag and PASS without rewrite (R8, R11 to R19, R25). Stated for
the errors of the checks at severity CONTAIN, and for a slot with at most one staging buffer, whose demand fetch, if it waits on
one, is LOADING for it with none on the wait list. -/
def Obligations.TakeStoresTheDisposition : Prop :=
  ∀ (s : State) (w : Fin 16) (slot base slots stride rate : Nat) (a : Assembly),
    s.ingest.assembly[w] = some a → s.path.windows[w] = .ingest base slots stride rate →
    (∀ b b', s.Serves w slot b → s.Serves w slot b' → b = b') →
    (∀ b u d, s.Serves w slot b → s.path.staging[b] = some u → u.wait = .demand d →
      (∃ target, s.content.demand[d] = .loading (some b) target) ∧ s.content.demandWait = []) →
    s.fault.policy[errorNumber .ingestOverrun].severity = .contain →
    let contained := fun k : ErrorKind => s.fault.policy[errorNumber k].severity = .contain
    let n : Count32 :=
      match a.lastTake with
      | none => 0
      | some (last, m) => m + BitVec.ofNat 32 (if last = slot then slots else (slot + slots - last) % slots)
    let counted := s.onIngest fun u => { u with assembly := u.assembly.set w (some { a with lastTake := some (slot, n) }) }
    let settled := (counted.oldSettled w slot).stagingSettled w slot
    let stored := fun (x : State) (action : Action) => x.onSlot w slot fun r =>
      ⟨.rest .taken, r.generation + 1, some (if x.fault.part = .operating then ⟨action, false⟩ else ⟨.pass none, true⟩)⟩
    let address := base + slot * stride + (if stride = 192 then 4 else 0)
    s.take w slot none = stored settled .null ∧
    (∀ b, byteAt b 0 ≠ 0x47 → contained .syncLoss →
      s.take w slot (some b) = stored (settled.raise .syncLoss w.val address (some (b.take 4))) .null) ∧
    (∀ b, byteAt b 0 = 0x47 → s.lookup w (packetPid b) = none →
      s.take w slot (some b) = stored settled (.pass none)) ∧
    ∀ (b : List Byte) (i : Fin 64) (comp : Nat) (d : Service), byteAt b 0 = 0x47 →
      s.lookup w (packetPid b) = some (i, comp) → s.ingest.services[i] = some d → contained .transportFlag →
      contained .malformedPacket → contained .ccGap →
      let raised := fun (x : State) (k : ErrorKind) => x.raise k i.val address (some (b.take 4))
      let flagged := if (byteAt b 1).getLsbD 7 then raised settled .transportFlag else settled
      let formed := if malformed b then raised flagged .malformedPacket else flagged
      let old := s.ingest.inputCC[i].getD comp {}
      let marked := discontinuityFlag b && !malformed b
      let follows := marked = true ∨ old.last = none ∨ old.last.map (· + 1) = some (packetCC b)
      let repeated := ¬ follows ∧ old.last = some (packetCC b) ∧ old.duplicate = false
      let next : InputCC := ⟨some (packetCC b), decide repeated⟩
      let followed := formed.onIngest fun u => { u with inputCC := u.inputCC.set i (u.inputCC[i].set comp next) }
      let checked :=
        if hasPayload b then (if follows ∨ repeated then followed else raised followed .ccGap) else formed
      let reference := comp == d.clock && clockFlag b && !malformed b
      let sampled := if reference then checked.handleSample i ⟨clockValue b 6, n, discontinuityFlag b⟩ else checked
      let out := sampled.decidePacket d
        { service := i, comp := comp, window := w, slot := slot, generation := (s.slotRecord w slot).generation + 1, n := n
          payload := hasPayload b, unitStart := unitStart b, randomAccess := randomAccessFlag b && !malformed b
          discontinuity := marked, countdown := if malformed b then none else countdown b, clockReference := reference
          cc := packetCC b, malformed := malformed b }
      s.take w slot (some b) =
        if s.fault.part = .operating then stored out.1 out.2 else stored sampled (.pass none)

/-- A take of a slot that holds an unplayed disposition discards it first: INGEST_OVERRUN for the window, at the slot's byte 0, unless
the disposition bears the bypass take flag or the part is not OPERATING; of an INSERT the source, while current, gets one lost
notice, which may close it, and the prefetch buffer, while the slot owns it, is released: one that is LOADING when its data come. A
PASS and a NULL have neither. Then the take is stored, a torn one with NULL, one of no service with PASS (R25, R87, R111, R112,
R116, R133; an insertion or alert that the notice closes keeps its other fields, DESIGN CHOICE, log 23). Stated where no staging
buffer and no byte in hand from a reclaimed one serves the slot, and for INGEST_OVERRUN of severity CONTAIN. -/
def Obligations.OverrunDiscardsTheOldDisposition : Prop :=
  ∀ (s : State) (w : Fin 16) (slot base slots stride rate : Nat) (a : Assembly) (d : Disposition),
    s.ingest.assembly[w] = some a → s.path.windows[w] = .ingest base slots stride rate →
    (s.slotRecord w slot).state = .rest .taken ∨ (s.slotRecord w slot).state = .filling .taken →
    (s.slotRecord w slot).disposition = some d → (∀ b, ¬ s.Serves w slot b) →
    (∀ p ∈ s.path.reads, ∀ b ∈ p.beats, ∀ x ∈ b.bytes, ∀ at_ k address u, x = .packet at_ k address (.reclaimed u) →
      ¬ (at_.window = w ∧ at_.slot = slot)) →
    s.fault.policy[errorNumber .ingestOverrun].severity = .contain →
    let n : Count32 :=
      match a.lastTake with
      | none => 0
      | some (last, m) => m + BitVec.ofNat 32 (if last = slot then slots else (slot + slots - last) % slots)
    let counted := s.onIngest fun u => { u with assembly := u.assembly.set w (some { a with lastTake := some (slot, n) }) }
    let raised :=
      if d.bypassTake = true ∨ s.fault.part ≠ .operating then counted
      else counted.raise .ingestOverrun w.val (base + slot * stride) none
    let stored := fun (x : State) (action : Action) => x.onSlot w slot fun r =>
      ⟨.rest .taken, r.generation + 1, some (if x.fault.part = .operating then ⟨action, false⟩ else ⟨.pass none, true⟩)⟩
    let takes := fun settled : State =>
      s.take w slot none = stored settled .null ∧
      ∀ b, byteAt b 0 = 0x47 → s.lookup w (packetPid b) = none → s.take w slot (some b) = stored settled (.pass none)
    (∀ r, d.action = .pass r → takes raised) ∧ (d.action = .null → takes raised) ∧
    ∀ f : Insert, d.action = .insert f →
      let owner : Owner := ⟨w, slot, (s.slotRecord w slot).generation⟩
      let told := raised.counted f.source false
      let left := fun (p : Fin 256) (x : Prefetch) => told.onContent fun u => { u with prefetch := u.prefetch.set p x }
      (f.prefetch = none → takes told) ∧
      ∀ p, f.prefetch = some p →
        (s.content.prefetch[p].owner ≠ some owner → takes told) ∧
        (∀ target, s.content.prefetch[p] = .loading (some owner) target → takes (left p (.loading none target))) ∧
        (∀ target packet, s.content.prefetch[p] = .ready owner target packet → takes (left p .free)) ∧
        (∀ target, s.content.prefetch[p] = .failed owner target → takes (left p .free))

/-- A clock sample of a service, by the state it finds: in NONE it anchors the clock; a set discontinuity flag, a spacing of 0 or
above 2^20, or an error above 2,700,000 ticks is a jump; any other moves P by E × 65536 / (d × 2^k) truncated toward zero and
held in its range, moves the anchor, and counts toward lock at |E| ≤ 270, or toward loss of lock at |E| > 2,700. Each sample
stamps its time and re-arms the silence expiry; each event is recorded, and a jump marks the ACTIVE insertion (R31 to R38,
R41, R42). -/
def Obligations.ClockSampleHandled : Prop :=
  ∀ (s : State) (i : Fin 64) (c : Clock) (x : Sample), s.timebase.clocks[i] = some c →
    let stamp := fun k : Clock =>
      { k with lastSample := some s.clock, silence := some (s.clock + BitVec.ofNat 48 (s.limits.silence * 27000)) }
    (c.state = .none → s.handleSample i x =
      s.setClock i (some (stamp { c with state := .acquire, anchor := some (x.value, x.n), good := 0 }))) ∧
    (∀ (cLast : Nat) (nLast : Count32), c.state ≠ .none → c.anchor = some (cLast, nLast) →
      let d := (x.n - nLast).toNat
      let jumped := fun (cause : JumpCause) (error : Option Int) =>
        let k := stamp { c with
          state := .acquire, anchor := some (x.value, x.n), good := 0, bad := 0, discontinuities := c.discontinuities + 1 }
        let s' := (s.setClock i (some k)).told [.clockEvent ⟨i, .jump, some cause, c.state, error, some d, k⟩]
        match s.splice.services[i].current with
        | some r => s'.onRecord r fun y => { y with clockJump := true }
        | none => s'
      (x.flag = true → s.handleSample i x = jumped .flag none) ∧
      (x.flag = false → d = 0 ∨ 1048576 < d → s.handleSample i x = jumped .spacing none) ∧
      (x.flag = false → d ≠ 0 → d ≤ 1048576 → ∀ e : Int,
        ((x.value : Int) - ((cLast + (c.p * d + 32768) / 65536) % 2576980377600 : Nat) - e) % 2576980377600 = 0 →
        -1288490188800 ≤ e → e < 1288490188800 →
        let moved := fun k : Nat =>
          let p : Int := c.p + (e * 65536).tdiv (d * 2 ^ k)
          { c with
            p := if p < 16777216 then 16777216 else if 4294967295 < p then 4294967295 else p.toNat
            anchor := some (x.value, x.n) }
        let event := fun (kind : ClockEventKind) (k : Clock) =>
          (s.setClock i (some k)).told [.clockEvent ⟨i, kind, none, c.state, some e, some d, k⟩]
        (2700000 < e.natAbs → s.handleSample i x = jumped .error (some e)) ∧
        (e.natAbs ≤ 2700000 → c.state = .acquire →
          let good := if e.natAbs ≤ 270 then c.good + 1 else 0
          s.handleSample i x =
            if 4 ≤ good then event .lock (stamp { moved 2 with state := .locked, good := good, bad := 0 })
            else s.setClock i (some (stamp { moved 2 with good := good }))) ∧
        (e.natAbs ≤ 2700000 → c.state = .locked →
          let bad := if 2700 < e.natAbs then c.bad + 1 else 0
          s.handleSample i x =
            if 3 ≤ bad then event .unlock (stamp { moved 6 with state := .acquire, good := 0, bad := 0 })
            else s.setClock i (some (stamp { moved 6 with bad := bad })))))

/-- Network time at a packet of index n: present in ACQUIRE and LOCKED, extrapolated from the anchor with P rounded to the
nearest tick, and a third of a hundredth of it on the 90 kHz line; absent in NONE. "Has reached" is the half-range test (R43,
R44). -/
def Obligations.NetworkTime : Prop :=
  ∀ (s : State) (i : Fin 64) (c : Clock) (n : Count32), s.timebase.clocks[i] = some c →
    (c.state = .none → s.t27 i n = none ∧ s.t90 i n = none) ∧
    (∀ cLast nLast, c.state ≠ .none → c.anchor = some (cLast, nLast) →
      let t := (cLast + (c.p * (n - nLast).toNat + 32768) / 65536) % 2576980377600
      s.t27 i n = some t ∧ s.t90 i n = some (BitVec.ofNat 33 (t / 300)) ∧ t / 300 < 2 ^ 33) ∧
    ∀ t limit : Time90, hasReached t limit = true ↔ (t - limit).toNat < 4294967296

/-- The output continuity counter given to a packet: without payload the last one, or the candidate where there is none, and
nothing changes; with payload one more than the last, modulo 16, with the delta in use set so that source + delta gives it; the
candidate where there is no last (R93). -/
def Obligations.OutputCounterContinues : Prop :=
  ∀ (o : OutputCC) (insert : Bool) (cc : CC),
    let delta := if insert then o.contentDelta.getD 0 else o.passDelta
    o.give insert cc false = (o.last.getD (cc + delta), o) ∧
    (o.last = none → o.give insert cc true = (cc + delta, { o with last := some (cc + delta) })) ∧
    ∀ last, o.last = some last →
      (o.give insert cc true).1 = last + 1 ∧ (o.give insert cc true).2.last = some (last + 1) ∧
      (insert = false → (o.give insert cc true).2.passDelta = last + 1 - cc ∧
        (o.give insert cc true).2.contentDelta = o.contentDelta) ∧
      (insert = true → (o.give insert cc true).2.passDelta = o.passDelta ∧
        (o.give insert cc true).2.contentDelta =
          if cc + delta = last + 1 then o.contentDelta else some (last + 1 - cc))

/-- A packet of a service in IDLE, with no overlay, passes with rewrite: the output PID of its component, the next output
counter, and the mark owed where it carries a clock reference on the clock component; nothing else of the state changes (R92,
R93, R109). -/
def Obligations.NetworkPacketPasses : Prop :=
  ∀ (s : State) (d : Service) (x : TakeNotice) (c : Component), s.alert.overlays[x.service] = .none →
    s.splice.services[x.service].state = .idle → s.splice.services[x.service].test = none → d.comps[x.comp]? = some c →
    let f := s.splice.services[x.service]
    let given := (f.outputCC.getD x.comp {}).give false x.cc x.payload
    let mark := f.markPending && x.clockReference && x.comp == d.clock
    s.decidePacket d x =
      (s.onFields x.service fun f =>
          { f with
            outputCC := f.outputCC.set x.comp given.2
            markPending := f.markPending && !mark },
        .pass (some ⟨c.output, given.1, mark⟩))

/-- What a packet of a service on air is given. In INSERTING it takes the insertion's next content packet; behind the last one
the content has ended: RETURNING with end reason CONTENT_END, the bound armed and the deadline set where network time is
present, or EXHAUSTED where a duration is still to run. Once the duration is reached it is decided as in RETURNING, with
COMPLETE. In EXHAUSTED it is NULL, counted, until the duration is reached, or the time is absent (FORCED_RETURN). In RETURNING,
short of a return packet, it takes content while there is any, then NULL, counted. Under an alert that airs, a packet of FULL
mode, or one of an AUDIO component, takes the run's next content packet, the content looping with a new run start pending;
another one passes with rewrite. A run start waits for the header of packet 0 (NULL and FETCH_LATE meanwhile); at it the offset,
role map and deltas are formed and a mark is owed, which absent time forces on that packet, with O = 0 (R46, R95, R103 to R106,
R109, R125 to R128). That FETCH_FAIL and FETCH_LATE are raised once the packet has been decided is the model's reading (DEDUCED,
log 13), and that a forced mark leaves a mark that is owed as it stands (DEDUCED, log 37); that the prefetch fetch is requested
before the header read (DESIGN CHOICE, log 48), and that a consumed head which was the only entry counts as the queue's last
(DESIGN CHOICE, log 54), are its choices. Stated with no cue under test. -/
def Obligations.ContentOnAir : Prop :=
  (∀ (s : State) (d : Service) (x : TakeNotice) (r : Fin 68) (cdef : ContentDef),
    let i := x.service
    let f := s.splice.services[i]
    let y := s.splice.records[r]
    let now := s.t90 i x.n
    let limit := now.map (· + BitVec.ofNat 33 s.limits.tolerance)
    let bound : Bound := .armed (s.clock + BitVec.ofNat 48 (s.limits.close * 27000))
    let past := now.any fun v => hasReached v (y.tOut + BitVec.ofNat 33 y.d)
    s.alert.overlays[i] = .none → f.current = some r → f.test = none →
    s.content.entries[y.content].definition = some cdef →
    let source : Source := .insertion r y.generation
    let returning := fun (u : State) (reason : EndReason) (limit : Option Time90) =>
      (u.onRecord r fun y => { y with endReason := some reason, bound := bound, deadline := limit }).onFields i fun f =>
        { f with state := .returning }
    let moved := fun u : State => u.onRecord r fun y => { y with cursor := y.cursor + 1 }
    let ended := fun u : State =>
      if y.cursor + 1 < cdef.packets then moved u
      else if y.endAtContent = true ∨ y.d = 0 then returning (moved u) .contentEnd limit
      else (moved u).onFields i fun f => { f with state := .exhausted }
    (f.state = .inserting →
      (0 < y.d → past = true → s.decidePacket d x = (returning s .complete none).decidePacket d x) ∧
      (¬ (0 < y.d ∧ past = true) → y.cursor < cdef.packets →
        s.TakesContent s d x source y.content cdef y.cursor y.offset false ended)) ∧
    (f.state = .exhausted →
      (now = none → s.decidePacket d x = (returning s .forcedReturn none).decidePacket d x) ∧
      (past = true → s.decidePacket d x = (returning s .complete none).decidePacket d x) ∧
      (now ≠ none → past = false → s.decidePacket d x = (s.onRecord r fun y => { y with nulls := y.nulls + 1 }, .null))) ∧
    (f.state = .returning → entryPoint d x = false →
      let set := y.deadline.or limit
      let before := s.onRecord r fun y => { y with deadline := set }
      (now.any fun v => set.any fun l => hasReached v l) = false → (now = none → y.bound ≠ .passed) →
      (y.cursor < cdef.packets → s.TakesContent before d x source y.content cdef y.cursor y.offset false moved) ∧
      (cdef.packets ≤ y.cursor →
        s.decidePacket d x = (before.onRecord r fun y => { y with nulls := y.nulls + 1 }, .null)))) ∧
  ∀ (s : State) (d : Service) (x : TakeNotice) (e : Fin 4) (g : Generation) (q : AlertRun) (cdef : ContentDef),
    let i := x.service
    let f := s.splice.services[i]
    s.alert.overlays[i] = .airing e g → f.run = some q → q.returning = false → f.test = none →
    s.content.entries[q.content].definition = some cdef → q.cursor < cdef.packets →
    let takes := q.mode = .full ∨ d.comps[x.comp]?.map Component.role = some .audio
    let source : Source := .alert q.entry q.generation i
    let n := min 16 cdef.packets
    let advanced := fun u : State =>
      if q.cursor + 1 < cdef.packets then u.onFields i fun f =>
        { f with run := f.run.map fun q => { q with cursor := q.cursor + 1 } }
      else ((u.onFields i fun f =>
        { f with
          run := f.run.map fun q => { q with cursor := 0, startPending := true }
          runQueue := headerEntries u.splice.nextHeader n }).onSplice fun a => { a with nextHeader := a.nextHeader + n }).onPath
            fun p => { p with fetchQueue := p.fetchQueue ++ headerReads i u.splice.nextHeader cdef n }
    (takes → q.startPending = false → s.TakesContent s d x source q.content cdef q.cursor q.offset true advanced) ∧
    (takes → q.startPending = true → q.cursor = 0 →
      ((f.runQueue.head?.all fun h => decide (h.packet ≠ 0 ∨ h.state = .loading)) = true →
        s.decidePacket d x = (s.raise .fetchLate i.val (contentPacketAddress cdef 0) none, .null)) ∧
      (∀ serial state rest first, f.runQueue = ⟨0, serial, state⟩ :: rest → state ≠ .loading →
        s.content.entries[q.content].iFirst = some first →
        let offset :=
          match s.t27 i x.n with
          | some t => (t + 2576980377600 - first.value) % 2576980377600
          | none => 0
        let begun := (s.runFormed i d q.content cdef).onFields i fun f =>
          { f with run := some { q with startPending := false, offset := offset }, markPending := true }
        let out := begun.decidePacket d x
        s.decidePacket d x = (out.1,
          match s.t27 i x.n, out.2 with
          | none, .insert a => .insert { a with rewrite := { a.rewrite with mark := true } }
          | _, action => action))) ∧
    (∀ c, ¬ takes → d.comps[x.comp]? = some c →
      let given := (f.outputCC.getD x.comp {}).give false x.cc x.payload
      let mark := f.markPending && x.clockReference && x.comp == d.clock
      s.decidePacket d x =
        (s.onFields i fun f => { f with outputCC := f.outputCC.set x.comp given.2, markPending := f.markPending && !mark },
          .pass (some ⟨c.output, given.1, mark⟩)))

/-- The cue test. It fires at a splice point, an entry point at which t90 has reached T, of a time cue, and at the splice
packet, the next one after the mark, of a mark cue, where the clock is LOCKED, no overlay and no alert hold stand, a record is
FREE and room is granted. The lowest FREE record becomes ACTIVE with the cue's fields and the offset and times of this packet;
its place is reserved; the service is INSERTING; the cue leaves the queue; SPLICE_STARTED is told; the packet takes content
packet 0 as an INSERT of that record, with the output counter, the mark and the prefetch buffer of a run that starts here. Where
the first of those conditions fails, UNLOCKED, ALERT, NO_ROOM in that order, the packet passes with rewrite: a mark cue misses
with that reason, a time cue keeps it as its blocking cause. A time cue at whose packet t90 has reached T + W misses with its
blocking cause, or NO_ENTRY; a mark cue records a mark, and with none seen at its tolerance end is MISSED_NO_MARK; neither
expires without network time. In EXHAUSTED a time cue's expiry is tested too, and in RETURNING a mark seen misses with NO_ENTRY
at a packet that is no return packet. A cue that misses leaves its queue, with its hold, its test, its headers and its answer
(R46, R61, R85, R93, R95, R97 to R101, R104, R106, R109). A started record has the fields R101 leaves out at 0, absent or clear
(DESIGN CHOICE, log 50). Stated for a cue alone in its queue and, where it fires, a content of two packets or more and a first
header that maps to a component of the service. -/
def Obligations.SpliceOut : Prop :=
  (∀ (s : State) (d : Service) (x : TakeNotice) (t : CueTest) (r : Fin 68) (k : Clock) (cLast : Nat) (nLast : Count32)
    (e : QueueEntry) (cdef : ContentDef) (h : Header) (serial : Nat) (rest : List HeaderEntry) (ci comp : Nat)
    (c : Component) (first : FirstClock),
    let i := x.service
    let f := s.splice.services[i]
    let now := (cLast + (k.p * (x.n - nLast).toNat + 32768) / 65536) % 2576980377600
    let old := s.splice.records[r]
    s.alert.overlays[i] = .none → f.state = .armed → f.alertHold = false → f.test = some t →
    (if t.cue.mark then t.markSeen = true
      else entryPoint d x = true ∧ hasReached (BitVec.ofNat 33 (now / 300)) t.cue.t = true) →
    s.timebase.clocks[i] = some k → k.state = .locked → k.anchor = some (cLast, nLast) → s.report.reservation < 68 →
    old.state = .free → (∀ r' : Fin 68, r' < r → s.splice.records[r'].state ≠ .free) → s.cue.queues[i] = [e] →
    s.content.entries[t.cue.content].definition = some cdef → s.content.entries[t.cue.content].iFirst = some first →
    2 ≤ cdef.packets → f.standbyQueue = ⟨0, serial, .ready h⟩ :: rest →
    cdef.comps.findIdx? (·.pid == h.pid) = some ci → (roleMap cdef.comps d.comps).getD ci none = some comp →
    d.comps[comp]? = some c →
    let out := s.decidePacket d x
    let run := (s.runFormed i d t.cue.content cdef).insertTaken d x (.insertion r old.generation) t.cue.content cdef 0
      ((now + 2576980377600 - first.value) % 2576980377600) h comp c false
    let offset := (now + 2576980377600 - first.value) % 2576980377600
    out.1.splice.records[r] =
      { state := .active, generation := old.generation, service := i, ref := t.cue.ref, cueId := t.cue.cueId,
        content := t.cue.content, d := t.cue.d, endAtContent := t.cue.endAtContent, offset := offset,
        tOut := BitVec.ofNat 33 (now / 300), startTime := s.clock, planned := cdef.packets, cursor := 1, inserted := 1,
        outstanding := 1 } ∧
    out.1.report.reservation = s.report.reservation + 1 ∧ out.1.cue.queues[i] = [] ∧
    out.1.splice.services[i].state = .inserting ∧ out.1.splice.services[i].current = some r ∧
    out.1.splice.services[i].test = none ∧ out.1.splice.services[i].standbyQueue = [] ∧
    out.1.splice.services[i].roleMap = roleMap cdef.comps d.comps ∧
    out.1.splice.services[i].outputCC = run.1.splice.services[i].outputCC ∧
    out.1.splice.services[i].markPending = run.1.splice.services[i].markPending ∧
    (∀ j : Fin 64, j ≠ i → out.1.splice.services[j] = s.splice.services[j] ∧ out.1.cue.queues[j] = s.cue.queues[j]) ∧
    (∀ r' : Fin 68, r' ≠ r → out.1.splice.records[r'] = s.splice.records[r']) ∧
    (∃ rec : InsertionRecord, rec = { out.1.splice.records[r] with cursor := 0, inserted := 0, outstanding := 0 } ∧
      out.1.report = (s.reserve.told [.spliceStarted ⟨r, rec, x.n⟩]).report) ∧
    out.2 = run.2 ∧ out.1.content = run.1.content ∧
    out.1.alert = s.alert ∧ out.1.fault = s.fault ∧ out.1.timebase = s.timebase ∧ out.1.ingest = s.ingest ∧
    out.1.slots = s.slots) ∧
  ∀ (s : State) (d : Service) (x : TakeNotice) (t : CueTest) (e : QueueEntry),
    let i := x.service
    let f := s.splice.services[i]
    let now := s.t90 i x.n
    s.alert.overlays[i] = .none → f.test = some t → s.cue.queues[i] = [e] →
    let missed := fun (u : State) (outcome : CueOutcome) (detail : Option Byte) =>
      (((u.onContentEntry e.cue.content fun y => { y with useCount := y.useCount - 1 }).onQueue i fun _ => []).onFields i
        fun f => { f with test := none, standbyQueue := [], state := if f.state = .armed then .idle else f.state }).told
          [spliceAnswer i e.cue outcome detail]
    let tests := fun (u : State) (t : CueTest) => u.onFields i fun f => { f with test := some t }
    let code : Option BlockCause → Byte := fun
      | some .unlocked => 1
      | some .alert => 2
      | some .noRoom => 3
      | none => 4
    let past := now.any fun v => hasReached v (t.cue.t + BitVec.ofNat 33 t.cue.w)
    (∀ c : Component, f.state = .idle ∨ f.state = .armed → d.comps[x.comp]? = some c →
      let point : Bool := if t.cue.mark then t.markSeen else entryPoint d x && now.any fun v => hasReached v t.cue.t
      let cause : Option BlockCause :=
        if s.timebase.clocks[i].map Clock.state ≠ some .locked then some .unlocked
        else if f.alertHold then some .alert
        else if (∀ r : Fin 68, s.splice.records[r].state ≠ .free) ∨ 68 ≤ s.report.reservation then some .noRoom
        else none
      point = false ∨ cause ≠ none →
      let given := (f.outputCC.getD x.comp {}).give false x.cc x.payload
      let mark := f.markPending && x.clockReference && x.comp == d.clock
      let passed := s.onFields i fun f =>
        { f with outputCC := f.outputCC.set x.comp given.2, markPending := f.markPending && !mark }
      let after := fun u : State => s.decidePacket d x = (u, .pass (some ⟨c.output, given.1, mark⟩))
      (t.cue.mark = false →
        let blocking := if point then cause else t.blocking
        (past = true → after (missed passed .missed (some (code blocking)))) ∧
        (past = false → after (tests passed { t with blocking := blocking }))) ∧
      (t.cue.mark = true →
        (point = true → after (missed passed .missed (some (code cause)))) ∧
        (point = false →
          let ends := t.toleranceEnd.or (now.map (· + BitVec.ofNat 33 t.cue.w))
          let seen := entryComponent d.comps == some x.comp && x.countdown == some 0
          let expired := !seen && now.any fun v => ends.any fun l => hasReached v l
          (expired = true → after (missed passed .missedNoMark none)) ∧
          (expired = false → after (tests passed { t with toleranceEnd := ends, markSeen := seen }))))) ∧
    ∀ r : Fin 68, f.current = some r →
      let y := s.splice.records[r]
      let counted := s.onRecord r fun y => { y with nulls := y.nulls + 1 }
      (f.state = .exhausted → t.cue.mark = false → now ≠ none →
        (now.any fun v => hasReached v (y.tOut + BitVec.ofNat 33 y.d)) = false →
        (past = true → s.decidePacket d x = (missed counted .missed (some (code t.blocking)), .null)) ∧
        (past = false → s.decidePacket d x = (counted, .null))) ∧
      (f.state = .returning → t.cue.mark = true → t.markSeen = true → entryPoint d x = false → s.packetCount y.content ≤ y.cursor →
        let limit := y.deadline.or (now.map (· + BitVec.ofNat 33 s.limits.tolerance))
        (now.any fun v => limit.any fun l => hasReached v l) = false → (now = none → y.bound ≠ .passed) →
        s.decidePacket d x =
          (missed (counted.onRecord r fun y => { y with deadline := limit }) .missed (some (code none)), .null))

/-- A return packet in RETURNING: an entry point, or a packet at which the return is forced, for t90 has reached the return
deadline or is absent with the station bound passed. With no cue under test it passes with rewrite; the record goes CLOSING with
its close expiry armed and t90 at this packet as its return time, or closes at once where nothing is outstanding, with its
as-run record and its hold released; the service is IDLE with no current record and an empty run queue. A forced return is
noted, and it and a clock jump owe a mark before the packet is decided (DEDUCED, log 37), and a record that closes at once keeps
its other fields while FREE (DESIGN CHOICE, log 23). A time cue under test whose splice point the entry point is, its conditions
holding, splices out at the same packet, a chained return: the old record leaves as before, and the lowest-numbered FREE record
other than it becomes ACTIVE, with the packet its first INSERT, stated as in SpliceOut, its other fields too (DESIGN CHOICE, log
50) (R46, R101, R105 to R108, R110, R112). -/
def Obligations.ReturnAtAnEntryPoint : Prop :=
  ∀ (s : State) (d : Service) (x : TakeNotice) (r : Fin 68) (c : Component),
    let i := x.service
    let f := s.splice.services[i]
    let y := s.splice.records[r]
    let t90 := s.t90 i x.n
    let forced := !entryPoint d x
    s.alert.overlays[i] = .none → f.state = .returning → f.current = some r → y.state = .active → y.service = i →
    (entryPoint d x = true ∨ (t90.any fun v => y.deadline.any fun l => hasReached v l) = true ∨
      (t90 = none ∧ y.bound = .passed)) →
    let owed := f.markPending || forced || y.clockJump
    let closing : InsertionRecord :=
      { y with
        state := .closing, endTime := s.clock, tReturn := t90, deadline := none, bound := .unset
        forcedReturn := y.forcedReturn || forced
        closeExpiry := some (s.clock + BitVec.ofNat 48 (s.limits.close * 27000)) }
    let left : InsertionRecord :=
      if y.outstanding = 0 then
        { closing with unconfirmed := 0, state := .free, generation := y.generation + 1, closeExpiry := none }
      else closing
    let gone := s.onRecord r fun _ => left
    let off :=
      if y.outstanding = 0 then
        (gone.onContentEntry y.content fun e => { e with useCount := e.useCount - 1 }).told
          [.asRun r { closing with unconfirmed := 0 }]
      else gone
    (f.test = none → d.comps[x.comp]? = some c →
      let given := (f.outputCC.getD x.comp {}).give false x.cc x.payload
      let mark := owed && x.clockReference && x.comp == d.clock
      s.decidePacket d x =
        (off.onFields i fun f =>
            { f with
              state := .idle, current := none, runQueue := [], roleMap := []
              outputCC := f.outputCC.set x.comp given.2, markPending := owed && !mark },
          .pass (some ⟨c.output, given.1, mark⟩))) ∧
    ∀ (t : CueTest) (r' : Fin 68) (k : Clock) (cLast : Nat) (nLast : Count32) (e : QueueEntry) (cdef : ContentDef) (h : Header)
      (serial : Nat) (rest : List HeaderEntry) (ci comp : Nat) (first : FirstClock),
      let now := (cLast + (k.p * (x.n - nLast).toNat + 32768) / 65536) % 2576980377600
      let old := s.splice.records[r']
      f.test = some t → t.cue.mark = false → entryPoint d x = true → f.alertHold = false →
      s.timebase.clocks[i] = some k → k.state = .locked → k.anchor = some (cLast, nLast) →
      hasReached (BitVec.ofNat 33 (now / 300)) t.cue.t = true → s.report.reservation < 68 → old.state = .free →
      (∀ q : Fin 68, q < r' → s.splice.records[q].state ≠ .free) → s.cue.queues[i] = [e] →
      s.content.entries[t.cue.content].definition = some cdef → s.content.entries[t.cue.content].iFirst = some first →
      2 ≤ cdef.packets → f.standbyQueue = ⟨0, serial, .ready h⟩ :: rest →
      cdef.comps.findIdx? (·.pid == h.pid) = some ci → (roleMap cdef.comps d.comps).getD ci none = some comp →
      d.comps[comp]? = some c →
      let offset := (now + 2576980377600 - first.value) % 2576980377600
      let started : InsertionRecord :=
        { state := .active, generation := old.generation, service := i, ref := t.cue.ref, cueId := t.cue.cueId,
          content := t.cue.content, d := t.cue.d, endAtContent := t.cue.endAtContent, offset := offset,
          tOut := BitVec.ofNat 33 (now / 300), startTime := s.clock, planned := cdef.packets }
      let run := ((s.onFields i fun f => { f with markPending := owed }).runFormed i d t.cue.content cdef).insertTaken d x
        (.insertion r' old.generation) t.cue.content cdef 0 offset h comp c false
      let out := s.decidePacket d x
      r' ≠ r ∧ out.1.splice.records[r] = left ∧
        out.1.splice.records[r'] = { started with cursor := 1, inserted := 1, outstanding := 1 } ∧
        out.1.splice.services[i].state = .inserting ∧ out.1.splice.services[i].current = some r' ∧
        out.1.splice.services[i].test = none ∧ out.1.cue.queues[i] = [] ∧
        out.1.splice.services[i].outputCC = run.1.splice.services[i].outputCC ∧
        out.1.splice.services[i].markPending = run.1.splice.services[i].markPending ∧
        out.1.report = (off.reserve.told [.spliceStarted ⟨r', started, x.n⟩]).report ∧
        out.1.content.prefetch = run.1.content.prefetch ∧ out.2 = run.2

/-! ## Records and errors (09, 10) -/

/-- A record handed to the Report Unit takes the production counter's value and the current station time; an as-run record is
always appended, a general one while fewer than 24 general records wait, and otherwise it is dropped and counted, the count
staying at 2^32 − 1 (R166). -/
def Obligations.RecordProduced : Prop :=
  ∀ (s : State) (b : ReportBody),
    let general := s.report.queue.countP fun r => !r.body.isAsRun
    s.told [b] = s.onReport fun u =>
      if b.isAsRun = true ∨ general < 24 then
        { u with production := u.production + 1, queue := u.queue ++ [⟨b, u.production, s.clock⟩] }
      else { u with production := u.production + 1, dropped := min (u.dropped + 1) (2 ^ 32 - 1) }

/-- An error report of a kind whose severity is CONTAIN and that is not CONFIG_ERROR: an unmasked one is captured where no
capture is held, and recorded, the record produced with the repeat count of its holdoff entry or, while that is HOLDING,
suppressed and counted; a masked one does nothing. The part state and the latch stay. One that acts on the latch, of severity
BYPASS or a CONFIG_ERROR whatever its severity, masked or not, its holdoff entry IDLE, sets the latch where it is clear, with
cause ERROR, or CONFIG for a CONFIG_ERROR: in BYPASS or STARTING it moves nothing else of the part state, and its record shows
HELD; in OPERATING the part enters BYPASS after the record, which shows ENTERED, stated from a state whose room is kept (R175,
R180 to R184, R192). An insertion record or alert entry that closes at once there keeps its other fields while FREE (DESIGN
CHOICE, log 23). -/
def Obligations.ErrorsCapturedAndRecorded : Prop :=
  (∀ (s : State) (k : ErrorKind) (index address : Nat) (packet : Option (List Byte)),
    s.fault.policy[errorNumber k].severity = .bypass ∨ k = .configError →
    s.report.holdoff[holdoffIndex k index] = .idle →
    let held := s.fault.capture.getD ⟨k, index, s.clock, address, packet⟩
    let next : Holdoff :=
      if s.limits.holdoff = 0 then .idle else .holding 0 (s.clock + BitVec.ofNat 48 (s.limits.holdoff * 27000))
    let reported := fun effect : BypassEffect =>
      let recorded :=
        if s.fault.policy[errorNumber k].masked = true then s
        else ((s.onFault fun u => { u with capture := some held }).told
          [.error ⟨k, index, address, packet, s.fault.policy[errorNumber k].severity, effect, s.fault.capture.isNone,
            some held, 0⟩]).onReport fun u => { u with holdoff := u.holdoff.set (holdoffIndex k index) next }
      recorded.onFault fun u => { u with latch := some (u.latch.getD (if k = .configError then .config else .error)) }
    (s.fault.part ≠ .operating → s.raise k index address packet = reported .held) ∧
    (s.fault.part = .operating → s.RoomKept →
      let v := s.raise k index address packet
      v.fault = { (reported .entered).fault with part := .bypass } ∧ (reported .entered).Bypasses v [])) ∧
  ∀ (s : State) (k : ErrorKind) (index address : Nat) (packet : Option (List Byte)),
    s.fault.policy[errorNumber k].severity = .contain → k ≠ .configError →
    let place := holdoffIndex k index
    let captured : Capture := ⟨k, index, s.clock, address, packet⟩
    let held := s.fault.capture.getD captured
    let s' := s.onFault fun u => { u with capture := some held }
    let record := fun repeats : Nat => ReportBody.error
      ⟨k, index, address, packet, .contain, .none, s.fault.capture.isNone, some held, repeats⟩
    let next : Holdoff :=
      if s.limits.holdoff = 0 then .idle else .holding 0 (s.clock + BitVec.ofNat 48 (s.limits.holdoff * 27000))
    let produced := fun repeats : Nat =>
      (s'.told [record repeats]).onReport fun u => { u with holdoff := u.holdoff.set place next }
    (s.fault.policy[errorNumber k].masked = true → s.raise k index address packet = s) ∧
    (s.fault.policy[errorNumber k].masked = false →
      (s.report.holdoff[place] = .idle → s.raise k index address packet = produced 0) ∧
      (∀ n, s.report.holdoff[place] = .lapsed n → s.raise k index address packet = produced n) ∧
      (∀ n expiry, s.report.holdoff[place] = .holding n expiry → s.raise k index address packet =
        s'.onReport fun u =>
          { u with holdoff := u.holdoff.set place (.holding (min (n + 1) (2 ^ 32 - 1)) expiry) }))

/-! ## Expiries (11.1) -/

/-- The close limit of a CLOSING insertion record, or of a CLOSING alert entry, passes: it closes with its outstanding count as
unconfirmed. The as-run record is told, the content's hold released, the record FREE under the next generation (R112, R133); its
other fields stay (DESIGN CHOICE, log 23). -/
def Obligations.CloseLimitCloses : Prop :=
  (∀ (s : State) (r : Fin 68) (x : StationTime), s.resetHeld = false → s.splice.records[r].closeExpiry = some x →
    (s.clock - x).toNat < 2 ^ 47 →
    let y := { s.splice.records[r] with unconfirmed := s.splice.records[r].outstanding }
    ∃ t, exec (.insertionCloseExpiry r) s = .next t ∧
      (((s.onRecord r fun _ => { y with state := .free, generation := y.generation + 1, closeExpiry := none }).onContentEntry
        y.content fun e => { e with useCount := e.useCount - 1 }).told [.asRun r y]).EndsAs t) ∧
  ∀ (s : State) (i : Fin 4) (x : StationTime), s.resetHeld = false → s.alert.entries[i].closeExpiry = some x →
    (s.clock - x).toNat < 2 ^ 47 →
    let y := { s.alert.entries[i] with unconfirmed := s.alert.entries[i].outstanding }
    ∃ t, exec (.alertCloseExpiry i) s = .next t ∧
      (((s.onEntry i fun _ =>
          { y with state := .free, generation := y.generation + 1, durationExpiry := none, closeExpiry := none }).onContentEntry
        y.content fun e => { e with useCount := e.useCount - 1 }).told [.alertAsRun i y]).EndsAs t

/-- A service's silence expiry passes: the clock state becomes NONE, both counts 0, the expiry disarmed, the rest of the clock
kept, and CLOCK_EVENT SILENT is told. The expiries that only mark: a station bound, of an insertion or of an alert run, is marked as passed; a HOLDING entry
of the holdoff table becomes IDLE, or LAPSED where records were suppressed (R39, R105, R131, R175). -/
def Obligations.ExpiriesPass : Prop :=
  ∀ (s : State) (x : StationTime), s.resetHeld = false → (s.clock - x).toNat < 2 ^ 47 →
    (∀ (i : Fin 64) (c : Clock), s.timebase.clocks[i] = some c → c.silence = some x →
      let k : Clock := { c with state := .none, good := 0, bad := 0, silence := none }
      ∃ t, exec (.silenceExpiry i) s = .next t ∧
        ((s.setClock i (some k)).told [.clockEvent ⟨i, .silent, none, c.state, none, none, k⟩]).EndsAs t) ∧
    (∀ r : Fin 68, s.splice.records[r].bound = .armed x →
      ∃ t, exec (.returningStationBound r) s = .next t ∧
        (s.onRecord r fun y => { y with bound := .passed }).EndsAs t) ∧
    (∀ (i : Fin 64) (run : AlertRun), s.splice.services[i].run = some run → run.bound = .armed x →
      ∃ t, exec (.alertStationBound i) s = .next t ∧
        (s.onFields i fun f => { f with run := some { run with bound := .passed } }).EndsAs t) ∧
    ∀ (k : ErrorKind) (i : Fin 64) (n : Nat), i.val < k.scopeSize →
      s.report.holdoff[holdoffIndex k i.val] = .holding n x →
      ∃ t, exec (.holdoffExpiry k i) s = .next t ∧
        (s.onReport fun u =>
          { u with holdoff := u.holdoff.set (holdoffIndex k i.val) (if n = 0 then .idle else .lapsed n) }).EndsAs t

/-- An ACTIVE alert ends, by its duration expiry or as the one ACTIVE entry with the id of an ALERT_END: ENDING with its end
reason and its duration disarmed, each service it airs on RETURNING with its run returning and its station bound armed. An alert
that no overlay names goes CLOSING at once, its close expiry armed, or closes, with its as-run record and its hold released,
where nothing is outstanding. An ALERT_END whose id no ACTIVE entry holds is answered NOT_FOUND. At the return packet of a
service, an entry point or a forced one, the overlay ends: with no ACTIVE alert that covers the service the packet passes with
rewrite, a mark owed; with one alone, that alert airs, resumed in a new run with a mark owed, the packet NULL with FETCH_LATE
until the first header has come. The alert that is left, ENDING and named by no overlay, goes CLOSING or closes (R93, R124 to
R126, R129 to R133). An entry that closes keeps its other fields while FREE (DESIGN CHOICE, log 23), the run's offset is 0 until
its run start (DESIGN CHOICE, log 43), the mark is owed before the return packet is decided (DEDUCED, log 37), and FETCH_LATE is
raised once it has been (DEDUCED, log 13). Stated with no cue under test, and the resumption for an alert of FULL mode. -/
def Obligations.AlertEnds : Prop :=
  (∀ (s : State) (i : Fin 4), s.resetHeld = false →
    let e := s.alert.entries[i]
    let ends := fun (ended : AlertEnd → State) =>
      (∀ x, e.durationExpiry = some x → (s.clock - x).toNat < 2 ^ 47 →
        ∃ t, exec (.alertDurationExpiry i) s = .next t ∧ (ended .expired).EndsAs t) ∧
      (∀ ref, s.fault.part = .operating → e.state = .active →
        (∀ j : Fin 4, s.alert.entries[j].state = .active → s.alert.entries[j].alertId = e.alertId → j = i) →
        ∃ t, exec (.alertEnd ref e.alertId) s = .next t ∧
          ((ended .ended).told [cueAnswer ref 7 none none .done none]).EndsAs t)
    (∀ (air : Fin 64) (g : Generation), s.alert.overlays[air] = .airing i g →
      ends fun reason =>
        ((s.onEntry i fun e => { e with state := .ending, endReason := some reason, durationExpiry := none }).onAlert fun u =>
          { u with overlays := u.overlays.map fun o =>
            match o with
            | .airing e g => if e = i then .returning e g else .airing e g
            | o => o }).onSplice fun u =>
          { u with services := Vector.ofFn fun j : Fin 64 =>
            match s.alert.overlays[j] with
            | .airing e _ =>
              if e = i then
                { u.services[j] with run := u.services[j].run.map fun r =>
                  { r with returning := true, bound := .armed (s.clock + BitVec.ofNat 48 (s.limits.close * 27000)) } }
              else u.services[j]
            | _ => u.services[j] }) ∧
    ((∀ (j : Fin 64) g, s.alert.overlays[j] ≠ .airing i g ∧ s.alert.overlays[j] ≠ .returning i g) →
      ends fun reason => s.alertLeft i { e with endReason := some reason })) ∧
  (∀ (s : State) (ref : CueRef) (alertId : BitVec 16), s.resetHeld = false → s.fault.part = .operating →
    (∀ j : Fin 4, ¬ (s.alert.entries[j].state = .active ∧ s.alert.entries[j].alertId = alertId)) →
    ∃ t, exec (.alertEnd ref alertId) s = .next t ∧ (s.told [cueAnswer ref 7 none none .notFound none]).EndsAs t) ∧
  ∀ (s : State) (d : Service) (x : TakeNotice) (i : Fin 4) (g : Generation) (q : AlertRun) (c : Component),
    let j := x.service
    let f := s.splice.services[j]
    let now := s.t90 j x.n
    s.alert.overlays[j] = .returning i g → f.run = some q → q.returning = true → q.entry = i → f.test = none →
    (entryPoint d x = true ∨ (now.any fun v => q.deadline.any fun l => hasReached v l) = true ∨
      (now = none ∧ q.bound = .passed)) →
    let covers := fun a : Fin 4 => s.alert.entries[a].state = .active ∧ s.alert.entries[a].captured.getLsbD j.val = true
    let named := ∃ k : Fin 64, k ≠ j ∧ ∃ g, s.alert.overlays[k] = .airing i g ∨ s.alert.overlays[k] = .returning i g
    let settled := fun u : State =>
      if s.alert.entries[i].state = .ending ∧ ¬ named then u.alertLeft i s.alert.entries[i] else u
    let under := fun o : Overlay => s.onAlert fun u => { u with overlays := u.overlays.set j o }
    ((∀ a, ¬ covers a) → d.comps[x.comp]? = some c →
      let given := (f.outputCC.getD x.comp {}).give false x.cc x.payload
      let mark := x.clockReference && x.comp == d.clock
      s.decidePacket d x =
        ((settled (under .none)).onFields j fun f =>
            { f with
              run := none, runQueue := [], roleMap := [], alertHold := false
              outputCC := f.outputCC.set x.comp given.2, markPending := !mark },
          .pass (some ⟨c.output, given.1, mark⟩))) ∧
    ∀ (a : Fin 4) (cdef : ContentDef), (∀ a', covers a' ↔ a' = a) → s.alert.entries[a].mode = .full →
      s.content.entries[s.alert.entries[a].content].definition = some cdef →
      let e := s.alert.entries[a]
      let n := min 16 cdef.packets
      s.decidePacket d x =
        (((((settled (under (.airing a e.generation))).onFields j fun f =>
            { f with
              run := some ⟨a, e.generation, .full, e.content, true, 0, 0, false, none, .unset⟩, markPending := true
              runQueue := headerEntries s.splice.nextHeader n }).onSplice fun u =>
          { u with nextHeader := u.nextHeader + n }).onPath fun p =>
            { p with fetchQueue := p.fetchQueue ++ headerReads j s.splice.nextHeader cdef n }).raise .fetchLate j.val
              (contentPacketAddress cdef 0) none, .null)

/-! ## Cues (03, 04, 06) -/

/-- In BYPASS every cue but CONFIGURE, ACK_ERROR and RESUME is answered REFUSED_BYPASS, with the service and the cue id of the
kinds that have them. In OPERATING a splice cue, a CANCEL, a FLUSH_SERVICE and a RETURN_NOW are refused for their form and
names: a service over 63, a content over 127, a T of 2^33 or more in a time cue are REFUSED_MALFORMED; a service not defined, a
content that is FREE are UNDEFINED. So are an ALERT_START and a CONTENT_RELEASE of a content that is FREE; malformed are an
ALERT_START with a priority over 3, another mode, no group or a content over 127, a CONTENT_DEFINE with any field out of its
range, and a CONTENT_RELEASE of a content over 127. A refused cue has no other effect (R54, R55, R56). That the answer to a
refused FLUSH_SERVICE has no detail is the model's choice (DESIGN CHOICE, log 55). -/
def Obligations.CuesRefusedUnhandled : Prop :=
  (∀ (s : State) (ref : CueRef) (body : SpliceBody) (service content : Byte) (cueId : BitVec 32) (alert : AlertBody)
    (alertId : BitVec 16) (define : DefineBody) (groups arbiter : Bool), s.resetHeld = false → s.fault.part = .bypass →
    ∀ c k svc id,
      (c, k, svc, id) ∈ ([
        (.spliceAtTime ref body, 1, some body.service, some body.cueId),
        (.spliceAtMark ref body, 2, some body.service, some body.cueId),
        (.cancel ref service cueId, 3, some service, some cueId), (.flushService ref service, 4, some service, none),
        (.returnNow ref service, 5, some service, none), (.alertStart ref alert, 6, none, none),
        (.alertEnd ref alertId, 7, none, none), (.contentDefine ref define, 8, none, none),
        (.contentRelease ref content, 9, none, none), (.applyStaged ref groups arbiter, 11, none, none),
        (.bypass ref, 13, none, none)] : List (Instr × Byte × Option Byte × Option (BitVec 32))) →
      ∃ t, exec c s = .next t ∧ (s.told [cueAnswer ref k svc id .refusedBypass none]).EndsAs t) ∧
  (∀ (s : State) (ref : CueRef) (body : SpliceBody) (service : Byte) (cueId : BitVec 32), s.resetHeld = false →
    s.fault.part = .operating →
    let splice := fun mark : Bool => if mark then Instr.spliceAtMark ref body else .spliceAtTime ref body
    let told := fun (c : Instr) (k : Byte) (svc : Byte) (id : Option (BitVec 32)) (o : CueOutcome) =>
      ∃ t, exec c s = .next t ∧ (s.told [cueAnswer ref k (some svc) id o none]).EndsAs t
    (∀ mark : Bool, 64 ≤ body.service.toNat ∨ 128 ≤ body.content.toNat ∨ (mark = false ∧ 2 ^ 33 ≤ body.t.toNat) →
      told (splice mark) (if mark then 2 else 1) body.service (some body.cueId) .refusedMalformed) ∧
    (∀ (mark : Bool) (i : Fin 64) (c : Fin 128), body.service.toNat = i.val → body.content.toNat = c.val →
      mark = true ∨ body.t.toNat < 2 ^ 33 → s.ingest.services[i] = none ∨ s.content.entries[c].state = .free →
      told (splice mark) (if mark then 2 else 1) body.service (some body.cueId) .undefined) ∧
    (∀ c k id, (c, k, id) ∈ ([(.cancel ref service cueId, 3, some cueId), (.flushService ref service, 4, none),
        (.returnNow ref service, 5, none)] : List (Instr × Byte × Option (BitVec 32))) →
      (64 ≤ service.toNat → told c k service id .refusedMalformed) ∧
      (∀ i : Fin 64, service.toNat = i.val → s.ingest.services[i] = none → told c k service id .undefined))) ∧
  ∀ (s : State) (ref : CueRef), s.resetHeld = false → s.fault.part = .operating →
    let told := fun (c : Instr) (k : Byte) (o : CueOutcome) =>
      ∃ t, exec c s = .next t ∧ (s.told [cueAnswer ref k none none o none]).EndsAs t
    (∀ b : AlertBody,
      (4 ≤ b.priority.toNat ∨ (b.mode ≠ 0 ∧ b.mode ≠ 1) ∨ b.groups = 0 ∨ 128 ≤ b.content.toNat →
        told (.alertStart ref b) 6 .refusedMalformed) ∧
      (∀ c : Fin 128, b.priority.toNat < 4 → b.mode = 0 ∨ b.mode = 1 → b.groups ≠ 0 → b.content.toNat = c.val →
        s.content.entries[c].state = .free → told (.alertStart ref b) 6 .undefined)) ∧
    (∀ b : DefineBody,
      128 ≤ b.content.toNat ∨ (b.stride.toNat ≠ 188 ∧ b.stride.toNat ≠ 192 ∧ b.stride.toNat ≠ 256) ∨ b.packets.toNat = 0 ∨
        16777215 < b.packets.toNat ∨ b.base.toNat % 4 ≠ 0 ∨ 2 ^ 40 < b.base.toNat + b.packets.toNat * b.stride.toNat ∨
        b.count.toNat = 0 ∨ 8 < b.count.toNat ∨
        (∃ k, k < b.count.toNat ∧ k < 8 ∧ ((b.comps.extractLsb' (16 * k + 13) 2 = 0) ∨ b.comps.extractLsb' (16 * k) 13 = 8191)) →
      told (.contentDefine ref b) 8 .refusedMalformed) ∧
    ∀ content : Byte,
      (128 ≤ content.toNat → told (.contentRelease ref content) 9 .refusedMalformed) ∧
      ∀ c : Fin 128, content.toNat = c.val → s.content.entries[c].state = .free →
        told (.contentRelease ref content) 9 .undefined

/-- A checked splice cue, of time or mark: it is refused QUEUE_FULL where its service's queue holds 8 entries or all queues 256;
otherwise it joins the tail with W and D clamped, and as the head of an empty queue it waits on content being scanned, or
misses with MISSED_CONTENT on FAILED content (R55, R57, R58, R59). -/
def Obligations.SpliceCueQueued : Prop :=
  ∀ (s : State) (mark : Bool) (ref : CueRef) (b : SpliceBody) (i : Fin 64) (c : Fin 128), s.resetHeld = false →
    s.fault.part = .operating → b.service.toNat = i.val → b.content.toNat = c.val → mark = true ∨ b.t.toNat < 2 ^ 33 →
    s.ingest.services[i] ≠ none → s.content.entries[c].state ≠ .free →
    let x := if mark then Instr.spliceAtMark ref b else .spliceAtTime ref b
    let cue : SpliceCue := ⟨ref, mark, b.cueId, c, if mark then 0 else b.t.setWidth 33, min b.w.toNat (2 ^ 24 - 1),
      min b.d.toNat (2 ^ 31), b.endAtContent⟩
    let all := (s.cue.queues.toList.map List.length).sum
    let answer := fun o : CueOutcome =>
      cueAnswer ref (if mark then 2 else 1) (some (BitVec.ofNat 8 i.val)) (some b.cueId) o none
    (8 ≤ s.cue.queues[i].length ∨ 256 ≤ all →
      ∃ t, exec x s = .next t ∧ (s.told [answer .queueFull]).EndsAs t) ∧
    (s.cue.queues[i].length < 8 → all < 256 → s.cue.queues[i] ≠ [] →
      ∃ t, exec x s = .next t ∧ (s.onQueue i fun q => q ++ [⟨cue, .queued⟩]).EndsAs t) ∧
    (s.cue.queues[i] = [] → all < 256 → s.content.entries[c].state = .queued ∨ s.content.entries[c].state = .scanning →
      ∃ t, exec x s = .next t ∧ (s.onQueue i fun _ => [⟨cue, .waiting⟩]).EndsAs t) ∧
    (s.cue.queues[i] = [] → all < 256 → s.content.entries[c].state = .failed →
      ∃ t, exec x s = .next t ∧ (s.told [answer .missedContent]).EndsAs t)

/-- A checked splice cue that becomes the head on READY content is ARMED: the content is held, the cue test begins with its
tolerance end (T + W of a time cue; t_arm + W of a mark cue where the window has a last take and the clock a time, unset
otherwise), an IDLE service becomes ARMED, and the headers of the first 16 packets, or all, are asked for in order. A time cue is
late where t90 at the arming index has reached T + W: it is answered MISSED_LATE and leaves its queue, its hold and its test end,
the standby queue is emptied, and the header reads that its arming asked for stand (R59, R61, R94, R96, R100). -/
def Obligations.SpliceCueArmed : Prop :=
  ∀ (s : State) (mark : Bool) (ref : CueRef) (b : SpliceBody) (i : Fin 64) (c : Fin 128) (d : ContentDef) (v : Service),
    s.resetHeld = false → s.fault.part = .operating → b.service.toNat = i.val → b.content.toNat = c.val →
    mark = true ∨ b.t.toNat < 2 ^ 33 → s.ingest.services[i] = some v → s.content.entries[c].state = .ready →
    s.content.entries[c].definition = some d → s.cue.queues[i] = [] → (s.cue.queues.toList.map List.length).sum < 256 →
    let w : Nat := min b.w.toNat (2 ^ 24 - 1)
    let cue : SpliceCue := ⟨ref, mark, b.cueId, c, if mark then 0 else b.t.setWidth 33, w, min b.d.toNat (2 ^ 31),
      b.endAtContent⟩
    let arm : Option Time90 :=
      match s.ingest.assembly[v.window] with
      | some ⟨_, some (_, n)⟩ => s.t90 i n
      | _ => none
    let n := min 16 d.packets
    let late := mark = false ∧ (arm.any fun t => hasReached t (cue.t + BitVec.ofNat 33 w)) = true
    let test : CueTest := ⟨cue, if mark then arm.map (· + BitVec.ofNat 33 w) else some (cue.t + BitVec.ofNat 33 w), none, false⟩
    let asked := (s.onSplice fun u => { u with nextHeader := u.nextHeader + n }).onPath fun p =>
      { p with fetchQueue := p.fetchQueue ++ headerReads i s.splice.nextHeader d n }
    let ends := fun u : State =>
      ∃ t, exec (if mark then .spliceAtMark ref b else .spliceAtTime ref b) s = .next t ∧ u.EndsAs t
    (¬ late → ends (((asked.onContentEntry c fun e => { e with useCount := e.useCount + 1 }).onQueue i fun _ =>
      [⟨cue, .armed⟩]).onFields i fun f =>
        { f with
          test := some test
          state := if f.state = .idle then .armed else f.state
          standbyQueue := f.standbyQueue ++ headerEntries s.splice.nextHeader n })) ∧
    (late → ends ((asked.onFields i fun f =>
      { f with
        test := none, standbyQueue := []
        state := if f.state = .armed then .idle else f.state }).told [spliceAnswer i cue .missedLate none]))

/-- CANCEL removes the oldest entry with the cue id and answers CANCELLED and DONE: one behind the head leaves the rest as it
is; of the head, an ARMED one has its hold released and its test ended, a WAITING one had neither, and the next entry becomes
the head and is armed, as `HeadArmed` spells out; none found is NOT_FOUND. FLUSH_SERVICE empties the queue, oldest first, each
entry FLUSHED, then DONE with their number (R59, R62, R63, R96, R100). -/
def Obligations.CancelAndFlush : Prop :=
  ∀ (s : State) (ref : CueRef) (service : Byte) (i : Fin 64) (cueId : BitVec 32), s.resetHeld = false →
    s.fault.part = .operating → service.toNat = i.val → s.ingest.services[i] ≠ none →
    let done := fun o : CueOutcome => cueAnswer ref 3 (some service) (some cueId) o none
    let untested := fun (x : State) (c : Fin 128) => (x.onContentEntry c fun e => { e with useCount := e.useCount - 1 }).onFields
      i fun f => { f with test := none, standbyQueue := [], state := if f.state = .armed then .idle else f.state }
    ((∀ e ∈ s.cue.queues[i], e.cue.cueId ≠ cueId) →
      ∃ t, exec (.cancel ref service cueId) s = .next t ∧ (s.told [done .notFound]).EndsAs t) ∧
    (∀ (before behind : List QueueEntry) (e : QueueEntry), s.cue.queues[i] = before ++ e :: behind → before ≠ [] →
      e.cue.cueId = cueId → (∀ e' ∈ before, e'.cue.cueId ≠ cueId) → e.state ≠ .armed →
      ∃ t, exec (.cancel ref service cueId) s = .next t ∧
        ((s.onQueue i fun _ => before ++ behind).told [spliceAnswer i e.cue .cancelled none, done .done]).EndsAs t) ∧
    (∀ (e : QueueEntry) (rest : List QueueEntry), s.cue.queues[i] = e :: rest → e.cue.cueId = cueId →
      ∃ t u, exec (.cancel ref service cueId) s = .next t ∧ State.HeadArmed i
        (((if e.state = .armed then untested s e.cue.content else s).onQueue i fun _ => rest).told
          [spliceAnswer i e.cue .cancelled none]) u ∧ (u.told [done .done]).EndsAs t) ∧
    (∀ (e : QueueEntry) (rest : List QueueEntry), s.cue.queues[i] = e :: rest → (∀ e' ∈ rest, e'.state ≠ .armed) →
      ∃ t, exec (.flushService ref service) s = .next t ∧
        ((((if e.state = .armed then untested s e.cue.content else s).onQueue i fun _ => []).told
          ((e :: rest).map fun e => spliceAnswer i e.cue .flushed none)).told
            [cueAnswer ref 4 (some service) none .done (some (BitVec.ofNat 8 (rest.length + 1)))]).EndsAs t) ∧
    (s.cue.queues[i] = [] →
      ∃ t, exec (.flushService ref service) s = .next t ∧
        (s.told [cueAnswer ref 4 (some service) none .done (some 0)]).EndsAs t)

/-- RETURN_NOW: an insertion in INSERTING or EXHAUSTED enters RETURNING with end reason RETURN_NOW, its station bound armed and its
return deadline unset; one in RETURNING stays as it is; both are answered DONE. Without an ACTIVE insertion it is NOT_FOUND and
nothing changes (R64, R105). -/
def Obligations.ReturnNowReturns : Prop :=
  ∀ (s : State) (ref : CueRef) (service : Byte) (i : Fin 64), s.resetHeld = false → s.fault.part = .operating →
    service.toNat = i.val → s.ingest.services[i] ≠ none →
    let done := fun o : CueOutcome => cueAnswer ref 5 (some service) none o none
    (∀ r, s.splice.services[i].current = some r →
      s.splice.services[i].state = .inserting ∨ s.splice.services[i].state = .exhausted →
      ∃ t, exec (.returnNow ref service) s = .next t ∧
        (((s.onRecord r fun y =>
            { y with
              endReason := some .returnNow, deadline := none
              bound := .armed (s.clock + BitVec.ofNat 48 (s.limits.close * 27000)) }).onFields i fun f =>
          { f with state := .returning }).told [done .done]).EndsAs t) ∧
    (∀ r, s.splice.services[i].current = some r → s.splice.services[i].state = .returning →
      ∃ t, exec (.returnNow ref service) s = .next t ∧ (s.told [done .done]).EndsAs t) ∧
    (s.splice.services[i].current = none →
      ∃ t, exec (.returnNow ref service) s = .next t ∧ (s.told [done .notFound]).EndsAs t)

/-- An ALERT_START of good form is refused, in order: TABLE_FULL, CONTENT for AUDIO_ONLY content with another role, REPORT_FULL
at 72 places, CONTENT for content that is not READY; a refused one changes nothing else. An accepted one takes the lowest FREE
entry: ACTIVE with the cue's fields, the next start order, its duration armed; its place is reserved and its content held. Each
captured service is then offered to it, in rising order, as `offered` spells out: an overlay of NONE is taken, and an insertion
on the service goes CLOSING with end reason PREEMPTED or closes; an alert that airs is displaced if it is weaker, one that is
returning unless a stronger one covers the service; the displaced one notes by whom, and closes if it was ENDING there last.
ALERT_STARTED tells the services taken. Where it captures no service nothing else happens. Where it captures one, with no
overlay and no insertion: that service's overlay is AIRING for it, its alert hold is set, and it has a run that starts from
packet 0, whose headers are asked for (R66, R112, R113, R119 to R122, R124, R133). A run's offset is 0 until its run start
(DESIGN CHOICE, log 43), and a record or entry that closes keeps its other fields while FREE (DESIGN CHOICE, log 23). The
general clause is stated from a state whose room is kept. -/
def Obligations.AlertStartHandled : Prop :=
  (∀ (s : State) (ref : CueRef) (b : AlertBody) (c : Fin 128) (d : ContentDef), s.resetHeld = false →
    s.fault.part = .operating → b.content.toNat = c.val → b.priority.toNat < 4 → b.mode = 0 ∨ b.mode = 1 → b.groups ≠ 0 →
    s.content.entries[c].state ≠ .free → s.content.entries[c].definition = some d →
    let told := fun o : CueOutcome =>
      ∃ t, exec (.alertStart ref b) s = .next t ∧ (s.told [cueAnswer ref 6 none none o none]).EndsAs t
    let full := ∀ e : Fin 4, s.alert.entries[e].state ≠ .free
    let unsuited := b.mode = 1 ∧ ∃ x ∈ d.comps, x.role ≠ .audio
    (full → told .tableFull) ∧ (¬ full → unsuited → told .content) ∧
    (¬ full → ¬ unsuited → 72 ≤ s.report.reservation → told .reportFull) ∧
    (¬ full → ¬ unsuited → s.report.reservation < 72 → s.content.entries[c].state ≠ .ready → told .content)) ∧
  ∀ (s : State) (ref : CueRef) (b : AlertBody) (c : Fin 128) (d : ContentDef) (i : Fin 4), s.resetHeld = false →
    s.fault.part = .operating → b.content.toNat = c.val → (hp : b.priority.toNat < 4) →
    b.mode = 0 ∨ (b.mode = 1 ∧ ∀ x ∈ d.comps, x.role = .audio) → b.groups ≠ 0 →
    s.content.entries[c].state = .ready → s.content.entries[c].definition = some d → s.report.reservation < 72 →
    s.alert.entries[i].state = .free → (∀ j : Fin 4, j < i → s.alert.entries[j].state ≠ .free) →
    let set := s.captured b.groups
    let mode : AlertMode := if b.mode = 0 then .full else .audioOnly
    let e : AlertEntry :=
      { state := .active, generation := s.alert.entries[i].generation, alertId := b.alertId,
        startOrder := s.alert.startOrder, priority := ⟨b.priority.toNat, hp⟩, mode := mode, content := c,
        duration := b.duration, ref := ref, startTime := s.clock, captured := set,
        durationExpiry := if b.duration = 0 then none
          else some (s.clock + BitVec.ofNat 48 (b.duration.toNat * 27000000)) }
    let started := (((s.onReport fun u => { u with reservation := u.reservation + 1 }).onContentEntry c fun x =>
      { x with useCount := x.useCount + 1 }).onEntry i fun _ => e).onAlert fun u => { u with startOrder := u.startOrder + 1 }
    let all := started.offeredAll i set d
    (s.RoomKept → ∃ t, exec (.alertStart ref b) s = .next t ∧
      (all.1.told [.alertStarted ⟨i, all.1.alert.entries[i], all.2⟩]).EndsAs t) ∧
    (set = 0 → ∃ t, exec (.alertStart ref b) s = .next t ∧ (started.told [.alertStarted ⟨i, e, 0⟩]).EndsAs t) ∧
    (∀ v : Fin 64, set = BitVec.twoPow 64 v.val → s.alert.overlays[v] = .none → s.splice.services[v].current = none →
      let n := min 16 d.packets
      let run : AlertRun := ⟨i, e.generation, mode, c, true, 0, 0, false, none, .unset⟩
      ∃ t, exec (.alertStart ref b) s = .next t ∧
        (((((started.onAlert fun u => { u with overlays := u.overlays.set v (.airing i e.generation) }).onFields v fun f =>
          { f with
            alertHold := true, run := some run, state := if f.test.isSome then .armed else .idle
            runQueue := headerEntries s.splice.nextHeader n }).onSplice fun u =>
          { u with nextHeader := u.nextHeader + n }).onPath fun p =>
            { p with fetchQueue := p.fetchQueue ++ headerReads v s.splice.nextHeader d n }).told
          [.alertStarted ⟨i, e, set⟩]).EndsAs t)

/-- CONTENT_DEFINE of good form is refused IN_USE while held, CONFLICT where its region meets a window or two components share a
PID, QUEUE_FULL where the scan queue holds 8 others; accepted behind a scan in progress it joins the scan queue, or keeps its
place there, with no scan result; an idle scanner with nothing queued starts it at once, with the scanner's hold (R75, R77). -/
def Obligations.ContentDefined : Prop :=
  ∀ (s : State) (ref : CueRef) (b : DefineBody) (c : Fin 128) (d : ContentDef), s.resetHeld = false →
    s.fault.part = .operating → checkDefine b = some (c, d) →
    let told := fun (x : State) (o : CueOutcome) =>
      ∃ t, exec (.contentDefine ref b) s = .next t ∧ (x.told [cueAnswer ref 8 none none o none]).EndsAs t
    let meets := ∃ w : Fin 16, ∃ a, s.path.windows[w].base ≤ a ∧
      a < s.path.windows[w].base + windowSize s.path.windows s.path.windows[w] ∧ d.base ≤ a ∧ a < d.base + d.packets * d.stride
    let queued := s.content.entries[c].state = .queued
    let fresh : ContentEntry := { state := .queued, definition := some d }
    (0 < s.content.entries[c].useCount → told s .inUse) ∧
    (s.content.entries[c].useCount = 0 → meets ∨ ¬ (d.comps.map ContentComponent.pid).Nodup → told s .conflict) ∧
    (s.content.entries[c].useCount = 0 → ¬ meets → (d.comps.map ContentComponent.pid).Nodup →
      (¬ queued → 8 ≤ s.content.scanQueue.length → told s .queueFull) ∧
      (s.content.scan ≠ none → queued →
        told (s.onContent fun u => { u with entries := u.entries.set c fresh }) .done) ∧
      (s.content.scan ≠ none → ¬ queued → s.content.scanQueue.length < 8 →
        told (s.onContent fun u => { u with scanQueue := u.scanQueue ++ [c], entries := u.entries.set c fresh }) .done) ∧
      (s.content.scan = none → s.content.scanQueue = [] → ¬ queued →
        told (s.onContent fun u =>
          { u with
            entries := u.entries.set c { fresh with state := .scanning, useCount := 1 }
            scan := some ⟨c, u.nextScan, 0, 0, [], List.replicate d.comps.length none, none, none⟩
            nextScan := u.nextScan + 1 }) .done))

/-- CONTENT_RELEASE of a content that is not FREE: IN_USE while held; otherwise the entry is FREE, with no definition and no
result, and off the scan queue, and a head that waited on it, alone in its queue, misses with MISSED_CONTENT (R60, R76). -/
def Obligations.ContentReleased : Prop :=
  ∀ (s : State) (ref : CueRef) (content : Byte) (c : Fin 128), s.resetHeld = false → s.fault.part = .operating →
    content.toNat = c.val → s.content.entries[c].state ≠ .free →
    let done := fun o : CueOutcome => cueAnswer ref 9 none none o none
    let freed := s.onContent fun u => { u with scanQueue := u.scanQueue.filter (· != c), entries := u.entries.set c {} }
    let waits := fun (i : Fin 64) (e : QueueEntry) => s.cue.queues[i].head? = some e ∧ e.state = .waiting ∧ e.cue.content = c
    (0 < s.content.entries[c].useCount →
      ∃ t, exec (.contentRelease ref content) s = .next t ∧ (s.told [done .inUse]).EndsAs t) ∧
    (s.content.entries[c].useCount = 0 → (∀ i e, ¬ waits i e) →
      ∃ t, exec (.contentRelease ref content) s = .next t ∧ (freed.told [done .done]).EndsAs t) ∧
    (∀ (i : Fin 64) (e : QueueEntry), s.content.entries[c].useCount = 0 → s.cue.queues[i] = [e] → waits i e →
      (∀ j e', waits j e' → j = i) →
      ∃ t, exec (.contentRelease ref content) s = .next t ∧
        ((freed.onQueue i fun _ => []).told [spliceAnswer i e.cue .missedContent none, done .done]).EndsAs t)

/-- APPLY_STAGED: neither flag is REFUSED_MALFORMED; the groups flag copies every staged map to its active map; the arbiter flag
makes the cue the pending apply, an earlier one being answered REPLACED; the groups flag alone is answered DONE (R55, R68, R118). That
the REPLACED answer has its pending-wrap flag clear is the model's reading (DEDUCED, log 28). -/
def Obligations.ApplyStaged : Prop :=
  ∀ (s : State) (ref : CueRef), s.resetHeld = false → s.fault.part = .operating →
    let copied := s.onAlert fun u => { u with activeMaps := u.stagedMaps }
    let pending := fun x : State =>
      (match s.cue.pendingApply with
        | some old => x.told [cueAnswer old 11 none none .replaced none]
        | none => x).onCue fun u => { u with pendingApply := some ref }
    (∃ t, exec (.applyStaged ref false false) s = .next t ∧
      (s.told [cueAnswer ref 11 none none .refusedMalformed none]).EndsAs t) ∧
    (∃ t, exec (.applyStaged ref true false) s = .next t ∧
      (copied.told [cueAnswer ref 11 none none .done none]).EndsAs t) ∧
    (∃ t, exec (.applyStaged ref false true) s = .next t ∧ (pending s).EndsAs t) ∧
    (∃ t, exec (.applyStaged ref true true) s = .next t ∧ (pending copied).EndsAs t)

/-- ACK_ERROR, in either part state, releases the first-error capture and is answered DONE, or NOT_FOUND where none is held; it
does not change the part state, and ATTN follows its remaining causes (R69, R174). -/
def Obligations.AckErrorReleasesTheCapture : Prop :=
  ∀ (s : State) (ref : CueRef), s.resetHeld = false → s.fault.part ≠ .starting →
    (s.fault.capture ≠ none → ∃ t, exec (.ackError ref) s = .next t ∧
      ((s.onFault fun u => { u with capture := none }).told [cueAnswer ref 12 none none .done none]).EndsAs t) ∧
    (s.fault.capture = none → ∃ t, exec (.ackError ref) s = .next t ∧
      (s.told [cueAnswer ref 12 none none .notFound none]).EndsAs t)

/-- RESUME resumes a HALTED report path and clears an ERROR, CUE or CONFIG latch, each on its own; the part returns to OPERATING
where the pin hold is clear. The answer is DONE, PIN_HELD while the pin holds the part in BYPASS, or NOT_FOUND in OPERATING
with the path RUNNING (R71, R183, R186). -/
def Obligations.Resume : Prop :=
  ∀ (s : State) (ref : CueRef), s.resetHeld = false →
    let answer := fun o : CueOutcome => cueAnswer ref 14 none none o none
    let running := s.onReport fun u => { u with halted := false }
    (s.fault.part = .operating → s.fault.latch = none →
      ∃ t, exec (.resume ref) s = .next t ∧
        (running.told [answer (if s.report.halted then .done else .notFound)]).EndsAs t) ∧
    (∀ cause, s.fault.part = .bypass → s.fault.pinHold = false → s.fault.latch = some cause → cause ≠ .transparent →
      ∃ t, exec (.resume ref) s = .next t ∧
        ((running.onFault fun u => { u with latch := none, part := .operating }).told [answer .done]).EndsAs t) ∧
    (s.fault.part = .bypass → s.fault.pinHold = true → s.fault.latch ≠ some .transparent →
      ∃ t, exec (.resume ref) s = .next t ∧
        ((running.onFault fun u => { u with latch := none }).told [answer .pinHeld]).EndsAs t)

/-! ## Configuration records (01, 08, 11) -/

/-- A WINDOW record from any source: REFUSED_MALFORMED for an index over 15, an unknown kind, a base that is no multiple of 64,
a count or a stride out of range, a window past the last address, a VIEW of itself; UNDEFINED for a VIEW of an entry that is not
INGEST; IN_USE where a service is defined on the old INGEST entry, or on the source window of the old or the new VIEW; CONFLICT,
of any kind, where the new table breaks R156 or the window meets the boot block being snooped. Otherwise the entry is replaced,
whatever the old one was, and each owner drops the state of the old kind and sets up that of the new, as `windowReplaced` spells
out: INGEST with EMPTY slot records and a fresh assembly state, CUE with an empty shadow and counts of 0, REPORT with the ring's
start values, a CUE replaced by another begins anew, with nothing left to take; an INGEST entry removed or changed in kind takes
its VIEW with it (R5, R27, R50, R53, R156, R157, R158, R169). The base of a removal is not looked at, and a source over 15 is
UNDEFINED (DEDUCED, log 20). What an asked entry does is stated where the Window Table is as R156 keeps it, for an INGEST entry
with nothing unplayed and for windows without staging buffers. -/
def Obligations.WindowRecordHandled : Prop :=
  ∀ (s : State) (origin : Origin) (r : WindowRec), s.resetHeld = false → s.PortQuiet → s.accepts origin = true →
    let told := fun (x : State) (o : CueOutcome) => ∃ t, exec (.window origin r) s = .next t ∧ (x.answered origin 1 o).EndsAs t
    (16 ≤ r.index.toNat ∨ 5 ≤ r.kind.toNat → told s .refusedMalformed) ∧
    ∀ i : Fin 16, r.index.toNat = i.val →
      let base := r.base.toNat
      let count := r.count.toNat
      let stride := r.stride.toNat
      let old := s.path.windows[i]
      let ingestAt := fun w : Fin 16 => ∃ b n d x, s.path.windows[w] = .ingest b n d x ∧ base + n * d ≤ 2 ^ 40
      let asks := fun e : WindowEntry =>
        (r.kind = 0 ∧ e = .empty) ∨
        (r.kind = 1 ∧ base % 64 = 0 ∧ 64 ≤ count ∧ count ≤ 4096 ∧ (stride = 188 ∨ stride = 192 ∨ stride = 256) ∧
          base + count * stride ≤ 2 ^ 40 ∧ e = .ingest base count stride (max 620000 (min 150000000 r.rate.toNat))) ∨
        (∃ w : Fin 16, r.kind = 2 ∧ base % 64 = 0 ∧ r.source.toNat = w.val ∧ w ≠ i ∧ ingestAt w ∧ e = .view base w) ∨
        (r.kind = 3 ∧ base % 64 = 0 ∧ 16 ≤ count ∧ count ≤ 256 ∧ base + count * 64 ≤ 2 ^ 40 ∧ e = .cue base count) ∨
        (r.kind = 4 ∧ base % 64 = 0 ∧ 64 ≤ count ∧ count ≤ 65536 ∧ base + 64 + count * 128 ≤ 2 ^ 40 ∧ e = .report base count)
      let served := fun w : Fin 16 => ∃ (v : Fin 64) (d : Service), s.ingest.services[v] = some d ∧ d.window = w
      let isIngest := ∃ b n d x, old = .ingest b n d x
      (1 ≤ r.kind.toNat → r.kind.toNat ≤ 4 → base % 64 ≠ 0 → told s .refusedMalformed) ∧
      (r.kind = 1 → count < 64 ∨ 4096 < count ∨ (stride ≠ 188 ∧ stride ≠ 192 ∧ stride ≠ 256) ∨ 2 ^ 40 < base + count * stride →
        told s .refusedMalformed) ∧
      (r.kind = 3 → count < 16 ∨ 256 < count ∨ 2 ^ 40 < base + count * 64 → told s .refusedMalformed) ∧
      (r.kind = 4 → count < 64 ∨ 65536 < count ∨ 2 ^ 40 < base + 64 + count * 128 → told s .refusedMalformed) ∧
      (r.kind = 2 → r.source = r.index → told s .refusedMalformed) ∧
      (∀ (w : Fin 16) (b n d x : Nat), r.kind = 2 → r.source.toNat = w.val → s.path.windows[w] = .ingest b n d x →
        2 ^ 40 < base + n * d → told s .refusedMalformed) ∧
      (r.kind = 2 → base % 64 = 0 → r.source ≠ r.index →
        16 ≤ r.source.toNat ∨ (∃ w : Fin 16, r.source.toNat = w.val ∧ ∀ b n d x, s.path.windows[w] ≠ .ingest b n d x) →
        told s .undefined) ∧
      s.TableHolds → ∀ e : WindowEntry, asks e →
        let busy := (isIngest ∧ served i) ∨ (∃ b w, old = .view b w ∧ served w) ∨ (∃ b w, e = .view b w ∧ served w)
        let fits := tableValid (s.path.windows.set i e) s.definedContents = true
        let onBoot := s.loader.boot ≠ none ∧ e ≠ .empty ∧ base < 0x4000
        (busy → told s .inUse) ∧ (¬ busy → ¬ fits ∨ onBoot → told s .conflict) ∧
        (¬ busy → fits → ¬ onBoot →
          (isIngest → (∀ q : Fin 8, ∀ u, s.path.staging[q] = some u → u.window ≠ i) ∧ ∀ slot, (s.slotRecord i slot).unplayed = none) →
          (∀ b w, old = .view b w → ∀ q : Fin 8, ∀ u, s.path.staging[q] = some u → u.window ≠ w) →
          told (s.windowReplaced i e) .done)

/-- A SERVICE record from any source: REFUSED_MALFORMED for an index over 63, a count over 8, an unknown role, a clock component
outside the count; UNDEFINED where the window is no INGEST window (an index over 15: DEDUCED, log 22); IN_USE where the service is defined and not at rest; CONFLICT
where a PID rule breaks. Otherwise it defines the service: its components, an input continuity state of no last counter, the clock
fields at their start values with P from the window's rate, the splice fields at theirs, the last output CC of an output PID
of the old definition kept. With no components it undefines the service (R20, R21, R22, R30, R91). -/
def Obligations.ServiceRecordHandled : Prop :=
  ∀ (s : State) (origin : Origin) (r : ServiceRec), s.resetHeld = false → s.accepts origin = true →
    let told := fun (x : State) (o : CueOutcome) => ∃ t, exec (.service origin r) s = .next t ∧ (x.answered origin 2 o).EndsAs t
    let count := r.count.toNat
    (64 ≤ r.index.toNat ∨ 8 < count ∨ (1 ≤ count ∧ count ≤ r.clock.toNat) ∨
      (∃ c ∈ r.comps, c.role ≠ 1 ∧ c.role ≠ 2 ∧ c.role ≠ 3) → told s .refusedMalformed) ∧
    ∀ i : Fin 64, r.index.toNat = i.val →
      let busy := s.ingest.services[i] ≠ none ∧
        (s.splice.services[i].state ≠ .idle ∨ s.alert.overlays[i] ≠ .none ∨ s.cue.queues[i] ≠ [])
      (count = 0 → r.comps = [] →
        (busy → told s .inUse) ∧
        (¬ busy → told (((s.onIngest fun u =>
          { u with services := u.services.set i none, inputCC := u.inputCC.set i [] }).onTimebase fun u =>
            { u with clocks := u.clocks.set i none }).onSplice fun u => { u with services := u.services.set i {} }) .done)) ∧
      ∀ comps : List Component,
        r.comps = comps.map (fun c => ⟨c.source, c.output, match c.role with | .video => 1 | .audio => 2 | .data => 3⟩) →
        1 ≤ count → count ≤ 8 → r.clock.toNat < count →
        (16 ≤ r.window.toNat ∨
          (∃ w : Fin 16, r.window.toNat = w.val ∧ ∀ b n d x, s.path.windows[w] ≠ .ingest b n d x) → told s .undefined) ∧
        ∀ (w : Fin 16) (base slots stride rate : Nat), r.window.toNat = w.val →
          s.path.windows[w] = .ingest base slots stride rate →
          let all := comps ++ s.otherComponents w i
          let broken := ¬ (all.map Component.source).Nodup ∨ ¬ (all.map Component.output).Nodup ∨
            (∃ (j k : Fin all.length), j ≠ k ∧ all[j].output = all[k].source) ∨
            ∃ c ∈ all, c.source = 8191 ∨ c.output = 8191
          let kept := fun c : Component =>
            match s.ingest.services[i] with
            | some d =>
              match d.comps.findIdx? (·.output == c.output) with
              | some k => (s.splice.services[i].outputCC.getD k {}).last
              | none => none
            | none => none
          let clock : Clock := ⟨.none, none, 40608000000 * 65536 / rate, 0, 0, none, 0, none⟩
          (busy → told s .inUse) ∧ (¬ busy → broken → told s .conflict) ∧
          (¬ busy → ¬ broken → told (((s.onIngest fun u =>
            { u with
              services := u.services.set i (some ⟨w, r.clock.toNat, comps⟩)
              inputCC := u.inputCC.set i (List.replicate comps.length ⟨none, false⟩) }).onTimebase fun u =>
                { u with clocks := u.clocks.set i (some clock) }).onSplice fun u =>
                  { u with services := u.services.set i { outputCC := comps.map fun c => ⟨kept c, 0, none⟩ } }) .done)

/-- The records of the four small kinds from any source. GROUP writes the staged map of its group, ARBITER the staged phase table,
at start-up the active ones too; a group over 7 is malformed. LIMITS sets the fields whose flags are set, each clamped to its
range; a changed silence timeout re-arms the one armed silence expiry at its last sample plus the new timeout, and where that has
passed the expiry occurs at once. POLICY is malformed for a count of 0 or over 13, an unknown kind or severity, and otherwise
sets each kind it names, the later of two entries standing (R40, R117, R161, R179, R194). That a LIMITS record which leaves the silence
timeout at its value re-arms nothing is the model's reading (DEDUCED, log 38). -/
def Obligations.SmallRecordsApplied : Prop :=
  ∀ (s : State) (origin : Origin), s.resetHeld = false → s.accepts origin = true →
    let told := fun (c : Instr) (code : Byte) (x : State) (o : CueOutcome) =>
      ∃ t, exec c s = .next t ∧ (x.answered origin code o).EndsAs t
    (∀ r : GroupRec, 8 ≤ r.index.toNat → told (.group origin r) 3 s .refusedMalformed) ∧
    (∀ (r : GroupRec) (g : Fin 8), r.index.toNat = g.val →
      told (.group origin r) 3 (s.onAlert fun u =>
        { u with
          stagedMaps := u.stagedMaps.set g r.set
          activeMaps := if loadedAtStart origin then u.activeMaps.set g r.set else u.activeMaps }) .done) ∧
    (∀ r : ArbiterRec,
      let table : Vector Byte 16 := Vector.ofFn fun i => r.codes.extractLsb' (8 * i.val) 8
      told (.arbiter origin r) 4 (s.onPath fun p =>
        { p with stagedTable := table, activeTable := if loadedAtStart origin then table else p.activeTable }) .done) ∧
    (∀ r : LimitsRec,
      let held := fun (k low high : Nat) (v : BitVec 32) (old : Nat) =>
        if r.flags.getLsbD k then max low (min high v.toNat) else old
      let silence := held 0 50 5000 r.silence s.limits.silence
      let set := s.onLimits fun l =>
        ⟨silence, held 1 9000 900000 r.tolerance l.tolerance, held 2 100 60000 r.close l.close,
          held 3 1 1000 r.fetch l.fetch, held 4 0 10000 r.holdoff l.holdoff, held 5 1 65536 r.threshold l.threshold⟩
      (silence = s.limits.silence ∨ (∀ (i : Fin 64) c, s.timebase.clocks[i] = some c → c.silence = none) →
        told (.limits origin r) 5 set .done) ∧
      ∀ (i : Fin 64) (c : Clock) (x last : StationTime), silence ≠ s.limits.silence →
        s.timebase.clocks[i] = some c → c.silence = some x → c.lastSample = some last →
        (∀ j : Fin 64, j ≠ i → ∀ c', s.timebase.clocks[j] = some c' → c'.silence = none) →
        let expiry := last + BitVec.ofNat 48 (silence * 27000)
        let silenced : Clock := { c with state := .none, good := 0, bad := 0, silence := none }
        (2 ^ 47 ≤ (s.clock - expiry).toNat →
          told (.limits origin r) 5 (set.setClock i (some { c with silence := some expiry })) .done) ∧
        ((s.clock - expiry).toNat < 2 ^ 47 →
          told (.limits origin r) 5 ((set.setClock i (some silenced)).told
            [.clockEvent ⟨i, .silent, none, c.state, none, none, silenced⟩]) .done)) ∧
    (∀ r : PolicyRec,
      r.count.toNat = 0 ∨ 13 < r.count.toNat ∨ (∃ x ∈ r.items, x.kind = 0 ∨ 13 < x.kind.toNat ∨ 1 < x.severity.toNat) →
      told (.policy origin r) 6 s .refusedMalformed) ∧
    ∀ r : PolicyRec, 1 ≤ r.count.toNat → r.count.toNat ≤ 13 →
      (∀ x ∈ r.items, 1 ≤ x.kind.toNat ∧ x.kind.toNat ≤ 13 ∧ x.severity.toNat ≤ 1) →
      told (.policy origin r) 6 (s.onFault fun u =>
        { u with policy := Vector.ofFn fun k : Fin 13 =>
          match r.items.reverse.find? fun x => x.kind.toNat == k.val + 1 with
          | some x => ⟨x.masked, if x.severity = 0 then .contain else .bypass⟩
          | none => u.policy[k] }) .done

/-! ## What every step keeps -/

/-- At most 24 general records wait, and the reservation count is the places in use, never above 72: the insertion records and
alert entries that are not FREE and the as-run records that wait (R91, R110, R115, R166, R167). -/
def Obligations.ReportRoomIsKept : Prop :=
  ∀ s t : State, s.QueueBounded → s.RoomKept → step s = .next t → t.QueueBounded ∧ t.RoomKept

/-- Every as-run account balances: aired + lost + outstanding is inserted (R111, R116). -/
def Obligations.AccountsBalanceIsKept : Prop :=
  ∀ s t : State, s.AccountsBalance → step s = .next t → t.AccountsBalance

/-- The part state follows the pin hold and the latch, and ATTN its causes (R174, R183, R189). -/
def Obligations.PartAndAttnAreKept : Prop :=
  ∀ s t : State, s.PartFollowsHolds → s.AttnRight → step s = .next t → t.PartFollowsHolds ∧ t.AttnRight

/-- The Window Table meets R156 against the contents as they stand: ranges, no shared bytes, one CUE, one REPORT, one VIEW to a
source, 16384 slots in all. -/
def Obligations.WindowTableIsKept : Prop :=
  ∀ s t : State, s.TableHolds → step s = .next t → t.TableHolds

/-- Clocks and limits stay in their ranges, and the shadows in their canonical form (R29, R30, R36, R50, R191, R194, DESIGN CHOICE, log 36). -/
def Obligations.RangesAreKept : Prop :=
  ∀ s t : State, s.ClocksInRange → s.LimitsInRange → s.ShadowsCanonical → step s = .next t →
    t.ClocksInRange ∧ t.LimitsInRange ∧ t.ShadowsCanonical

/-- All of it holds at reset. -/
def Obligations.InvariantsHoldAtReset : Prop :=
  State.reset.QueueBounded ∧ State.reset.RoomKept ∧ State.reset.AccountsBalance ∧ State.reset.PartFollowsHolds ∧
    State.reset.AttnRight ∧ State.reset.TableHolds ∧ State.reset.ClocksInRange ∧ State.reset.LimitsInRange ∧
    State.reset.ShadowsCanonical
end

