-- ==== Sys2Proof/Laws/State.lean ====
section
/-! SUPPORT. What each update of a block reads as: one lemma for each field of the state, each update, all true by rfl. -/

namespace Sys2Proof.Machine

variable (s : State)

/-! ## onPath -/

@[simp] theorem State.onPath_pending (f : PathUnit → PathUnit) : (s.onPath f).pending = s.pending := rfl
@[simp] theorem State.onPath_resetHeld (f : PathUnit → PathUnit) : (s.onPath f).resetHeld = s.resetHeld := rfl
@[simp] theorem State.onPath_clock (f : PathUnit → PathUnit) : (s.onPath f).clock = s.clock := rfl
@[simp] theorem State.onPath_limits (f : PathUnit → PathUnit) : (s.onPath f).limits = s.limits := rfl
@[simp] theorem State.onPath_path (f : PathUnit → PathUnit) : (s.onPath f).path = f s.path := rfl
@[simp] theorem State.onPath_ingest (f : PathUnit → PathUnit) : (s.onPath f).ingest = s.ingest := rfl
@[simp] theorem State.onPath_slots (f : PathUnit → PathUnit) : (s.onPath f).slots = s.slots := rfl
@[simp] theorem State.onPath_timebase (f : PathUnit → PathUnit) : (s.onPath f).timebase = s.timebase := rfl
@[simp] theorem State.onPath_cue (f : PathUnit → PathUnit) : (s.onPath f).cue = s.cue := rfl
@[simp] theorem State.onPath_splice (f : PathUnit → PathUnit) : (s.onPath f).splice = s.splice := rfl
@[simp] theorem State.onPath_content (f : PathUnit → PathUnit) : (s.onPath f).content = s.content := rfl
@[simp] theorem State.onPath_alert (f : PathUnit → PathUnit) : (s.onPath f).alert = s.alert := rfl
@[simp] theorem State.onPath_report (f : PathUnit → PathUnit) : (s.onPath f).report = s.report := rfl
@[simp] theorem State.onPath_fault (f : PathUnit → PathUnit) : (s.onPath f).fault = s.fault := rfl
@[simp] theorem State.onPath_loader (f : PathUnit → PathUnit) : (s.onPath f).loader = s.loader := rfl
@[simp] theorem State.onPath_ports (f : PathUnit → PathUnit) : (s.onPath f).ports = s.ports := rfl
@[simp] theorem State.onPath_free (f : PathUnit → PathUnit) : (s.onPath f).free = s.free := rfl

/-! ## onIngest -/

@[simp] theorem State.onIngest_pending (f : IngestParser → IngestParser) : (s.onIngest f).pending = s.pending := rfl
@[simp] theorem State.onIngest_resetHeld (f : IngestParser → IngestParser) : (s.onIngest f).resetHeld = s.resetHeld := rfl
@[simp] theorem State.onIngest_clock (f : IngestParser → IngestParser) : (s.onIngest f).clock = s.clock := rfl
@[simp] theorem State.onIngest_limits (f : IngestParser → IngestParser) : (s.onIngest f).limits = s.limits := rfl
@[simp] theorem State.onIngest_path (f : IngestParser → IngestParser) : (s.onIngest f).path = s.path := rfl
@[simp] theorem State.onIngest_ingest (f : IngestParser → IngestParser) : (s.onIngest f).ingest = f s.ingest := rfl
@[simp] theorem State.onIngest_slots (f : IngestParser → IngestParser) : (s.onIngest f).slots = s.slots := rfl
@[simp] theorem State.onIngest_timebase (f : IngestParser → IngestParser) : (s.onIngest f).timebase = s.timebase := rfl
@[simp] theorem State.onIngest_cue (f : IngestParser → IngestParser) : (s.onIngest f).cue = s.cue := rfl
@[simp] theorem State.onIngest_splice (f : IngestParser → IngestParser) : (s.onIngest f).splice = s.splice := rfl
@[simp] theorem State.onIngest_content (f : IngestParser → IngestParser) : (s.onIngest f).content = s.content := rfl
@[simp] theorem State.onIngest_alert (f : IngestParser → IngestParser) : (s.onIngest f).alert = s.alert := rfl
@[simp] theorem State.onIngest_report (f : IngestParser → IngestParser) : (s.onIngest f).report = s.report := rfl
@[simp] theorem State.onIngest_fault (f : IngestParser → IngestParser) : (s.onIngest f).fault = s.fault := rfl
@[simp] theorem State.onIngest_loader (f : IngestParser → IngestParser) : (s.onIngest f).loader = s.loader := rfl
@[simp] theorem State.onIngest_ports (f : IngestParser → IngestParser) : (s.onIngest f).ports = s.ports := rfl
@[simp] theorem State.onIngest_free (f : IngestParser → IngestParser) : (s.onIngest f).free = s.free := rfl

/-! ## onSlots -/

@[simp] theorem State.onSlots_pending (f : SlotTable → SlotTable) : (s.onSlots f).pending = s.pending := rfl
@[simp] theorem State.onSlots_resetHeld (f : SlotTable → SlotTable) : (s.onSlots f).resetHeld = s.resetHeld := rfl
@[simp] theorem State.onSlots_clock (f : SlotTable → SlotTable) : (s.onSlots f).clock = s.clock := rfl
@[simp] theorem State.onSlots_limits (f : SlotTable → SlotTable) : (s.onSlots f).limits = s.limits := rfl
@[simp] theorem State.onSlots_path (f : SlotTable → SlotTable) : (s.onSlots f).path = s.path := rfl
@[simp] theorem State.onSlots_ingest (f : SlotTable → SlotTable) : (s.onSlots f).ingest = s.ingest := rfl
@[simp] theorem State.onSlots_slots (f : SlotTable → SlotTable) : (s.onSlots f).slots = f s.slots := rfl
@[simp] theorem State.onSlots_timebase (f : SlotTable → SlotTable) : (s.onSlots f).timebase = s.timebase := rfl
@[simp] theorem State.onSlots_cue (f : SlotTable → SlotTable) : (s.onSlots f).cue = s.cue := rfl
@[simp] theorem State.onSlots_splice (f : SlotTable → SlotTable) : (s.onSlots f).splice = s.splice := rfl
@[simp] theorem State.onSlots_content (f : SlotTable → SlotTable) : (s.onSlots f).content = s.content := rfl
@[simp] theorem State.onSlots_alert (f : SlotTable → SlotTable) : (s.onSlots f).alert = s.alert := rfl
@[simp] theorem State.onSlots_report (f : SlotTable → SlotTable) : (s.onSlots f).report = s.report := rfl
@[simp] theorem State.onSlots_fault (f : SlotTable → SlotTable) : (s.onSlots f).fault = s.fault := rfl
@[simp] theorem State.onSlots_loader (f : SlotTable → SlotTable) : (s.onSlots f).loader = s.loader := rfl
@[simp] theorem State.onSlots_ports (f : SlotTable → SlotTable) : (s.onSlots f).ports = s.ports := rfl
@[simp] theorem State.onSlots_free (f : SlotTable → SlotTable) : (s.onSlots f).free = s.free := rfl

/-! ## onTimebase -/

@[simp] theorem State.onTimebase_pending (f : TimebaseUnit → TimebaseUnit) : (s.onTimebase f).pending = s.pending := rfl
@[simp] theorem State.onTimebase_resetHeld (f : TimebaseUnit → TimebaseUnit) : (s.onTimebase f).resetHeld = s.resetHeld := rfl
@[simp] theorem State.onTimebase_clock (f : TimebaseUnit → TimebaseUnit) : (s.onTimebase f).clock = s.clock := rfl
@[simp] theorem State.onTimebase_limits (f : TimebaseUnit → TimebaseUnit) : (s.onTimebase f).limits = s.limits := rfl
@[simp] theorem State.onTimebase_path (f : TimebaseUnit → TimebaseUnit) : (s.onTimebase f).path = s.path := rfl
@[simp] theorem State.onTimebase_ingest (f : TimebaseUnit → TimebaseUnit) : (s.onTimebase f).ingest = s.ingest := rfl
@[simp] theorem State.onTimebase_slots (f : TimebaseUnit → TimebaseUnit) : (s.onTimebase f).slots = s.slots := rfl
@[simp] theorem State.onTimebase_timebase (f : TimebaseUnit → TimebaseUnit) : (s.onTimebase f).timebase = f s.timebase := rfl
@[simp] theorem State.onTimebase_cue (f : TimebaseUnit → TimebaseUnit) : (s.onTimebase f).cue = s.cue := rfl
@[simp] theorem State.onTimebase_splice (f : TimebaseUnit → TimebaseUnit) : (s.onTimebase f).splice = s.splice := rfl
@[simp] theorem State.onTimebase_content (f : TimebaseUnit → TimebaseUnit) : (s.onTimebase f).content = s.content := rfl
@[simp] theorem State.onTimebase_alert (f : TimebaseUnit → TimebaseUnit) : (s.onTimebase f).alert = s.alert := rfl
@[simp] theorem State.onTimebase_report (f : TimebaseUnit → TimebaseUnit) : (s.onTimebase f).report = s.report := rfl
@[simp] theorem State.onTimebase_fault (f : TimebaseUnit → TimebaseUnit) : (s.onTimebase f).fault = s.fault := rfl
@[simp] theorem State.onTimebase_loader (f : TimebaseUnit → TimebaseUnit) : (s.onTimebase f).loader = s.loader := rfl
@[simp] theorem State.onTimebase_ports (f : TimebaseUnit → TimebaseUnit) : (s.onTimebase f).ports = s.ports := rfl
@[simp] theorem State.onTimebase_free (f : TimebaseUnit → TimebaseUnit) : (s.onTimebase f).free = s.free := rfl

/-! ## onCue -/

@[simp] theorem State.onCue_pending (f : CueUnit → CueUnit) : (s.onCue f).pending = s.pending := rfl
@[simp] theorem State.onCue_resetHeld (f : CueUnit → CueUnit) : (s.onCue f).resetHeld = s.resetHeld := rfl
@[simp] theorem State.onCue_clock (f : CueUnit → CueUnit) : (s.onCue f).clock = s.clock := rfl
@[simp] theorem State.onCue_limits (f : CueUnit → CueUnit) : (s.onCue f).limits = s.limits := rfl
@[simp] theorem State.onCue_path (f : CueUnit → CueUnit) : (s.onCue f).path = s.path := rfl
@[simp] theorem State.onCue_ingest (f : CueUnit → CueUnit) : (s.onCue f).ingest = s.ingest := rfl
@[simp] theorem State.onCue_slots (f : CueUnit → CueUnit) : (s.onCue f).slots = s.slots := rfl
@[simp] theorem State.onCue_timebase (f : CueUnit → CueUnit) : (s.onCue f).timebase = s.timebase := rfl
@[simp] theorem State.onCue_cue (f : CueUnit → CueUnit) : (s.onCue f).cue = f s.cue := rfl
@[simp] theorem State.onCue_splice (f : CueUnit → CueUnit) : (s.onCue f).splice = s.splice := rfl
@[simp] theorem State.onCue_content (f : CueUnit → CueUnit) : (s.onCue f).content = s.content := rfl
@[simp] theorem State.onCue_alert (f : CueUnit → CueUnit) : (s.onCue f).alert = s.alert := rfl
@[simp] theorem State.onCue_report (f : CueUnit → CueUnit) : (s.onCue f).report = s.report := rfl
@[simp] theorem State.onCue_fault (f : CueUnit → CueUnit) : (s.onCue f).fault = s.fault := rfl
@[simp] theorem State.onCue_loader (f : CueUnit → CueUnit) : (s.onCue f).loader = s.loader := rfl
@[simp] theorem State.onCue_ports (f : CueUnit → CueUnit) : (s.onCue f).ports = s.ports := rfl
@[simp] theorem State.onCue_free (f : CueUnit → CueUnit) : (s.onCue f).free = s.free := rfl

/-! ## onSplice -/

@[simp] theorem State.onSplice_pending (f : SpliceEngine → SpliceEngine) : (s.onSplice f).pending = s.pending := rfl
@[simp] theorem State.onSplice_resetHeld (f : SpliceEngine → SpliceEngine) : (s.onSplice f).resetHeld = s.resetHeld := rfl
@[simp] theorem State.onSplice_clock (f : SpliceEngine → SpliceEngine) : (s.onSplice f).clock = s.clock := rfl
@[simp] theorem State.onSplice_limits (f : SpliceEngine → SpliceEngine) : (s.onSplice f).limits = s.limits := rfl
@[simp] theorem State.onSplice_path (f : SpliceEngine → SpliceEngine) : (s.onSplice f).path = s.path := rfl
@[simp] theorem State.onSplice_ingest (f : SpliceEngine → SpliceEngine) : (s.onSplice f).ingest = s.ingest := rfl
@[simp] theorem State.onSplice_slots (f : SpliceEngine → SpliceEngine) : (s.onSplice f).slots = s.slots := rfl
@[simp] theorem State.onSplice_timebase (f : SpliceEngine → SpliceEngine) : (s.onSplice f).timebase = s.timebase := rfl
@[simp] theorem State.onSplice_cue (f : SpliceEngine → SpliceEngine) : (s.onSplice f).cue = s.cue := rfl
@[simp] theorem State.onSplice_splice (f : SpliceEngine → SpliceEngine) : (s.onSplice f).splice = f s.splice := rfl
@[simp] theorem State.onSplice_content (f : SpliceEngine → SpliceEngine) : (s.onSplice f).content = s.content := rfl
@[simp] theorem State.onSplice_alert (f : SpliceEngine → SpliceEngine) : (s.onSplice f).alert = s.alert := rfl
@[simp] theorem State.onSplice_report (f : SpliceEngine → SpliceEngine) : (s.onSplice f).report = s.report := rfl
@[simp] theorem State.onSplice_fault (f : SpliceEngine → SpliceEngine) : (s.onSplice f).fault = s.fault := rfl
@[simp] theorem State.onSplice_loader (f : SpliceEngine → SpliceEngine) : (s.onSplice f).loader = s.loader := rfl
@[simp] theorem State.onSplice_ports (f : SpliceEngine → SpliceEngine) : (s.onSplice f).ports = s.ports := rfl
@[simp] theorem State.onSplice_free (f : SpliceEngine → SpliceEngine) : (s.onSplice f).free = s.free := rfl

/-! ## onContent -/

@[simp] theorem State.onContent_pending (f : ContentUnit → ContentUnit) : (s.onContent f).pending = s.pending := rfl
@[simp] theorem State.onContent_resetHeld (f : ContentUnit → ContentUnit) : (s.onContent f).resetHeld = s.resetHeld := rfl
@[simp] theorem State.onContent_clock (f : ContentUnit → ContentUnit) : (s.onContent f).clock = s.clock := rfl
@[simp] theorem State.onContent_limits (f : ContentUnit → ContentUnit) : (s.onContent f).limits = s.limits := rfl
@[simp] theorem State.onContent_path (f : ContentUnit → ContentUnit) : (s.onContent f).path = s.path := rfl
@[simp] theorem State.onContent_ingest (f : ContentUnit → ContentUnit) : (s.onContent f).ingest = s.ingest := rfl
@[simp] theorem State.onContent_slots (f : ContentUnit → ContentUnit) : (s.onContent f).slots = s.slots := rfl
@[simp] theorem State.onContent_timebase (f : ContentUnit → ContentUnit) : (s.onContent f).timebase = s.timebase := rfl
@[simp] theorem State.onContent_cue (f : ContentUnit → ContentUnit) : (s.onContent f).cue = s.cue := rfl
@[simp] theorem State.onContent_splice (f : ContentUnit → ContentUnit) : (s.onContent f).splice = s.splice := rfl
@[simp] theorem State.onContent_content (f : ContentUnit → ContentUnit) : (s.onContent f).content = f s.content := rfl
@[simp] theorem State.onContent_alert (f : ContentUnit → ContentUnit) : (s.onContent f).alert = s.alert := rfl
@[simp] theorem State.onContent_report (f : ContentUnit → ContentUnit) : (s.onContent f).report = s.report := rfl
@[simp] theorem State.onContent_fault (f : ContentUnit → ContentUnit) : (s.onContent f).fault = s.fault := rfl
@[simp] theorem State.onContent_loader (f : ContentUnit → ContentUnit) : (s.onContent f).loader = s.loader := rfl
@[simp] theorem State.onContent_ports (f : ContentUnit → ContentUnit) : (s.onContent f).ports = s.ports := rfl
@[simp] theorem State.onContent_free (f : ContentUnit → ContentUnit) : (s.onContent f).free = s.free := rfl

/-! ## onAlert -/

@[simp] theorem State.onAlert_pending (f : AlertUnit → AlertUnit) : (s.onAlert f).pending = s.pending := rfl
@[simp] theorem State.onAlert_resetHeld (f : AlertUnit → AlertUnit) : (s.onAlert f).resetHeld = s.resetHeld := rfl
@[simp] theorem State.onAlert_clock (f : AlertUnit → AlertUnit) : (s.onAlert f).clock = s.clock := rfl
@[simp] theorem State.onAlert_limits (f : AlertUnit → AlertUnit) : (s.onAlert f).limits = s.limits := rfl
@[simp] theorem State.onAlert_path (f : AlertUnit → AlertUnit) : (s.onAlert f).path = s.path := rfl
@[simp] theorem State.onAlert_ingest (f : AlertUnit → AlertUnit) : (s.onAlert f).ingest = s.ingest := rfl
@[simp] theorem State.onAlert_slots (f : AlertUnit → AlertUnit) : (s.onAlert f).slots = s.slots := rfl
@[simp] theorem State.onAlert_timebase (f : AlertUnit → AlertUnit) : (s.onAlert f).timebase = s.timebase := rfl
@[simp] theorem State.onAlert_cue (f : AlertUnit → AlertUnit) : (s.onAlert f).cue = s.cue := rfl
@[simp] theorem State.onAlert_splice (f : AlertUnit → AlertUnit) : (s.onAlert f).splice = s.splice := rfl
@[simp] theorem State.onAlert_content (f : AlertUnit → AlertUnit) : (s.onAlert f).content = s.content := rfl
@[simp] theorem State.onAlert_alert (f : AlertUnit → AlertUnit) : (s.onAlert f).alert = f s.alert := rfl
@[simp] theorem State.onAlert_report (f : AlertUnit → AlertUnit) : (s.onAlert f).report = s.report := rfl
@[simp] theorem State.onAlert_fault (f : AlertUnit → AlertUnit) : (s.onAlert f).fault = s.fault := rfl
@[simp] theorem State.onAlert_loader (f : AlertUnit → AlertUnit) : (s.onAlert f).loader = s.loader := rfl
@[simp] theorem State.onAlert_ports (f : AlertUnit → AlertUnit) : (s.onAlert f).ports = s.ports := rfl
@[simp] theorem State.onAlert_free (f : AlertUnit → AlertUnit) : (s.onAlert f).free = s.free := rfl

/-! ## onReport -/

@[simp] theorem State.onReport_pending (f : ReportUnit → ReportUnit) : (s.onReport f).pending = s.pending := rfl
@[simp] theorem State.onReport_resetHeld (f : ReportUnit → ReportUnit) : (s.onReport f).resetHeld = s.resetHeld := rfl
@[simp] theorem State.onReport_clock (f : ReportUnit → ReportUnit) : (s.onReport f).clock = s.clock := rfl
@[simp] theorem State.onReport_limits (f : ReportUnit → ReportUnit) : (s.onReport f).limits = s.limits := rfl
@[simp] theorem State.onReport_path (f : ReportUnit → ReportUnit) : (s.onReport f).path = s.path := rfl
@[simp] theorem State.onReport_ingest (f : ReportUnit → ReportUnit) : (s.onReport f).ingest = s.ingest := rfl
@[simp] theorem State.onReport_slots (f : ReportUnit → ReportUnit) : (s.onReport f).slots = s.slots := rfl
@[simp] theorem State.onReport_timebase (f : ReportUnit → ReportUnit) : (s.onReport f).timebase = s.timebase := rfl
@[simp] theorem State.onReport_cue (f : ReportUnit → ReportUnit) : (s.onReport f).cue = s.cue := rfl
@[simp] theorem State.onReport_splice (f : ReportUnit → ReportUnit) : (s.onReport f).splice = s.splice := rfl
@[simp] theorem State.onReport_content (f : ReportUnit → ReportUnit) : (s.onReport f).content = s.content := rfl
@[simp] theorem State.onReport_alert (f : ReportUnit → ReportUnit) : (s.onReport f).alert = s.alert := rfl
@[simp] theorem State.onReport_report (f : ReportUnit → ReportUnit) : (s.onReport f).report = f s.report := rfl
@[simp] theorem State.onReport_fault (f : ReportUnit → ReportUnit) : (s.onReport f).fault = s.fault := rfl
@[simp] theorem State.onReport_loader (f : ReportUnit → ReportUnit) : (s.onReport f).loader = s.loader := rfl
@[simp] theorem State.onReport_ports (f : ReportUnit → ReportUnit) : (s.onReport f).ports = s.ports := rfl
@[simp] theorem State.onReport_free (f : ReportUnit → ReportUnit) : (s.onReport f).free = s.free := rfl

/-! ## onFault -/

@[simp] theorem State.onFault_pending (f : FaultUnit → FaultUnit) : (s.onFault f).pending = s.pending := rfl
@[simp] theorem State.onFault_resetHeld (f : FaultUnit → FaultUnit) : (s.onFault f).resetHeld = s.resetHeld := rfl
@[simp] theorem State.onFault_clock (f : FaultUnit → FaultUnit) : (s.onFault f).clock = s.clock := rfl
@[simp] theorem State.onFault_limits (f : FaultUnit → FaultUnit) : (s.onFault f).limits = s.limits := rfl
@[simp] theorem State.onFault_path (f : FaultUnit → FaultUnit) : (s.onFault f).path = s.path := rfl
@[simp] theorem State.onFault_ingest (f : FaultUnit → FaultUnit) : (s.onFault f).ingest = s.ingest := rfl
@[simp] theorem State.onFault_slots (f : FaultUnit → FaultUnit) : (s.onFault f).slots = s.slots := rfl
@[simp] theorem State.onFault_timebase (f : FaultUnit → FaultUnit) : (s.onFault f).timebase = s.timebase := rfl
@[simp] theorem State.onFault_cue (f : FaultUnit → FaultUnit) : (s.onFault f).cue = s.cue := rfl
@[simp] theorem State.onFault_splice (f : FaultUnit → FaultUnit) : (s.onFault f).splice = s.splice := rfl
@[simp] theorem State.onFault_content (f : FaultUnit → FaultUnit) : (s.onFault f).content = s.content := rfl
@[simp] theorem State.onFault_alert (f : FaultUnit → FaultUnit) : (s.onFault f).alert = s.alert := rfl
@[simp] theorem State.onFault_report (f : FaultUnit → FaultUnit) : (s.onFault f).report = s.report := rfl
@[simp] theorem State.onFault_fault (f : FaultUnit → FaultUnit) : (s.onFault f).fault = f s.fault := rfl
@[simp] theorem State.onFault_loader (f : FaultUnit → FaultUnit) : (s.onFault f).loader = s.loader := rfl
@[simp] theorem State.onFault_ports (f : FaultUnit → FaultUnit) : (s.onFault f).ports = s.ports := rfl
@[simp] theorem State.onFault_free (f : FaultUnit → FaultUnit) : (s.onFault f).free = s.free := rfl

/-! ## onLoader -/

@[simp] theorem State.onLoader_pending (f : StartLoader → StartLoader) : (s.onLoader f).pending = s.pending := rfl
@[simp] theorem State.onLoader_resetHeld (f : StartLoader → StartLoader) : (s.onLoader f).resetHeld = s.resetHeld := rfl
@[simp] theorem State.onLoader_clock (f : StartLoader → StartLoader) : (s.onLoader f).clock = s.clock := rfl
@[simp] theorem State.onLoader_limits (f : StartLoader → StartLoader) : (s.onLoader f).limits = s.limits := rfl
@[simp] theorem State.onLoader_path (f : StartLoader → StartLoader) : (s.onLoader f).path = s.path := rfl
@[simp] theorem State.onLoader_ingest (f : StartLoader → StartLoader) : (s.onLoader f).ingest = s.ingest := rfl
@[simp] theorem State.onLoader_slots (f : StartLoader → StartLoader) : (s.onLoader f).slots = s.slots := rfl
@[simp] theorem State.onLoader_timebase (f : StartLoader → StartLoader) : (s.onLoader f).timebase = s.timebase := rfl
@[simp] theorem State.onLoader_cue (f : StartLoader → StartLoader) : (s.onLoader f).cue = s.cue := rfl
@[simp] theorem State.onLoader_splice (f : StartLoader → StartLoader) : (s.onLoader f).splice = s.splice := rfl
@[simp] theorem State.onLoader_content (f : StartLoader → StartLoader) : (s.onLoader f).content = s.content := rfl
@[simp] theorem State.onLoader_alert (f : StartLoader → StartLoader) : (s.onLoader f).alert = s.alert := rfl
@[simp] theorem State.onLoader_report (f : StartLoader → StartLoader) : (s.onLoader f).report = s.report := rfl
@[simp] theorem State.onLoader_fault (f : StartLoader → StartLoader) : (s.onLoader f).fault = s.fault := rfl
@[simp] theorem State.onLoader_loader (f : StartLoader → StartLoader) : (s.onLoader f).loader = f s.loader := rfl
@[simp] theorem State.onLoader_ports (f : StartLoader → StartLoader) : (s.onLoader f).ports = s.ports := rfl
@[simp] theorem State.onLoader_free (f : StartLoader → StartLoader) : (s.onLoader f).free = s.free := rfl

/-! ## onLimits -/

@[simp] theorem State.onLimits_pending (f : Limits → Limits) : (s.onLimits f).pending = s.pending := rfl
@[simp] theorem State.onLimits_resetHeld (f : Limits → Limits) : (s.onLimits f).resetHeld = s.resetHeld := rfl
@[simp] theorem State.onLimits_clock (f : Limits → Limits) : (s.onLimits f).clock = s.clock := rfl
@[simp] theorem State.onLimits_limits (f : Limits → Limits) : (s.onLimits f).limits = f s.limits := rfl
@[simp] theorem State.onLimits_path (f : Limits → Limits) : (s.onLimits f).path = s.path := rfl
@[simp] theorem State.onLimits_ingest (f : Limits → Limits) : (s.onLimits f).ingest = s.ingest := rfl
@[simp] theorem State.onLimits_slots (f : Limits → Limits) : (s.onLimits f).slots = s.slots := rfl
@[simp] theorem State.onLimits_timebase (f : Limits → Limits) : (s.onLimits f).timebase = s.timebase := rfl
@[simp] theorem State.onLimits_cue (f : Limits → Limits) : (s.onLimits f).cue = s.cue := rfl
@[simp] theorem State.onLimits_splice (f : Limits → Limits) : (s.onLimits f).splice = s.splice := rfl
@[simp] theorem State.onLimits_content (f : Limits → Limits) : (s.onLimits f).content = s.content := rfl
@[simp] theorem State.onLimits_alert (f : Limits → Limits) : (s.onLimits f).alert = s.alert := rfl
@[simp] theorem State.onLimits_report (f : Limits → Limits) : (s.onLimits f).report = s.report := rfl
@[simp] theorem State.onLimits_fault (f : Limits → Limits) : (s.onLimits f).fault = s.fault := rfl
@[simp] theorem State.onLimits_loader (f : Limits → Limits) : (s.onLimits f).loader = s.loader := rfl
@[simp] theorem State.onLimits_ports (f : Limits → Limits) : (s.onLimits f).ports = s.ports := rfl
@[simp] theorem State.onLimits_free (f : Limits → Limits) : (s.onLimits f).free = s.free := rfl

/-! ## What leaves a port, the queue of commands -/

@[simp] theorem State.emit_pending (e : PortEvent) : (s.emit e).pending = s.pending := rfl
@[simp] theorem State.emit_resetHeld (e : PortEvent) : (s.emit e).resetHeld = s.resetHeld := rfl
@[simp] theorem State.emit_clock (e : PortEvent) : (s.emit e).clock = s.clock := rfl
@[simp] theorem State.emit_limits (e : PortEvent) : (s.emit e).limits = s.limits := rfl
@[simp] theorem State.emit_path (e : PortEvent) : (s.emit e).path = s.path := rfl
@[simp] theorem State.emit_ingest (e : PortEvent) : (s.emit e).ingest = s.ingest := rfl
@[simp] theorem State.emit_slots (e : PortEvent) : (s.emit e).slots = s.slots := rfl
@[simp] theorem State.emit_timebase (e : PortEvent) : (s.emit e).timebase = s.timebase := rfl
@[simp] theorem State.emit_cue (e : PortEvent) : (s.emit e).cue = s.cue := rfl
@[simp] theorem State.emit_splice (e : PortEvent) : (s.emit e).splice = s.splice := rfl
@[simp] theorem State.emit_content (e : PortEvent) : (s.emit e).content = s.content := rfl
@[simp] theorem State.emit_alert (e : PortEvent) : (s.emit e).alert = s.alert := rfl
@[simp] theorem State.emit_report (e : PortEvent) : (s.emit e).report = s.report := rfl
@[simp] theorem State.emit_fault (e : PortEvent) : (s.emit e).fault = s.fault := rfl
@[simp] theorem State.emit_loader (e : PortEvent) : (s.emit e).loader = s.loader := rfl
@[simp] theorem State.emit_ports (e : PortEvent) : (s.emit e).ports = s.ports ++ [e] := rfl
@[simp] theorem State.emit_free (e : PortEvent) : (s.emit e).free = s.free := rfl
@[simp] theorem State.withPending_pending (q : List Instr) : (s.withPending q).pending = q := rfl
@[simp] theorem State.withPending_resetHeld (q : List Instr) : (s.withPending q).resetHeld = s.resetHeld := rfl
@[simp] theorem State.withPending_clock (q : List Instr) : (s.withPending q).clock = s.clock := rfl
@[simp] theorem State.withPending_limits (q : List Instr) : (s.withPending q).limits = s.limits := rfl
@[simp] theorem State.withPending_path (q : List Instr) : (s.withPending q).path = s.path := rfl
@[simp] theorem State.withPending_ingest (q : List Instr) : (s.withPending q).ingest = s.ingest := rfl
@[simp] theorem State.withPending_slots (q : List Instr) : (s.withPending q).slots = s.slots := rfl
@[simp] theorem State.withPending_timebase (q : List Instr) : (s.withPending q).timebase = s.timebase := rfl
@[simp] theorem State.withPending_cue (q : List Instr) : (s.withPending q).cue = s.cue := rfl
@[simp] theorem State.withPending_splice (q : List Instr) : (s.withPending q).splice = s.splice := rfl
@[simp] theorem State.withPending_content (q : List Instr) : (s.withPending q).content = s.content := rfl
@[simp] theorem State.withPending_alert (q : List Instr) : (s.withPending q).alert = s.alert := rfl
@[simp] theorem State.withPending_report (q : List Instr) : (s.withPending q).report = s.report := rfl
@[simp] theorem State.withPending_fault (q : List Instr) : (s.withPending q).fault = s.fault := rfl
@[simp] theorem State.withPending_loader (q : List Instr) : (s.withPending q).loader = s.loader := rfl
@[simp] theorem State.withPending_ports (q : List Instr) : (s.withPending q).ports = s.ports := rfl
@[simp] theorem State.withPending_free (q : List Instr) : (s.withPending q).free = s.free := rfl

/-! ## One entry of a table -/

theorem modifyAt_fin {α : Type} {n : Nat} (v : Vector α n) (i j : Fin n) (f : α → α) :
    (modifyAt v i f)[j] = if i = j then f v[j] else v[j] := by
  unfold modifyAt
  by_cases h : i = j
  · subst h; simp
  · have h' : i.val ≠ j.val := fun e => h (Fin.ext e)
    simp [h, h']

theorem set_fin {α : Type} {n : Nat} (v : Vector α n) (i j : Fin n) (x : α) :
    (v.set i x)[j] = if i = j then x else v[j] := by
  by_cases h : i = j
  · subst h; simp
  · have h' : i.val ≠ j.val := fun e => h (Fin.ext e)
    simp [h, h']

@[simp] theorem modifyAt_getElem {α : Type} {n : Nat} (v : Vector α n) (i : Fin n) (j : Nat) (h : j < n) (f : α → α) :
    (modifyAt v i f)[j] = if i.val = j then f v[j] else v[j] := by
  have := modifyAt_fin v i ⟨j, h⟩ f
  simpa [Fin.ext_iff] using this

@[simp] theorem State.onFields_pending (i : Fin 64) (f : SpliceFields → SpliceFields) : (s.onFields i f).pending = s.pending := rfl
@[simp] theorem State.onFields_resetHeld (i : Fin 64) (f : SpliceFields → SpliceFields) : (s.onFields i f).resetHeld = s.resetHeld := rfl
@[simp] theorem State.onFields_clock (i : Fin 64) (f : SpliceFields → SpliceFields) : (s.onFields i f).clock = s.clock := rfl
@[simp] theorem State.onFields_limits (i : Fin 64) (f : SpliceFields → SpliceFields) : (s.onFields i f).limits = s.limits := rfl
@[simp] theorem State.onFields_path (i : Fin 64) (f : SpliceFields → SpliceFields) : (s.onFields i f).path = s.path := rfl
@[simp] theorem State.onFields_ingest (i : Fin 64) (f : SpliceFields → SpliceFields) : (s.onFields i f).ingest = s.ingest := rfl
@[simp] theorem State.onFields_slots (i : Fin 64) (f : SpliceFields → SpliceFields) : (s.onFields i f).slots = s.slots := rfl
@[simp] theorem State.onFields_timebase (i : Fin 64) (f : SpliceFields → SpliceFields) : (s.onFields i f).timebase = s.timebase := rfl
@[simp] theorem State.onFields_cue (i : Fin 64) (f : SpliceFields → SpliceFields) : (s.onFields i f).cue = s.cue := rfl
@[simp] theorem State.onFields_content (i : Fin 64) (f : SpliceFields → SpliceFields) : (s.onFields i f).content = s.content := rfl
@[simp] theorem State.onFields_alert (i : Fin 64) (f : SpliceFields → SpliceFields) : (s.onFields i f).alert = s.alert := rfl
@[simp] theorem State.onFields_report (i : Fin 64) (f : SpliceFields → SpliceFields) : (s.onFields i f).report = s.report := rfl
@[simp] theorem State.onFields_fault (i : Fin 64) (f : SpliceFields → SpliceFields) : (s.onFields i f).fault = s.fault := rfl
@[simp] theorem State.onFields_loader (i : Fin 64) (f : SpliceFields → SpliceFields) : (s.onFields i f).loader = s.loader := rfl
@[simp] theorem State.onFields_ports (i : Fin 64) (f : SpliceFields → SpliceFields) : (s.onFields i f).ports = s.ports := rfl
@[simp] theorem State.onFields_free (i : Fin 64) (f : SpliceFields → SpliceFields) : (s.onFields i f).free = s.free := rfl
@[simp] theorem State.onFields_splice_records (i : Fin 64) (f : SpliceFields → SpliceFields) : (s.onFields i f).splice.records = s.splice.records := rfl
@[simp] theorem State.onFields_splice_nextHeader (i : Fin 64) (f : SpliceFields → SpliceFields) : (s.onFields i f).splice.nextHeader = s.splice.nextHeader := rfl
@[simp] theorem State.onFields_splice_services (i : Fin 64) (f : SpliceFields → SpliceFields) :
    (s.onFields i f).splice.services = modifyAt s.splice.services i f := rfl

@[simp] theorem State.onRecord_pending (i : Fin 68) (f : InsertionRecord → InsertionRecord) : (s.onRecord i f).pending = s.pending := rfl
@[simp] theorem State.onRecord_resetHeld (i : Fin 68) (f : InsertionRecord → InsertionRecord) : (s.onRecord i f).resetHeld = s.resetHeld := rfl
@[simp] theorem State.onRecord_clock (i : Fin 68) (f : InsertionRecord → InsertionRecord) : (s.onRecord i f).clock = s.clock := rfl
@[simp] theorem State.onRecord_limits (i : Fin 68) (f : InsertionRecord → InsertionRecord) : (s.onRecord i f).limits = s.limits := rfl
@[simp] theorem State.onRecord_path (i : Fin 68) (f : InsertionRecord → InsertionRecord) : (s.onRecord i f).path = s.path := rfl
@[simp] theorem State.onRecord_ingest (i : Fin 68) (f : InsertionRecord → InsertionRecord) : (s.onRecord i f).ingest = s.ingest := rfl
@[simp] theorem State.onRecord_slots (i : Fin 68) (f : InsertionRecord → InsertionRecord) : (s.onRecord i f).slots = s.slots := rfl
@[simp] theorem State.onRecord_timebase (i : Fin 68) (f : InsertionRecord → InsertionRecord) : (s.onRecord i f).timebase = s.timebase := rfl
@[simp] theorem State.onRecord_cue (i : Fin 68) (f : InsertionRecord → InsertionRecord) : (s.onRecord i f).cue = s.cue := rfl
@[simp] theorem State.onRecord_content (i : Fin 68) (f : InsertionRecord → InsertionRecord) : (s.onRecord i f).content = s.content := rfl
@[simp] theorem State.onRecord_alert (i : Fin 68) (f : InsertionRecord → InsertionRecord) : (s.onRecord i f).alert = s.alert := rfl
@[simp] theorem State.onRecord_report (i : Fin 68) (f : InsertionRecord → InsertionRecord) : (s.onRecord i f).report = s.report := rfl
@[simp] theorem State.onRecord_fault (i : Fin 68) (f : InsertionRecord → InsertionRecord) : (s.onRecord i f).fault = s.fault := rfl
@[simp] theorem State.onRecord_loader (i : Fin 68) (f : InsertionRecord → InsertionRecord) : (s.onRecord i f).loader = s.loader := rfl
@[simp] theorem State.onRecord_ports (i : Fin 68) (f : InsertionRecord → InsertionRecord) : (s.onRecord i f).ports = s.ports := rfl
@[simp] theorem State.onRecord_free (i : Fin 68) (f : InsertionRecord → InsertionRecord) : (s.onRecord i f).free = s.free := rfl
@[simp] theorem State.onRecord_splice_services (i : Fin 68) (f : InsertionRecord → InsertionRecord) : (s.onRecord i f).splice.services = s.splice.services := rfl
@[simp] theorem State.onRecord_splice_nextHeader (i : Fin 68) (f : InsertionRecord → InsertionRecord) : (s.onRecord i f).splice.nextHeader = s.splice.nextHeader := rfl
@[simp] theorem State.onRecord_splice_records (i : Fin 68) (f : InsertionRecord → InsertionRecord) :
    (s.onRecord i f).splice.records = modifyAt s.splice.records i f := rfl

@[simp] theorem State.onEntry_pending (i : Fin 4) (f : AlertEntry → AlertEntry) : (s.onEntry i f).pending = s.pending := rfl
@[simp] theorem State.onEntry_resetHeld (i : Fin 4) (f : AlertEntry → AlertEntry) : (s.onEntry i f).resetHeld = s.resetHeld := rfl
@[simp] theorem State.onEntry_clock (i : Fin 4) (f : AlertEntry → AlertEntry) : (s.onEntry i f).clock = s.clock := rfl
@[simp] theorem State.onEntry_limits (i : Fin 4) (f : AlertEntry → AlertEntry) : (s.onEntry i f).limits = s.limits := rfl
@[simp] theorem State.onEntry_path (i : Fin 4) (f : AlertEntry → AlertEntry) : (s.onEntry i f).path = s.path := rfl
@[simp] theorem State.onEntry_ingest (i : Fin 4) (f : AlertEntry → AlertEntry) : (s.onEntry i f).ingest = s.ingest := rfl
@[simp] theorem State.onEntry_slots (i : Fin 4) (f : AlertEntry → AlertEntry) : (s.onEntry i f).slots = s.slots := rfl
@[simp] theorem State.onEntry_timebase (i : Fin 4) (f : AlertEntry → AlertEntry) : (s.onEntry i f).timebase = s.timebase := rfl
@[simp] theorem State.onEntry_cue (i : Fin 4) (f : AlertEntry → AlertEntry) : (s.onEntry i f).cue = s.cue := rfl
@[simp] theorem State.onEntry_splice (i : Fin 4) (f : AlertEntry → AlertEntry) : (s.onEntry i f).splice = s.splice := rfl
@[simp] theorem State.onEntry_content (i : Fin 4) (f : AlertEntry → AlertEntry) : (s.onEntry i f).content = s.content := rfl
@[simp] theorem State.onEntry_report (i : Fin 4) (f : AlertEntry → AlertEntry) : (s.onEntry i f).report = s.report := rfl
@[simp] theorem State.onEntry_fault (i : Fin 4) (f : AlertEntry → AlertEntry) : (s.onEntry i f).fault = s.fault := rfl
@[simp] theorem State.onEntry_loader (i : Fin 4) (f : AlertEntry → AlertEntry) : (s.onEntry i f).loader = s.loader := rfl
@[simp] theorem State.onEntry_ports (i : Fin 4) (f : AlertEntry → AlertEntry) : (s.onEntry i f).ports = s.ports := rfl
@[simp] theorem State.onEntry_free (i : Fin 4) (f : AlertEntry → AlertEntry) : (s.onEntry i f).free = s.free := rfl
@[simp] theorem State.onEntry_alert_startOrder (i : Fin 4) (f : AlertEntry → AlertEntry) : (s.onEntry i f).alert.startOrder = s.alert.startOrder := rfl
@[simp] theorem State.onEntry_alert_activeMaps (i : Fin 4) (f : AlertEntry → AlertEntry) : (s.onEntry i f).alert.activeMaps = s.alert.activeMaps := rfl
@[simp] theorem State.onEntry_alert_stagedMaps (i : Fin 4) (f : AlertEntry → AlertEntry) : (s.onEntry i f).alert.stagedMaps = s.alert.stagedMaps := rfl
@[simp] theorem State.onEntry_alert_overlays (i : Fin 4) (f : AlertEntry → AlertEntry) : (s.onEntry i f).alert.overlays = s.alert.overlays := rfl
@[simp] theorem State.onEntry_alert_entries (i : Fin 4) (f : AlertEntry → AlertEntry) :
    (s.onEntry i f).alert.entries = modifyAt s.alert.entries i f := rfl

@[simp] theorem State.onContentEntry_pending (i : Fin 128) (f : ContentEntry → ContentEntry) : (s.onContentEntry i f).pending = s.pending := rfl
@[simp] theorem State.onContentEntry_resetHeld (i : Fin 128) (f : ContentEntry → ContentEntry) : (s.onContentEntry i f).resetHeld = s.resetHeld := rfl
@[simp] theorem State.onContentEntry_clock (i : Fin 128) (f : ContentEntry → ContentEntry) : (s.onContentEntry i f).clock = s.clock := rfl
@[simp] theorem State.onContentEntry_limits (i : Fin 128) (f : ContentEntry → ContentEntry) : (s.onContentEntry i f).limits = s.limits := rfl
@[simp] theorem State.onContentEntry_path (i : Fin 128) (f : ContentEntry → ContentEntry) : (s.onContentEntry i f).path = s.path := rfl
@[simp] theorem State.onContentEntry_ingest (i : Fin 128) (f : ContentEntry → ContentEntry) : (s.onContentEntry i f).ingest = s.ingest := rfl
@[simp] theorem State.onContentEntry_slots (i : Fin 128) (f : ContentEntry → ContentEntry) : (s.onContentEntry i f).slots = s.slots := rfl
@[simp] theorem State.onContentEntry_timebase (i : Fin 128) (f : ContentEntry → ContentEntry) : (s.onContentEntry i f).timebase = s.timebase := rfl
@[simp] theorem State.onContentEntry_cue (i : Fin 128) (f : ContentEntry → ContentEntry) : (s.onContentEntry i f).cue = s.cue := rfl
@[simp] theorem State.onContentEntry_splice (i : Fin 128) (f : ContentEntry → ContentEntry) : (s.onContentEntry i f).splice = s.splice := rfl
@[simp] theorem State.onContentEntry_alert (i : Fin 128) (f : ContentEntry → ContentEntry) : (s.onContentEntry i f).alert = s.alert := rfl
@[simp] theorem State.onContentEntry_report (i : Fin 128) (f : ContentEntry → ContentEntry) : (s.onContentEntry i f).report = s.report := rfl
@[simp] theorem State.onContentEntry_fault (i : Fin 128) (f : ContentEntry → ContentEntry) : (s.onContentEntry i f).fault = s.fault := rfl
@[simp] theorem State.onContentEntry_loader (i : Fin 128) (f : ContentEntry → ContentEntry) : (s.onContentEntry i f).loader = s.loader := rfl
@[simp] theorem State.onContentEntry_ports (i : Fin 128) (f : ContentEntry → ContentEntry) : (s.onContentEntry i f).ports = s.ports := rfl
@[simp] theorem State.onContentEntry_free (i : Fin 128) (f : ContentEntry → ContentEntry) : (s.onContentEntry i f).free = s.free := rfl
@[simp] theorem State.onContentEntry_content_scanQueue (i : Fin 128) (f : ContentEntry → ContentEntry) : (s.onContentEntry i f).content.scanQueue = s.content.scanQueue := rfl
@[simp] theorem State.onContentEntry_content_scan (i : Fin 128) (f : ContentEntry → ContentEntry) : (s.onContentEntry i f).content.scan = s.content.scan := rfl
@[simp] theorem State.onContentEntry_content_prefetch (i : Fin 128) (f : ContentEntry → ContentEntry) : (s.onContentEntry i f).content.prefetch = s.content.prefetch := rfl
@[simp] theorem State.onContentEntry_content_demand (i : Fin 128) (f : ContentEntry → ContentEntry) : (s.onContentEntry i f).content.demand = s.content.demand := rfl
@[simp] theorem State.onContentEntry_content_demandWait (i : Fin 128) (f : ContentEntry → ContentEntry) : (s.onContentEntry i f).content.demandWait = s.content.demandWait := rfl
@[simp] theorem State.onContentEntry_content_nextScan (i : Fin 128) (f : ContentEntry → ContentEntry) : (s.onContentEntry i f).content.nextScan = s.content.nextScan := rfl
@[simp] theorem State.onContentEntry_content_entries (i : Fin 128) (f : ContentEntry → ContentEntry) :
    (s.onContentEntry i f).content.entries = modifyAt s.content.entries i f := rfl

@[simp] theorem State.onQueue_pending (i : Fin 64) (f : List QueueEntry → List QueueEntry) : (s.onQueue i f).pending = s.pending := rfl
@[simp] theorem State.onQueue_resetHeld (i : Fin 64) (f : List QueueEntry → List QueueEntry) : (s.onQueue i f).resetHeld = s.resetHeld := rfl
@[simp] theorem State.onQueue_clock (i : Fin 64) (f : List QueueEntry → List QueueEntry) : (s.onQueue i f).clock = s.clock := rfl
@[simp] theorem State.onQueue_limits (i : Fin 64) (f : List QueueEntry → List QueueEntry) : (s.onQueue i f).limits = s.limits := rfl
@[simp] theorem State.onQueue_path (i : Fin 64) (f : List QueueEntry → List QueueEntry) : (s.onQueue i f).path = s.path := rfl
@[simp] theorem State.onQueue_ingest (i : Fin 64) (f : List QueueEntry → List QueueEntry) : (s.onQueue i f).ingest = s.ingest := rfl
@[simp] theorem State.onQueue_slots (i : Fin 64) (f : List QueueEntry → List QueueEntry) : (s.onQueue i f).slots = s.slots := rfl
@[simp] theorem State.onQueue_timebase (i : Fin 64) (f : List QueueEntry → List QueueEntry) : (s.onQueue i f).timebase = s.timebase := rfl
@[simp] theorem State.onQueue_splice (i : Fin 64) (f : List QueueEntry → List QueueEntry) : (s.onQueue i f).splice = s.splice := rfl
@[simp] theorem State.onQueue_content (i : Fin 64) (f : List QueueEntry → List QueueEntry) : (s.onQueue i f).content = s.content := rfl
@[simp] theorem State.onQueue_alert (i : Fin 64) (f : List QueueEntry → List QueueEntry) : (s.onQueue i f).alert = s.alert := rfl
@[simp] theorem State.onQueue_report (i : Fin 64) (f : List QueueEntry → List QueueEntry) : (s.onQueue i f).report = s.report := rfl
@[simp] theorem State.onQueue_fault (i : Fin 64) (f : List QueueEntry → List QueueEntry) : (s.onQueue i f).fault = s.fault := rfl
@[simp] theorem State.onQueue_loader (i : Fin 64) (f : List QueueEntry → List QueueEntry) : (s.onQueue i f).loader = s.loader := rfl
@[simp] theorem State.onQueue_ports (i : Fin 64) (f : List QueueEntry → List QueueEntry) : (s.onQueue i f).ports = s.ports := rfl
@[simp] theorem State.onQueue_free (i : Fin 64) (f : List QueueEntry → List QueueEntry) : (s.onQueue i f).free = s.free := rfl
@[simp] theorem State.onQueue_cue_ring (i : Fin 64) (f : List QueueEntry → List QueueEntry) : (s.onQueue i f).cue.ring = s.cue.ring := rfl
@[simp] theorem State.onQueue_cue_pendingApply (i : Fin 64) (f : List QueueEntry → List QueueEntry) : (s.onQueue i f).cue.pendingApply = s.cue.pendingApply := rfl
@[simp] theorem State.onQueue_cue_queues (i : Fin 64) (f : List QueueEntry → List QueueEntry) :
    (s.onQueue i f).cue.queues = modifyAt s.cue.queues i f := rfl

@[simp] theorem State.setStaging_pending (b : Fin 8) (u : Option StagingUse) : (s.setStaging b u).pending = s.pending := rfl
@[simp] theorem State.setStaging_resetHeld (b : Fin 8) (u : Option StagingUse) : (s.setStaging b u).resetHeld = s.resetHeld := rfl
@[simp] theorem State.setStaging_clock (b : Fin 8) (u : Option StagingUse) : (s.setStaging b u).clock = s.clock := rfl
@[simp] theorem State.setStaging_limits (b : Fin 8) (u : Option StagingUse) : (s.setStaging b u).limits = s.limits := rfl
@[simp] theorem State.setStaging_ingest (b : Fin 8) (u : Option StagingUse) : (s.setStaging b u).ingest = s.ingest := rfl
@[simp] theorem State.setStaging_slots (b : Fin 8) (u : Option StagingUse) : (s.setStaging b u).slots = s.slots := rfl
@[simp] theorem State.setStaging_timebase (b : Fin 8) (u : Option StagingUse) : (s.setStaging b u).timebase = s.timebase := rfl
@[simp] theorem State.setStaging_cue (b : Fin 8) (u : Option StagingUse) : (s.setStaging b u).cue = s.cue := rfl
@[simp] theorem State.setStaging_splice (b : Fin 8) (u : Option StagingUse) : (s.setStaging b u).splice = s.splice := rfl
@[simp] theorem State.setStaging_content (b : Fin 8) (u : Option StagingUse) : (s.setStaging b u).content = s.content := rfl
@[simp] theorem State.setStaging_alert (b : Fin 8) (u : Option StagingUse) : (s.setStaging b u).alert = s.alert := rfl
@[simp] theorem State.setStaging_report (b : Fin 8) (u : Option StagingUse) : (s.setStaging b u).report = s.report := rfl
@[simp] theorem State.setStaging_fault (b : Fin 8) (u : Option StagingUse) : (s.setStaging b u).fault = s.fault := rfl
@[simp] theorem State.setStaging_loader (b : Fin 8) (u : Option StagingUse) : (s.setStaging b u).loader = s.loader := rfl
@[simp] theorem State.setStaging_ports (b : Fin 8) (u : Option StagingUse) : (s.setStaging b u).ports = s.ports := rfl
@[simp] theorem State.setStaging_free (b : Fin 8) (u : Option StagingUse) : (s.setStaging b u).free = s.free := rfl
@[simp] theorem State.setStaging_path_windows (b : Fin 8) (u : Option StagingUse) : (s.setStaging b u).path.windows = s.path.windows := rfl
@[simp] theorem State.setStaging_path_passQueue (b : Fin 8) (u : Option StagingUse) : (s.setStaging b u).path.passQueue = s.path.passQueue := rfl
@[simp] theorem State.setStaging_path_tags (b : Fin 8) (u : Option StagingUse) : (s.setStaging b u).path.tags = s.path.tags := rfl
@[simp] theorem State.setStaging_path_reads (b : Fin 8) (u : Option StagingUse) : (s.setStaging b u).path.reads = s.path.reads := rfl
@[simp] theorem State.setStaging_path_held (b : Fin 8) (u : Option StagingUse) : (s.setStaging b u).path.held = s.path.held := rfl
@[simp] theorem State.setStaging_path_presented (b : Fin 8) (u : Option StagingUse) : (s.setStaging b u).path.presented = s.path.presented := rfl
@[simp] theorem State.setStaging_path_openBurst (b : Fin 8) (u : Option StagingUse) : (s.setStaging b u).path.openBurst = s.path.openBurst := rfl
@[simp] theorem State.setStaging_path_bursts (b : Fin 8) (u : Option StagingUse) : (s.setStaging b u).path.bursts = s.path.bursts := rfl
@[simp] theorem State.setStaging_path_issuedRuns (b : Fin 8) (u : Option StagingUse) : (s.setStaging b u).path.issuedRuns = s.path.issuedRuns := rfl
@[simp] theorem State.setStaging_path_fetchQueue (b : Fin 8) (u : Option StagingUse) : (s.setStaging b u).path.fetchQueue = s.path.fetchQueue := rfl
@[simp] theorem State.setStaging_path_demandQueue (b : Fin 8) (u : Option StagingUse) : (s.setStaging b u).path.demandQueue = s.path.demandQueue := rfl
@[simp] theorem State.setStaging_path_activeTable (b : Fin 8) (u : Option StagingUse) : (s.setStaging b u).path.activeTable = s.path.activeTable := rfl
@[simp] theorem State.setStaging_path_stagedTable (b : Fin 8) (u : Option StagingUse) : (s.setStaging b u).path.stagedTable = s.path.stagedTable := rfl
@[simp] theorem State.setStaging_path_phase (b : Fin 8) (u : Option StagingUse) : (s.setStaging b u).path.phase = s.path.phase := rfl
@[simp] theorem State.setStaging_path_nextRequest (b : Fin 8) (u : Option StagingUse) : (s.setStaging b u).path.nextRequest = s.path.nextRequest := rfl
@[simp] theorem State.setStaging_path_nextClaim (b : Fin 8) (u : Option StagingUse) : (s.setStaging b u).path.nextClaim = s.path.nextClaim := rfl
@[simp] theorem State.setStaging_path_nextBurst (b : Fin 8) (u : Option StagingUse) : (s.setStaging b u).path.nextBurst = s.path.nextBurst := rfl
@[simp] theorem State.setStaging_path_staging (b : Fin 8) (u : Option StagingUse) :
    (s.setStaging b u).path.staging = s.path.staging.set b u := rfl

@[simp] theorem State.setClock_pending (i : Fin 64) (c : Option Clock) : (s.setClock i c).pending = s.pending := rfl
@[simp] theorem State.setClock_resetHeld (i : Fin 64) (c : Option Clock) : (s.setClock i c).resetHeld = s.resetHeld := rfl
@[simp] theorem State.setClock_clock (i : Fin 64) (c : Option Clock) : (s.setClock i c).clock = s.clock := rfl
@[simp] theorem State.setClock_limits (i : Fin 64) (c : Option Clock) : (s.setClock i c).limits = s.limits := rfl
@[simp] theorem State.setClock_path (i : Fin 64) (c : Option Clock) : (s.setClock i c).path = s.path := rfl
@[simp] theorem State.setClock_ingest (i : Fin 64) (c : Option Clock) : (s.setClock i c).ingest = s.ingest := rfl
@[simp] theorem State.setClock_slots (i : Fin 64) (c : Option Clock) : (s.setClock i c).slots = s.slots := rfl
@[simp] theorem State.setClock_cue (i : Fin 64) (c : Option Clock) : (s.setClock i c).cue = s.cue := rfl
@[simp] theorem State.setClock_splice (i : Fin 64) (c : Option Clock) : (s.setClock i c).splice = s.splice := rfl
@[simp] theorem State.setClock_content (i : Fin 64) (c : Option Clock) : (s.setClock i c).content = s.content := rfl
@[simp] theorem State.setClock_alert (i : Fin 64) (c : Option Clock) : (s.setClock i c).alert = s.alert := rfl
@[simp] theorem State.setClock_report (i : Fin 64) (c : Option Clock) : (s.setClock i c).report = s.report := rfl
@[simp] theorem State.setClock_fault (i : Fin 64) (c : Option Clock) : (s.setClock i c).fault = s.fault := rfl
@[simp] theorem State.setClock_loader (i : Fin 64) (c : Option Clock) : (s.setClock i c).loader = s.loader := rfl
@[simp] theorem State.setClock_ports (i : Fin 64) (c : Option Clock) : (s.setClock i c).ports = s.ports := rfl
@[simp] theorem State.setClock_free (i : Fin 64) (c : Option Clock) : (s.setClock i c).free = s.free := rfl
@[simp] theorem State.setClock_timebase_clocks (i : Fin 64) (c : Option Clock) :
    (s.setClock i c).timebase.clocks = s.timebase.clocks.set i c := rfl

@[simp] theorem State.setAssembly_pending (w : Fin 16) (a : Assembly) : (s.setAssembly w a).pending = s.pending := rfl
@[simp] theorem State.setAssembly_resetHeld (w : Fin 16) (a : Assembly) : (s.setAssembly w a).resetHeld = s.resetHeld := rfl
@[simp] theorem State.setAssembly_clock (w : Fin 16) (a : Assembly) : (s.setAssembly w a).clock = s.clock := rfl
@[simp] theorem State.setAssembly_limits (w : Fin 16) (a : Assembly) : (s.setAssembly w a).limits = s.limits := rfl
@[simp] theorem State.setAssembly_path (w : Fin 16) (a : Assembly) : (s.setAssembly w a).path = s.path := rfl
@[simp] theorem State.setAssembly_slots (w : Fin 16) (a : Assembly) : (s.setAssembly w a).slots = s.slots := rfl
@[simp] theorem State.setAssembly_timebase (w : Fin 16) (a : Assembly) : (s.setAssembly w a).timebase = s.timebase := rfl
@[simp] theorem State.setAssembly_cue (w : Fin 16) (a : Assembly) : (s.setAssembly w a).cue = s.cue := rfl
@[simp] theorem State.setAssembly_splice (w : Fin 16) (a : Assembly) : (s.setAssembly w a).splice = s.splice := rfl
@[simp] theorem State.setAssembly_content (w : Fin 16) (a : Assembly) : (s.setAssembly w a).content = s.content := rfl
@[simp] theorem State.setAssembly_alert (w : Fin 16) (a : Assembly) : (s.setAssembly w a).alert = s.alert := rfl
@[simp] theorem State.setAssembly_report (w : Fin 16) (a : Assembly) : (s.setAssembly w a).report = s.report := rfl
@[simp] theorem State.setAssembly_fault (w : Fin 16) (a : Assembly) : (s.setAssembly w a).fault = s.fault := rfl
@[simp] theorem State.setAssembly_loader (w : Fin 16) (a : Assembly) : (s.setAssembly w a).loader = s.loader := rfl
@[simp] theorem State.setAssembly_ports (w : Fin 16) (a : Assembly) : (s.setAssembly w a).ports = s.ports := rfl
@[simp] theorem State.setAssembly_free (w : Fin 16) (a : Assembly) : (s.setAssembly w a).free = s.free := rfl
@[simp] theorem State.setAssembly_ingest_services (w : Fin 16) (a : Assembly) : (s.setAssembly w a).ingest.services = s.ingest.services := rfl
@[simp] theorem State.setAssembly_ingest_inputCC (w : Fin 16) (a : Assembly) : (s.setAssembly w a).ingest.inputCC = s.ingest.inputCC := rfl
@[simp] theorem State.setAssembly_ingest_assembly (w : Fin 16) (a : Assembly) :
    (s.setAssembly w a).ingest.assembly = s.ingest.assembly.set w (some a) := rfl

@[simp] theorem State.setOverlay_pending (i : Fin 64) (v : Overlay) : (s.setOverlay i v).pending = s.pending := rfl
@[simp] theorem State.setOverlay_resetHeld (i : Fin 64) (v : Overlay) : (s.setOverlay i v).resetHeld = s.resetHeld := rfl
@[simp] theorem State.setOverlay_clock (i : Fin 64) (v : Overlay) : (s.setOverlay i v).clock = s.clock := rfl
@[simp] theorem State.setOverlay_limits (i : Fin 64) (v : Overlay) : (s.setOverlay i v).limits = s.limits := rfl
@[simp] theorem State.setOverlay_path (i : Fin 64) (v : Overlay) : (s.setOverlay i v).path = s.path := rfl
@[simp] theorem State.setOverlay_ingest (i : Fin 64) (v : Overlay) : (s.setOverlay i v).ingest = s.ingest := rfl
@[simp] theorem State.setOverlay_slots (i : Fin 64) (v : Overlay) : (s.setOverlay i v).slots = s.slots := rfl
@[simp] theorem State.setOverlay_timebase (i : Fin 64) (v : Overlay) : (s.setOverlay i v).timebase = s.timebase := rfl
@[simp] theorem State.setOverlay_cue (i : Fin 64) (v : Overlay) : (s.setOverlay i v).cue = s.cue := rfl
@[simp] theorem State.setOverlay_splice (i : Fin 64) (v : Overlay) : (s.setOverlay i v).splice = s.splice := rfl
@[simp] theorem State.setOverlay_content (i : Fin 64) (v : Overlay) : (s.setOverlay i v).content = s.content := rfl
@[simp] theorem State.setOverlay_report (i : Fin 64) (v : Overlay) : (s.setOverlay i v).report = s.report := rfl
@[simp] theorem State.setOverlay_fault (i : Fin 64) (v : Overlay) : (s.setOverlay i v).fault = s.fault := rfl
@[simp] theorem State.setOverlay_loader (i : Fin 64) (v : Overlay) : (s.setOverlay i v).loader = s.loader := rfl
@[simp] theorem State.setOverlay_ports (i : Fin 64) (v : Overlay) : (s.setOverlay i v).ports = s.ports := rfl
@[simp] theorem State.setOverlay_free (i : Fin 64) (v : Overlay) : (s.setOverlay i v).free = s.free := rfl
@[simp] theorem State.setOverlay_alert_entries (i : Fin 64) (v : Overlay) : (s.setOverlay i v).alert.entries = s.alert.entries := rfl
@[simp] theorem State.setOverlay_alert_startOrder (i : Fin 64) (v : Overlay) : (s.setOverlay i v).alert.startOrder = s.alert.startOrder := rfl
@[simp] theorem State.setOverlay_alert_activeMaps (i : Fin 64) (v : Overlay) : (s.setOverlay i v).alert.activeMaps = s.alert.activeMaps := rfl
@[simp] theorem State.setOverlay_alert_stagedMaps (i : Fin 64) (v : Overlay) : (s.setOverlay i v).alert.stagedMaps = s.alert.stagedMaps := rfl
@[simp] theorem State.setOverlay_alert_overlays (i : Fin 64) (v : Overlay) :
    (s.setOverlay i v).alert.overlays = s.alert.overlays.set i v := rfl

@[simp] theorem State.onSlot_pending (w : Fin 16) (slot : Nat) (f : SlotRecord → SlotRecord) : (s.onSlot w slot f).pending = s.pending := rfl
@[simp] theorem State.onSlot_resetHeld (w : Fin 16) (slot : Nat) (f : SlotRecord → SlotRecord) : (s.onSlot w slot f).resetHeld = s.resetHeld := rfl
@[simp] theorem State.onSlot_clock (w : Fin 16) (slot : Nat) (f : SlotRecord → SlotRecord) : (s.onSlot w slot f).clock = s.clock := rfl
@[simp] theorem State.onSlot_limits (w : Fin 16) (slot : Nat) (f : SlotRecord → SlotRecord) : (s.onSlot w slot f).limits = s.limits := rfl
@[simp] theorem State.onSlot_path (w : Fin 16) (slot : Nat) (f : SlotRecord → SlotRecord) : (s.onSlot w slot f).path = s.path := rfl
@[simp] theorem State.onSlot_ingest (w : Fin 16) (slot : Nat) (f : SlotRecord → SlotRecord) : (s.onSlot w slot f).ingest = s.ingest := rfl
@[simp] theorem State.onSlot_timebase (w : Fin 16) (slot : Nat) (f : SlotRecord → SlotRecord) : (s.onSlot w slot f).timebase = s.timebase := rfl
@[simp] theorem State.onSlot_cue (w : Fin 16) (slot : Nat) (f : SlotRecord → SlotRecord) : (s.onSlot w slot f).cue = s.cue := rfl
@[simp] theorem State.onSlot_splice (w : Fin 16) (slot : Nat) (f : SlotRecord → SlotRecord) : (s.onSlot w slot f).splice = s.splice := rfl
@[simp] theorem State.onSlot_content (w : Fin 16) (slot : Nat) (f : SlotRecord → SlotRecord) : (s.onSlot w slot f).content = s.content := rfl
@[simp] theorem State.onSlot_alert (w : Fin 16) (slot : Nat) (f : SlotRecord → SlotRecord) : (s.onSlot w slot f).alert = s.alert := rfl
@[simp] theorem State.onSlot_report (w : Fin 16) (slot : Nat) (f : SlotRecord → SlotRecord) : (s.onSlot w slot f).report = s.report := rfl
@[simp] theorem State.onSlot_fault (w : Fin 16) (slot : Nat) (f : SlotRecord → SlotRecord) : (s.onSlot w slot f).fault = s.fault := rfl
@[simp] theorem State.onSlot_loader (w : Fin 16) (slot : Nat) (f : SlotRecord → SlotRecord) : (s.onSlot w slot f).loader = s.loader := rfl
@[simp] theorem State.onSlot_ports (w : Fin 16) (slot : Nat) (f : SlotRecord → SlotRecord) : (s.onSlot w slot f).ports = s.ports := rfl
@[simp] theorem State.onSlot_free (w : Fin 16) (slot : Nat) (f : SlotRecord → SlotRecord) : (s.onSlot w slot f).free = s.free := rfl
@[simp] theorem State.onSlot_slots_records (w : Fin 16) (slot : Nat) (f : SlotRecord → SlotRecord) :
    (s.onSlot w slot f).slots.records = modifyAt s.slots.records w fun l => l.modify slot f := rfl

end Sys2Proof.Machine
end

