-- ==== Sys2Proof/Laws/Ends.lean ====
section
/-! SUPPORT. How a command ends, once for all commands: what is answered by a command that occurs, by one that does not, and by
one that breaks the protocol of the ports. -/

namespace Sys2Proof.Machine

variable (s : State)

/-- What ends every command does what R170, R171 and R174 say and nothing else. -/
theorem epilogue_ends : s.EndsAs s.epilogue where
  rest := by
    unfold State.epilogue State.issueWrite State.setAttn
    dsimp only
    split
    · rfl
    · rename_i base records _
      unfold State.onReport ReportUnit.issueWrite
      dsimp only
      split
      · rfl
      · split
        · rfl
        · split
          · rfl
          · split
            · rfl
            · split <;> rfl
  issued base records r w m h := by
    obtain ⟨hw, hr, hh, ho⟩ := m
    unfold State.epilogue State.issueWrite State.setAttn
    dsimp only
    rw [hw]
    unfold State.onReport ReportUnit.issueWrite
    dsimp only
    rw [hr]
    unfold State.reportWrite at h
    dsimp only
    rw [hh, ho]
    simp only [Option.isSome_none, Bool.or_self, Bool.false_eq_true, if_false]
    split at h
    · rename_i hp
      cases h
      rw [if_pos hp]
      exact ⟨rfl, rfl, rfl⟩
    · rename_i hp
      have hp' : r.headerPending = false := by simpa using hp
      rw [if_neg hp]
      split at h
      · cases h
      · rename_i head rest hq
        try rw [hq]
        try dsimp only
        split at h
        · rename_i hl
          cases h
          rw [if_pos (show r.unread < records from hl)]
          refine ⟨?_, rfl, rfl⟩
          show some _ = some _
          cases r
          simp_all
        · cases h
  quiet h := by
    unfold State.epilogue State.issueWrite State.setAttn
    dsimp only
    split
    · exact ⟨rfl, rfl, rfl⟩
    · rename_i base records hw
      unfold State.onReport ReportUnit.issueWrite
      dsimp only
      split
      · rename_i hr; exact ⟨hr.symm ▸ rfl, rfl, rfl⟩
      · rename_i r hr
        by_cases ho : (s.report.halted || r.outstanding.isSome) = true
        · rw [if_pos ho]; exact ⟨rfl, rfl, rfl⟩
        · rw [if_neg ho]
          have m : s.MayWrite base records r := ⟨hw, hr, by simp_all, by simp_all⟩
          have h := fun w => h base records r w m
          unfold State.reportWrite at h
          by_cases hp : r.headerPending = true
          · rw [if_pos hp] at h; exact absurd rfl (h _)
          · rw [if_neg hp]
            rw [if_neg hp] at h
            split at h
            · rename_i hq; try rw [hq]
              exact ⟨rfl, rfl, rfl⟩
            · rename_i head rest hq
              try rw [hq]
              try dsimp only
              by_cases hl : r.unread < records
              · rw [if_pos (show (r.produced - r.consumed).toNat < records from hl)] at h; exact absurd rfl (h _)
              · rw [if_neg hl]; exact ⟨rfl, rfl, rfl⟩
  attn := rfl

/-- A command that has its effect answers the next state, ended. -/
theorem did_ends : ∃ t, s.did = .next t ∧ s.EndsAs t := ⟨_, rfl, epilogue_ends s⟩

/-- A command whose event can occur has its effect. -/
theorem when_ends {s : State} {b : Bool} (f : State → State) (h : s.resetHeld = false) (o : b = true) :
    ∃ t, s.when b f = .next t ∧ (f s).EndsAs t := by
  unfold State.when
  rw [h, o]
  exact did_ends (f s)

/-- A command whose event cannot occur has none. -/
theorem when_idle {s : State} {b : Bool} (f : State → State) (h : s.resetHeld = true ∨ b = false) :
    s.when b f = .next s := by
  unfold State.when
  rcases h with h | h <;> simp [h]

/-- A command of the ports whose operands fit has its effect. -/
theorem onPort_ends {s : State} {b k : Bool} (f : State → State) (h : s.resetHeld = false) (o : b = true) (fits : k = true) :
    ∃ t, s.onPort b k f = .next t ∧ (f s).EndsAs t := by
  unfold State.onPort
  rw [h, o, fits]
  exact did_ends (f s)

/-- A command of the ports whose operands do not fit is refused. -/
theorem onPort_refused {s : State} {b k : Bool} (f : State → State) (h : s.resetHeld = false) (o : b = true)
    (fits : k = false) : s.onPort b k f = .refused .portProtocol := by
  unfold State.onPort
  rw [h, o, fits]
  rfl

/-- A command of the ports answers a next state or `portProtocol`. -/
theorem onPort_cases (s : State) (b k : Bool) (f : State → State) :
    (∃ t, s.onPort b k f = .next t) ∨ s.onPort b k f = .refused .portProtocol := by
  unfold State.onPort
  split
  · split
    · exact .inl ⟨_, rfl⟩
    · exact .inr rfl
  · exact .inl ⟨_, rfl⟩

/-- A command that is no command of the ports answers a next state. -/
theorem when_next (s : State) (b : Bool) (f : State → State) : ∃ t, s.when b f = .next t := by
  unfold State.when
  split
  · exact ⟨_, rfl⟩
  · exact ⟨_, rfl⟩

end Sys2Proof.Machine
end

