-- ==== Sys2Proof/Laws/Interleave.lean ====
section
/-! SUPPORT. A free order choice drops nothing and adds nothing. -/

namespace Sys2Proof.Machine

theorem flatten_filter {α : Type} (lists : List (List α)) : (lists.filter fun l => !l.isEmpty).flatten = lists.flatten := by
  induction lists with
  | nil => rfl
  | cons l rest ih =>
    cases l with
    | nil => simpa using ih
    | cons a l => simp [ih]

theorem sum_filter {α : Type} (lists : List (List α)) :
    ((lists.filter fun l => !l.isEmpty).map List.length).sum = (lists.map List.length).sum := by
  induction lists with
  | nil => rfl
  | cons l rest ih =>
    cases l with
    | nil => simpa using ih
    | cons a l => simp [ih]

/-- Taking the head of one list off leaves the rest. -/
theorem modify_tail {α : Type} (lists : List (List α)) (i : Nat) (hi : i < lists.length) (he : lists[i] ≠ []) :
    (((lists.getD i []).take 1 ++ (lists.modify i List.tail).flatten).Perm lists.flatten) ∧
      ((lists.modify i List.tail).map List.length).sum + 1 = (lists.map List.length).sum := by
  induction lists generalizing i with
  | nil => simp at hi
  | cons l rest ih =>
    cases i with
    | zero =>
      cases l with
      | nil => simp at he
      | cons a l => simp; omega
    | succ i =>
      obtain ⟨p, q⟩ := ih i (by simpa using hi) (by simpa using he)
      refine ⟨?_, ?_⟩
      · simp only [List.getD_cons_succ, List.modify_succ_cons, List.flatten_cons]
        refine List.Perm.trans ?_ (List.Perm.append_left l p)
        rw [← List.append_assoc, ← List.append_assoc]
        exact List.Perm.append_right _ List.perm_append_comm
      · simp only [List.modify_succ_cons, List.map_cons, List.sum_cons]
        omega

/-- With fuel for every element, interleaving lists gives their elements in some order. -/
theorem interleave_perm {α : Type} (fuel free : Nat) (lists : List (List α))
    (enough : (lists.map List.length).sum ≤ fuel) : (interleave fuel free lists).1.Perm lists.flatten := by
  induction fuel generalizing free lists with
  | zero =>
    have : lists.flatten.length = 0 := by rw [List.length_flatten]; omega
    rw [List.length_eq_zero_iff.mp this]
    exact List.Perm.refl _
  | succ fuel ih =>
    rw [← flatten_filter lists]
    rw [← sum_filter lists] at enough
    have full : ∀ l ∈ lists.filter (fun l => !l.isEmpty), l ≠ [] := by
      intro l hl
      have := (List.mem_filter.mp hl).2
      simpa using this
    unfold interleave
    generalize lists.filter (fun l => !l.isEmpty) = live at *
    split
    · exact List.Perm.refl _
    · simp
    · next l k more =>
      have hi : Config.orderChoice free % (l :: k :: more).length < (l :: k :: more).length :=
        Nat.mod_lt _ (by simp)
      obtain ⟨p, q⟩ := modify_tail (l :: k :: more) _ hi (full _ (List.getElem_mem hi))
      exact (List.Perm.append_left _ (ih (free + 1) _ (by omega))).trans p

end Sys2Proof.Machine
end

