-- ==== Sys2Proof/Laws/Memory.lean ====
section
/-! SUPPORT. The byte-addressed shadows: every operation keeps the canonical form; a byte reads as it was last written; two
shadows in canonical form that read alike are equal. -/

namespace Sys2Proof.Machine

/-- The canonical form from a higher offset on is one from a lower offset on. -/
theorem Memory.wfFrom_lower {m : Memory} {a b : Nat} (h : Memory.wfFrom a m = true) (le : b ≤ a) :
    Memory.wfFrom b m = true := by
  cases m with
  | nil => rfl
  | cons x m =>
    obtain ⟨i, v⟩ := x
    simp only [Memory.wfFrom, Bool.and_eq_true, decide_eq_true_eq] at h ⊢
    exact ⟨⟨by omega, h.1.2⟩, h.2⟩

theorem Memory.erase_wfFrom {m : Memory} {a i : Nat} (h : Memory.wfFrom a m = true) : Memory.wfFrom a (m.erase i) = true := by
  induction m generalizing a with
  | nil => rfl
  | cons x m ih =>
    obtain ⟨j, v⟩ := x
    unfold Memory.erase
    simp only [Memory.wfFrom, Bool.and_eq_true, decide_eq_true_eq] at h
    split
    · exact Memory.wfFrom_lower h.2 (by omega)
    · split
      · simpa only [Memory.wfFrom, Bool.and_eq_true, decide_eq_true_eq] using h
      · simpa only [Memory.wfFrom, Bool.and_eq_true, decide_eq_true_eq] using ⟨h.1, ih h.2⟩

theorem Memory.insert_wfFrom {m : Memory} {a i : Nat} {v : Byte} (h : Memory.wfFrom a m = true) (le : a ≤ i)
    (nz : v ≠ 0) : Memory.wfFrom a (m.insert i v) = true := by
  induction m generalizing a with
  | nil => simpa [Memory.insert, Memory.wfFrom, le] using nz
  | cons x m ih =>
    obtain ⟨j, w⟩ := x
    unfold Memory.insert
    simp only [Memory.wfFrom, Bool.and_eq_true, decide_eq_true_eq, bne_iff_ne] at h
    split
    · next e =>
      simp only [Memory.wfFrom, Bool.and_eq_true, decide_eq_true_eq, bne_iff_ne]
      exact ⟨⟨le, nz⟩, e ▸ h.2⟩
    · split
      · simp only [Memory.wfFrom, Bool.and_eq_true, decide_eq_true_eq, bne_iff_ne]
        exact ⟨⟨le, nz⟩, ⟨by omega, h.1.2⟩, h.2⟩
      · simp only [Memory.wfFrom, Bool.and_eq_true, decide_eq_true_eq, bne_iff_ne]
        exact ⟨h.1, ih h.2 (by omega)⟩

/-- A byte written keeps the canonical form. -/
theorem Memory.write_wf {m : Memory} (i : Nat) (v : Byte) (h : m.wf = true) : (m.write i v).wf = true := by
  unfold Memory.write
  split
  · exact Memory.erase_wfFrom h
  · next nz => exact Memory.insert_wfFrom h (Nat.zero_le _) nz

/-- The enabled bytes of a beat written keep the canonical form. -/
theorem Memory.writeLanes_wf (lanes : List Nat) {m : Memory} (offset : Nat) (data : BeatData) (h : m.wf = true) :
    (m.writeLanes offset data lanes).wf = true := by
  unfold Memory.writeLanes
  induction lanes generalizing m with
  | nil => exact h
  | cons x l ih => exact ih (Memory.write_wf _ _ h)

/-- Below its first offset a buffer reads 0. -/
theorem Memory.read_low {m : Memory} {a i : Nat} (h : Memory.wfFrom a m = true) (lt : i < a) : Memory.read m i = 0 := by
  induction m generalizing a with
  | nil => rfl
  | cons x m ih =>
    obtain ⟨j, v⟩ := x
    simp only [Memory.wfFrom, Bool.and_eq_true, decide_eq_true_eq] at h
    unfold Memory.read
    rw [if_neg (by omega)]
    exact ih h.2 (by omega)

theorem Memory.read_erase {m : Memory} {a : Nat} (h : Memory.wfFrom a m = true) (i j : Nat) :
    Memory.read (Memory.erase m i) j = if j = i then 0 else Memory.read m j := by
  induction m generalizing a with
  | nil => simp [Memory.erase, Memory.read]
  | cons x m ih =>
    obtain ⟨k, v⟩ := x
    simp only [Memory.wfFrom, Bool.and_eq_true, decide_eq_true_eq] at h
    unfold Memory.erase
    by_cases e : k = i
    · subst e
      rw [if_pos rfl]
      by_cases f : j = k
      · subst f; rw [if_pos rfl]; exact Memory.read_low h.2 (by omega)
      · rw [if_neg f]
        show _ = if k = j then v else Memory.read m j
        rw [if_neg (Ne.symm f)]
    · rw [if_neg e]
      by_cases l : i < k
      · rw [if_pos l]
        by_cases f : j = i
        · subst f
          rw [if_pos rfl]
          show (if k = j then v else Memory.read m j) = 0
          rw [if_neg e]
          exact Memory.read_low h.2 (by omega)
        · rw [if_neg f]
      · rw [if_neg l]
        show (if k = j then v else Memory.read (Memory.erase m i) j) = _
        rw [ih h.2]
        by_cases f : k = j
        · subst f; rw [if_pos rfl, if_neg e]; show v = if k = k then v else _; rw [if_pos rfl]
        · rw [if_neg f]
          show _ = if j = i then 0 else if k = j then v else Memory.read m j
          rw [if_neg f]

theorem Memory.read_insert {m : Memory} (i j : Nat) (v : Byte) :
    Memory.read (Memory.insert m i v) j = if j = i then v else Memory.read m j := by
  induction m with
  | nil =>
    show (if i = j then v else 0) = _
    by_cases f : j = i
    · subst f; rw [if_pos rfl, if_pos rfl]
    · rw [if_neg (Ne.symm f), if_neg f]; rfl
  | cons x m ih =>
    obtain ⟨k, w⟩ := x
    unfold Memory.insert
    by_cases e : k = i
    · subst e
      rw [if_pos rfl]
      show (if k = j then v else Memory.read m j) = if j = k then v else if k = j then w else Memory.read m j
      by_cases f : j = k
      · subst f; simp
      · simp [f, Ne.symm f]
    · rw [if_neg e]
      by_cases l : i < k
      · rw [if_pos l]
        show (if i = j then v else if k = j then w else Memory.read m j) = if j = i then v else if k = j then w else Memory.read m j
        by_cases f : j = i
        · subst f; simp
        · simp [f, Ne.symm f]
      · rw [if_neg l]
        show (if k = j then w else Memory.read (Memory.insert m i v) j) = if j = i then v else if k = j then w else Memory.read m j
        rw [ih]
        by_cases f : k = j
        · subst f; simp [e]
        · simp [f]

/-- A byte reads as it was last written, and a write leaves every other byte alone. -/
theorem Memory.read_write {m : Memory} (h : m.wf = true) (i j : Nat) (v : Byte) :
    Memory.read (Memory.write m i v) j = if j = i then v else Memory.read m j := by
  unfold Memory.write
  split
  · next z => rw [Memory.read_erase h, z]
  · exact Memory.read_insert _ _ _

/-- Two shadows in canonical form that read alike are equal. -/
theorem Memory.ext_wfFrom {m k : Memory} {a b : Nat} (hm : Memory.wfFrom a m = true) (hk : Memory.wfFrom b k = true)
    (same : ∀ i, Memory.read m i = Memory.read k i) : m = k := by
  induction m generalizing a b k with
  | nil =>
    cases k with
    | nil => rfl
    | cons x k =>
      obtain ⟨i, v⟩ := x
      simp only [Memory.wfFrom, Bool.and_eq_true, decide_eq_true_eq, bne_iff_ne] at hk
      have e : (0 : Byte) = if i = i then v else Memory.read k i := same i
      rw [if_pos rfl] at e
      exact absurd e.symm hk.1.2
  | cons x m ih =>
    obtain ⟨i, v⟩ := x
    simp only [Memory.wfFrom, Bool.and_eq_true, decide_eq_true_eq, bne_iff_ne] at hm
    cases k with
    | nil =>
      have e : (if i = i then v else Memory.read m i) = (0 : Byte) := same i
      rw [if_pos rfl] at e
      exact absurd e hm.1.2
    | cons y k =>
      obtain ⟨j, w⟩ := y
      simp only [Memory.wfFrom, Bool.and_eq_true, decide_eq_true_eq, bne_iff_ne] at hk
      have at_ (n : Nat) : (if i = n then v else Memory.read m n) = if j = n then w else Memory.read k n := same n
      have ij : i = j := by
        rcases Nat.lt_trichotomy i j with l | e | l
        · have e := at_ i
          rw [if_pos rfl, if_neg (by omega), Memory.read_low hk.2 (by omega)] at e
          exact absurd e hm.1.2
        · exact e
        · have e := at_ j
          rw [if_pos rfl, if_neg (by omega), Memory.read_low hm.2 (by omega)] at e
          exact absurd e.symm hk.1.2
      subst ij
      have vw : v = w := by simpa using at_ i
      subst vw
      refine congrArg _ (ih hm.2 hk.2 fun n => ?_)
      by_cases e : i = n
      · subst e; rw [Memory.read_low hm.2 (by omega), Memory.read_low hk.2 (by omega)]
      · have := at_ n
        rwa [if_neg e, if_neg e] at this

end Sys2Proof.Machine
end

