-- ==== Sys2Proof/Laws/Moves.lean ====
section
/-! SUPPORT. What one step can do, said once: `Moves s n t m` says that `t` comes from `s` by the updates the model makes, each
with the condition under which the model makes it. `n` and `m` count the places of the reservation count that are granted and
not yet taken up, or left by a record whose as-run record has not been handed over yet (R167). An invariant holds after every
step once each constructor keeps it. -/

namespace Sys2Proof.Machine

/-- An insertion record is changed in none of the fields that the accounts, the reservation count and the expiries rest on. -/
structure InsertionRecord.Alike (r r' : InsertionRecord) : Prop where
  state : r'.state = r.state
  service : r'.service = r.service
  closeExpiry : r'.closeExpiry = r.closeExpiry
  inserted : r'.inserted = r.inserted
  aired : r'.aired = r.aired
  lost : r'.lost = r.lost
  outstanding : r'.outstanding = r.outstanding

/-- The same for an alert entry. -/
structure AlertEntry.Alike (e e' : AlertEntry) : Prop where
  state : e'.state = e.state
  closeExpiry : e'.closeExpiry = e.closeExpiry
  durationExpiry : e'.durationExpiry = e.durationExpiry
  inserted : e'.inserted = e.inserted
  aired : e'.aired = e.aired
  lost : e'.lost = e.lost
  outstanding : e'.outstanding = e.outstanding

/-- What leaveActive does to the splice fields of a service (R110). -/
def SpliceFields.left (f : SpliceFields) : SpliceFields := { f with current := none, runQueue := [], roleMap := [] }

/-- What entryClosing does to an entry (R133). -/
def AlertEntry.closing (e : AlertEntry) (now expiry : StationTime) : AlertEntry :=
  { e with state := .closing, endTime := some now, closeExpiry := some expiry, durationExpiry := none }

/-- The updates that the model makes. -/
inductive Moves : State → Nat → State → Nat → Prop
  | refl (s : State) (n : Nat) : Moves s n s n
  | trans {s t u : State} {n m k : Nat} : Moves s n t m → Moves t m u k → Moves s n u k
  /-- The Path Unit, but for its Window Table. -/
  | path (s : State) (n : Nat) (f : PathUnit → PathUnit) (h : (f s.path).windows = s.path.windows) :
      Moves s n (s.onPath f) n
  | windowSet (s : State) (n : Nat) (i : Fin 16) (e : WindowEntry) (known : Bool) (range : e.InRange)
      (accepted : s.windowRefusal i e known = none) :
      Moves s n (s.onPath fun p => { p with windows := p.windows.set i e }) n
  | viewsDropped (s : State) (n : Nat) (i : Fin 16) :
      Moves s n (s.onPath fun p =>
        { p with windows := p.windows.map fun e => if e.source? = some i then .empty else e }) n
  | ingest (s : State) (n : Nat) (f : IngestParser → IngestParser) : Moves s n (s.onIngest f) n
  | slots (s : State) (n : Nat) (f : SlotTable → SlotTable) : Moves s n (s.onSlots f) n
  | ports (s : State) (n : Nat) (e : PortEvent) : Moves s n (s.emit e) n
  | chosen (s : State) (n k : Nat) : Moves s n { s with free := k } n
  | time (s : State) (n : Nat) (now : StationTime) : Moves s n { s with clock := now } n
  | pending (s : State) (n : Nat) (q : List Instr) : Moves s n (s.withPending q) n
  | clockKept (s : State) (n : Nat) (i : Fin 64) (old c : Clock) (h : s.timebase.clocks[i] = some old)
      (p : c.p = old.p ∨ (pLow ≤ c.p ∧ c.p ≤ pHigh)) : Moves s n (s.setClock i (some c)) n
  | clockStarts (s : State) (n : Nat) (i : Fin 64) (w : Fin 16) :
      Moves s n (s.setClock i (some (Clock.start (rateOf s.path.windows[w])))) n
  | clockEnds (s : State) (n : Nat) (i : Fin 64) : Moves s n (s.setClock i none) n
  /-- The Cue Unit, but for the ring's shadow. -/
  | cue (s : State) (n : Nat) (f : CueUnit → CueUnit)
      (h : (f s.cue).ring.map CueRing.shadow = s.cue.ring.map CueRing.shadow) : Moves s n (s.onCue f) n
  | ringWritten (s : State) (n offset : Nat) (data : BeatData) (enables : Enables) :
      Moves s n (s.onCue fun u => { u with ring := u.ring.map fun r => r.write offset data enables }) n
  | ringSetUp (s : State) (n : Nat) (r : CueRing) (h : r.shadow = []) :
      Moves s n (s.onCue fun u => { u with ring := some r }) n
  | ringDropped (s : State) (n : Nat) : Moves s n (s.onCue fun u => { u with ring := none }) n
  /-- The Splice Engine, but for its records; a current record may go. -/
  | splice (s : State) (n : Nat) (f : SpliceEngine → SpliceEngine) (records : (f s.splice).records = s.splice.records)
      (current : ∀ (i : Fin 64) (r : Fin 68), (f s.splice).services[i].current = some r →
        s.splice.services[i].current = some r) : Moves s n (s.onSplice f) n
  | record (s : State) (n : Nat) (i : Fin 68) (f : InsertionRecord → InsertionRecord)
      (h : s.splice.records[i].Alike (f s.splice.records[i])) : Moves s n (s.onRecord i f) n
  | recordWritten (s : State) (n : Nat) (i : Fin 68) :
      Moves s n (s.onRecord i fun x => { x with inserted := x.inserted + 1, outstanding := x.outstanding + 1 }) n
  | recordNoticed (s : State) (n : Nat) (i : Fin 68) (aired : Bool) :
      Moves s n (s.onRecord i fun r => r.noticed aired) n
  | recordStarts (s : State) (n : Nat) (i : Fin 68) (f : InsertionRecord → InsertionRecord)
      (isFree : s.splice.records[i].state = .free) (state : (f s.splice.records[i]).state = .active)
      (expiry : (f s.splice.records[i]).closeExpiry = none) (balanced : (f s.splice.records[i]).Balanced) :
      Moves s (n + 1) (s.onRecord i f) n
  | takesCurrent (s : State) (n : Nat) (i : Fin 64) (r : Fin 68) (f : SpliceFields → SpliceFields)
      (state : s.splice.records[r].state = .active) (service : s.splice.records[r].service = i)
      (current : (f s.splice.services[i]).current = some r) : Moves s n (s.onFields i f) n
  | recordLeaves (s : State) (n : Nat) (i : Fin 64) (r : Fin 68) (now expiry : StationTime) (tReturn : Option Time90)
      (current : s.splice.services[i].current = some r) :
      Moves s n ((s.onRecord r fun x => x.closing now expiry tReturn).onFields s.splice.records[r].service
        SpliceFields.left) n
  | recordFrees (s : State) (n : Nat) (r : Fin 68) (unconfirmed : Count32)
      (h : s.splice.records[r].state = .closing ∨ s.splice.records[r].closeExpiry.isSome) :
      Moves s n (s.onRecord r fun x => { x with unconfirmed := unconfirmed }.freed) (n + 1)
  /-- The Alert Unit, but for its entries. -/
  | alert (s : State) (n : Nat) (f : AlertUnit → AlertUnit) (h : (f s.alert).entries = s.alert.entries) :
      Moves s n (s.onAlert f) n
  | entry (s : State) (n : Nat) (i : Fin 4) (f : AlertEntry → AlertEntry)
      (h : s.alert.entries[i].Alike (f s.alert.entries[i])) : Moves s n (s.onEntry i f) n
  | entryWritten (s : State) (n : Nat) (i : Fin 4) :
      Moves s n (s.onEntry i fun x => { x with inserted := x.inserted + 1, outstanding := x.outstanding + 1 }) n
  | entryNoticed (s : State) (n : Nat) (i : Fin 4) (service : Fin 64) (aired : Bool) :
      Moves s n (s.onEntry i fun e => e.noticed service aired) n
  | entryStarts (s : State) (n : Nat) (i : Fin 4) (f : AlertEntry → AlertEntry)
      (isFree : s.alert.entries[i].state = .free) (state : (f s.alert.entries[i]).state = .active)
      (expiry : (f s.alert.entries[i]).closeExpiry = none) (balanced : (f s.alert.entries[i]).Balanced) :
      Moves s (n + 1) (s.onEntry i f) n
  | entryEnds (s : State) (n : Nat) (i : Fin 4) (reason : AlertEnd)
      (h : s.alert.entries[i].state = .active ∨ s.alert.entries[i].durationExpiry.isSome) :
      Moves s n (s.onEntry i fun e =>
        { e with state := .ending, endReason := some reason, durationExpiry := none }) n
  | entryLeaves (s : State) (n : Nat) (i : Fin 4) (now expiry : StationTime)
      (h : s.alert.entries[i].state = .active ∨ s.alert.entries[i].state = .ending) :
      Moves s n (s.onEntry i fun e => e.closing now expiry) n
  | entryFrees (s : State) (n : Nat) (i : Fin 4) (unconfirmed : Count32)
      (h : s.alert.entries[i].state = .closing ∨ s.alert.entries[i].closeExpiry.isSome) :
      Moves s n (s.onEntry i fun x => { x with unconfirmed := unconfirmed }.freed) (n + 1)
  /-- The Content Unit, but for the definitions. -/
  | content (s : State) (n : Nat) (f : ContentUnit → ContentUnit)
      (h : ∀ c : Fin 128, (f s.content).entries[c].definition = s.content.entries[c].definition) :
      Moves s n (s.onContent f) n
  | contentDefined (s : State) (n : Nat) (c : Fin 128) (d : ContentDef) (queue : List (Fin 128))
      (h : s.regionInWindow d = false) :
      Moves s n (s.onContent fun u =>
        { u with scanQueue := queue, entries := u.entries.set c { state := .queued, definition := some d } }) n
  | contentFreed (s : State) (n : Nat) (c : Fin 128) (queue : List (Fin 128)) :
      Moves s n (s.onContent fun u => { u with scanQueue := queue, entries := u.entries.set c {} }) n
  /-- The Report Unit, but for its queue and its reservation count. -/
  | report (s : State) (n : Nat) (f : ReportUnit → ReportUnit) (queue : (f s.report).queue = s.report.queue)
      (reservation : (f s.report).reservation = s.report.reservation) : Moves s n (s.onReport f) n
  | reserves (s : State) (n : Nat) (h : s.report.reservation < Config.alertRoom) : Moves s n s.reserve (n + 1)
  | unreserves (s : State) (n : Nat) : Moves s (n + 1) s.unreserve n
  | producesGeneral (s : State) (n : Nat) (b : ReportBody) (h : b.isAsRun = false) : Moves s n (s.produce b) n
  | producesAsRun (s : State) (n : Nat) (b : ReportBody) (h : b.isAsRun = true) : Moves s (n + 1) (s.produce b) n
  | recordWriteEnds (s : State) (n : Nat) (ring : ReportRing) (dropped : Nat) :
      Moves s n (s.onReport fun u => u.recordWritten ring dropped) n
  /-- The Fault Unit, but for the part state and its holds. -/
  | fault (s : State) (n : Nat) (f : FaultUnit → FaultUnit) (part : (f s.fault).part = s.fault.part)
      (pin : (f s.fault).pinHold = s.fault.pinHold) (latch : (f s.fault).latch = s.fault.latch) :
      Moves s n (s.onFault f) n
  | latched (s : State) (n : Nat) (cause : LatchCause) (h : s.fault.part ≠ .operating) :
      Moves s n (s.onFault fun u => u.setLatch cause) n
  | latchedOut (s : State) (n : Nat) (cause : LatchCause) (h : s.resetHeld = false) :
      Moves s n (s.onFault fun u => { u.setLatch cause with part := .bypass }) n
  | pinOut (s : State) (n : Nat) (h : s.resetHeld = false) :
      Moves s n (s.onFault fun u => { u with pinHold := true, part := .bypass }) n
  | pinKept (s : State) (n : Nat) (h : s.fault.part ≠ .operating) :
      Moves s n (s.onFault fun u => { u with pinHold := true }) n
  | pinInReset (s : State) (n : Nat) (level : Bool) (h : s.resetHeld = true) :
      Moves s n (s.onFault fun u => { u with pinHold := level }) n
  | pinCleared (s : State) (n : Nat) (h : s.resetHeld = false) :
      Moves s n (s.onFault fun u => { u with pinHold := false }).returnIfClear n
  | resumed (s : State) (n : Nat) (h : s.resetHeld = false) :
      Moves s n (s.onFault FaultUnit.resumeLatch).returnIfClear n
  | starts (s : State) (n : Nat) (h : s.resetHeld = false) :
      Moves s n (s.onFault fun u => { u with part := u.enters }) n
  | released (s : State) (n : Nat) : Moves s n { s with resetHeld := false } n
  | releasedAside (s : State) (n : Nat) (m : StartMode) (h : s.resetHeld = true) :
      Moves s n ((({ s with resetHeld := false } : State).onLoader fun u => { u with mode := some m }).onFault fun u =>
        u.setLatch .transparent) n
  | limits (s : State) (n : Nat) (r : LimitsRec) : Moves s n (s.onLimits fun l => l.apply r) n
  /-- The loader, but for the boot shadow, which may be dropped. -/
  | loader (s : State) (n : Nat) (f : StartLoader → StartLoader)
      (h : ∀ b, (f s.loader).boot = some b → ∃ b', s.loader.boot = some b' ∧ b.shadow = b'.shadow) :
      Moves s n (s.onLoader f) n
  | bootWritten (s : State) (n address : Nat) (data : BeatData) (enables : Enables) :
      Moves s n (s.onLoader fun u => { u with boot := u.boot.map fun b => b.write address data enables }) n
  | bootStarts (s : State) (n : Nat) (f : StartLoader → StartLoader) (h : (f s.loader).boot = some {}) :
      Moves s n (s.onLoader f) n

/-- A move never asserts RESET_N. -/
theorem Moves.out {s t : State} {n m : Nat} (h : Moves s n t m) (o : s.resetHeld = false) : t.resetHeld = false := by
  induction h with
  | trans _ _ ih1 ih2 => exact ih2 (ih1 o)
  | pinCleared s n _ => unfold State.returnIfClear; split <;> exact o
  | resumed s n _ => unfold State.returnIfClear; split <;> exact o
  | released s n => rfl
  | releasedAside s n m _ => rfl
  | _ => exact o

/-- `s` comes from `s0` by moves, and RESET_N is released. -/
structure Run (s0 : State) (n : Nat) (s : State) (m : Nat) : Prop where
  moves : Moves s0 n s m
  out : s.resetHeld = false

theorem Run.next {s0 s t : State} {n m k : Nat} (h : Run s0 n s m) (mv : Moves s m t k) : Run s0 n t k :=
  ⟨h.moves.trans mv, mv.out h.out⟩

end Sys2Proof.Machine
end

