-- ==== Sys2Proof/Laws/PerInstr.lean ====
section
/-! SUPPORT. Statements about the commands as syntax, one lemma for each constructor. -/

namespace Sys2Proof.Laws

/-- The opcode table gives the command no bits: no word of any length spells it (DEDUCED, log 27). -/
def NoWord.Statement (c : Instr) : Prop := ∀ nbits w : Nat, decodeTableWord nbits w ≠ some c

theorem noWord (c : Instr) : NoWord.Statement c := nofun

theorem NoWord.resetNAssert :
    NoWord.Statement (.resetNAssert) := noWord _
theorem NoWord.resetNRelease (mode1 mode0 : Bool) :
    NoWord.Statement (.resetNRelease mode1 mode0) := noWord _
theorem NoWord.bypassNAssert :
    NoWord.Statement (.bypassNAssert) := noWord _
theorem NoWord.bypassNRelease :
    NoWord.Statement (.bypassNRelease) := noWord _
theorem NoWord.processorWriteBeat (beat : BeatAddr) (data : BeatData) (enables : Enables) (last : Bool) :
    NoWord.Statement (.processorWriteBeat beat data enables last) := noWord _
theorem NoWord.passThroughRead (tag : Nat) (beat : BeatAddr) (more : Fin 16) :
    NoWord.Statement (.passThroughRead tag beat more) := noWord _
theorem NoWord.viewRead (tag : Nat) (beat : BeatAddr) (more : Fin 16) :
    NoWord.Statement (.viewRead tag beat more) := noWord _
theorem NoWord.forwardedWriteResponse (run : Nat) (ok : Bool) :
    NoWord.Statement (.forwardedWriteResponse run ok) := noWord _
theorem NoWord.passThroughReadData (tag : Fin 32) (data : BeatData) (ok : Bool) :
    NoWord.Statement (.passThroughReadData tag data ok) := noWord _
theorem NoWord.stagingSlotReadData (tag : Fin 32) (beats : List MemBeat) :
    NoWord.Statement (.stagingSlotReadData tag beats) := noWord _
theorem NoWord.viewPrefixReadData (tag : Fin 32) (data : BeatData) (ok : Bool) :
    NoWord.Statement (.viewPrefixReadData tag data ok) := noWord _
theorem NoWord.prefetchDataArrival (tag : Fin 32) (beats : List MemBeat) :
    NoWord.Statement (.prefetchDataArrival tag beats) := noWord _
theorem NoWord.demandDataArrival (tag : Fin 32) (beats : List MemBeat) :
    NoWord.Statement (.demandDataArrival tag beats) := noWord _
theorem NoWord.headerReadData (tag : Fin 32) (beats : List MemBeat) :
    NoWord.Statement (.headerReadData tag beats) := noWord _
theorem NoWord.scanReadData (tag : Fin 32) (beats : List MemBeat) :
    NoWord.Statement (.scanReadData tag beats) := noWord _
theorem NoWord.reportRecordWriteResponse (write : Nat) (ok : Bool) :
    NoWord.Statement (.reportRecordWriteResponse write ok) := noWord _
theorem NoWord.reportHeaderWriteResponse (write : Nat) (ok : Bool) :
    NoWord.Statement (.reportHeaderWriteResponse write ok) := noWord _
theorem NoWord.arbiterGrant (tag : Fin 32) :
    NoWord.Statement (.arbiterGrant tag) := noWord _
theorem NoWord.eepromRecordRead (result : EepromRead) :
    NoWord.Statement (.eepromRecordRead result) := noWord _
theorem NoWord.silenceExpiry (service : Fin 64) :
    NoWord.Statement (.silenceExpiry service) := noWord _
theorem NoWord.insertionCloseExpiry (index : Fin 68) :
    NoWord.Statement (.insertionCloseExpiry index) := noWord _
theorem NoWord.returningStationBound (index : Fin 68) :
    NoWord.Statement (.returningStationBound index) := noWord _
theorem NoWord.alertStationBound (service : Fin 64) :
    NoWord.Statement (.alertStationBound service) := noWord _
theorem NoWord.fetchDeadline (buffer : Fin 8) :
    NoWord.Statement (.fetchDeadline buffer) := noWord _
theorem NoWord.alertDurationExpiry (entry : Fin 4) :
    NoWord.Statement (.alertDurationExpiry entry) := noWord _
theorem NoWord.alertCloseExpiry (entry : Fin 4) :
    NoWord.Statement (.alertCloseExpiry entry) := noWord _
theorem NoWord.holdoffExpiry (kind : ErrorKind) (index : Fin 64) :
    NoWord.Statement (.holdoffExpiry kind index) := noWord _
theorem NoWord.spliceAtTime (ref : CueRef) (body : SpliceBody) :
    NoWord.Statement (.spliceAtTime ref body) := noWord _
theorem NoWord.spliceAtMark (ref : CueRef) (body : SpliceBody) :
    NoWord.Statement (.spliceAtMark ref body) := noWord _
theorem NoWord.cancel (ref : CueRef) (service : Byte) (cueId : BitVec 32) :
    NoWord.Statement (.cancel ref service cueId) := noWord _
theorem NoWord.flushService (ref : CueRef) (service : Byte) :
    NoWord.Statement (.flushService ref service) := noWord _
theorem NoWord.returnNow (ref : CueRef) (service : Byte) :
    NoWord.Statement (.returnNow ref service) := noWord _
theorem NoWord.alertStart (ref : CueRef) (body : AlertBody) :
    NoWord.Statement (.alertStart ref body) := noWord _
theorem NoWord.alertEnd (ref : CueRef) (alertId : BitVec 16) :
    NoWord.Statement (.alertEnd ref alertId) := noWord _
theorem NoWord.contentDefine (ref : CueRef) (body : DefineBody) :
    NoWord.Statement (.contentDefine ref body) := noWord _
theorem NoWord.contentRelease (ref : CueRef) (content : Byte) :
    NoWord.Statement (.contentRelease ref content) := noWord _
theorem NoWord.window (origin : Origin) (record : WindowRec) :
    NoWord.Statement (.window origin record) := noWord _
theorem NoWord.service (origin : Origin) (record : ServiceRec) :
    NoWord.Statement (.service origin record) := noWord _
theorem NoWord.group (origin : Origin) (record : GroupRec) :
    NoWord.Statement (.group origin record) := noWord _
theorem NoWord.arbiter (origin : Origin) (record : ArbiterRec) :
    NoWord.Statement (.arbiter origin record) := noWord _
theorem NoWord.limits (origin : Origin) (record : LimitsRec) :
    NoWord.Statement (.limits origin record) := noWord _
theorem NoWord.policy (origin : Origin) (record : PolicyRec) :
    NoWord.Statement (.policy origin record) := noWord _
theorem NoWord.applyStaged (ref : CueRef) (groups arbiter : Bool) :
    NoWord.Statement (.applyStaged ref groups arbiter) := noWord _
theorem NoWord.ackError (ref : CueRef) :
    NoWord.Statement (.ackError ref) := noWord _
theorem NoWord.bypass (ref : CueRef) :
    NoWord.Statement (.bypass ref) := noWord _
theorem NoWord.resume (ref : CueRef) :
    NoWord.Statement (.resume ref) := noWord _

end Sys2Proof.Laws
end

