-- ==== Sys2Proof/Laws/Walk.lean ====
section
/-! SUPPORT. Every operation of the model is made of moves (`Moves`), operation by operation. A lemma `walk_f` says: what
reached `s` by moves reaches `f s` by moves. -/

namespace Sys2Proof.Machine

-- One after another: in the package as one text too many proofs would else wait on one another at once.
set_option Elab.async false

variable {s0 s : State} {n m : Nat}

/-! ## Report Unit -/

theorem walk_produce (h : Run s0 n s (m + asRuns [b])) : Run s0 n (s.produce b) m := by
  by_cases hb : b.isAsRun
  · have e : asRuns [b] = 1 := by simp [asRuns, hb]
    rw [e] at h; exact h.next (.producesAsRun s m b hb)
  · have hb : b.isAsRun = false := by simpa using hb
    have e : asRuns [b] = 0 := by simp [asRuns, hb]
    rw [e] at h; exact h.next (.producesGeneral s m b hb)

theorem walk_general (h : Run s0 n s m) (b : ReportBody) (hb : b.isAsRun = false := by rfl) :
    Run s0 n (s.produce b) m := h.next (.producesGeneral s m b hb)

theorem asRuns_cons (b : ReportBody) (l : List ReportBody) : asRuns (b :: l) = asRuns [b] + asRuns l := by
  simp [asRuns, List.countP_cons]; omega

theorem asRuns_append (a b : List ReportBody) : asRuns (a ++ b) = asRuns a + asRuns b := by simp [asRuns]

theorem walk_produceAll (l : List ReportBody) {s : State} (h : Run s0 n s (m + asRuns l)) : Run s0 n (s.produceAll l) m := by
  induction l generalizing s with
  | nil => exact h
  | cons b l ih =>
    rw [asRuns_cons] at h
    exact ih (walk_produce (m := m + asRuns l) (by rwa [show m + asRuns l + asRuns [b] = m + (asRuns [b] + asRuns l) by omega]))

theorem walk_producing {p : State × List ReportBody} (h : Run s0 n p.1 (m + asRuns p.2)) :
    Run s0 n (State.producing p) m := walk_produceAll p.2 h

theorem walk_report (h : Run s0 n s m) (f : ReportUnit → ReportUnit) (q : (f s.report).queue = s.report.queue := by rfl)
    (r : (f s.report).reservation = s.report.reservation := by rfl) : Run s0 n (s.onReport f) m := h.next (.report s m f q r)

theorem walk_reserve (h : Run s0 n s m) (r : s.report.reservation < Config.alertRoom) : Run s0 n s.reserve (m + 1) :=
  h.next (.reserves s m r)

theorem walk_unreserve (h : Run s0 n s (m + 1)) : Run s0 n s.unreserve m := h.next (.unreserves s m)

theorem walk_handCueTaken (h : Run s0 n s m) (c : Count32) : Run s0 n (s.handCueTaken c) m := walk_report h _

theorem issueWrite_queue (u : ReportUnit) (base records : Nat) :
    (u.issueWrite base records).queue = u.queue ∧ (u.issueWrite base records).reservation = u.reservation := by
  unfold ReportUnit.issueWrite
  split
  · exact ⟨rfl, rfl⟩
  · split
    · exact ⟨rfl, rfl⟩
    · split
      · exact ⟨rfl, rfl⟩
      · split
        · simp_all
        · split <;> simp_all [ReportUnit.issue]

theorem walk_issueWrite (h : Run s0 n s m) : Run s0 n s.issueWrite m := by
  unfold State.issueWrite
  split
  · exact h
  · exact walk_report h _ (issueWrite_queue _ _ _).1 (issueWrite_queue _ _ _).2

theorem walk_setAttn (h : Run s0 n s m) : Run s0 n s.setAttn m := walk_report h fun u => { u with attn := s.attnCause }

theorem walk_epilogue (h : Run s0 n s m) : Run s0 n s.epilogue m := walk_setAttn (walk_issueWrite h)

theorem walk_handError (h : Run s0 n s m) (e : ErrorReport) : Run s0 n (s.handError e) m := by
  unfold State.handError
  dsimp only
  split
  · exact walk_report (walk_general h _) _
  · exact walk_report (walk_general h _) _
  · exact walk_report h _

/-! ## Single updates of the other blocks -/

theorem walk_path (h : Run s0 n s m) (f : PathUnit → PathUnit) (w : (f s.path).windows = s.path.windows := by rfl) :
    Run s0 n (s.onPath f) m := h.next (.path s m f w)

theorem walk_ingest (h : Run s0 n s m) (f : IngestParser → IngestParser) : Run s0 n (s.onIngest f) m :=
  h.next (.ingest s m f)

theorem walk_slots (h : Run s0 n s m) (f : SlotTable → SlotTable) : Run s0 n (s.onSlots f) m := h.next (.slots s m f)

theorem walk_emit (h : Run s0 n s m) (e : PortEvent) : Run s0 n (s.emit e) m := h.next (.ports s m e)

theorem walk_onSlot (h : Run s0 n s m) (w : Fin 16) (slot : Nat) (f : SlotRecord → SlotRecord) :
    Run s0 n (s.onSlot w slot f) m := walk_slots h _

theorem walk_cue (h : Run s0 n s m) (f : CueUnit → CueUnit)
    (r : (f s.cue).ring.map CueRing.shadow = s.cue.ring.map CueRing.shadow := by rfl) : Run s0 n (s.onCue f) m :=
  h.next (.cue s m f r)

theorem walk_onQueue (h : Run s0 n s m) (i : Fin 64) (f : List QueueEntry → List QueueEntry) : Run s0 n (s.onQueue i f) m :=
  walk_cue h _

theorem walk_onFields (h : Run s0 n s m) (i : Fin 64) (f : SpliceFields → SpliceFields)
    (c : ∀ (x : SpliceFields) (r : Fin 68), (f x).current = some r → x.current = some r := by exact fun _ _ h => h) :
    Run s0 n (s.onFields i f) m := by
  refine h.next (.splice s m _ rfl fun j r hj => ?_)
  simp only [modifyAt_fin] at hj
  split at hj
  · next e => subst e; exact c _ r hj
  · exact hj

theorem walk_onRecord (h : Run s0 n s m) (i : Fin 68) (f : InsertionRecord → InsertionRecord)
    (a : s.splice.records[i].Alike (f s.splice.records[i]) := by exact ⟨rfl, rfl, rfl, rfl, rfl, rfl, rfl⟩) :
    Run s0 n (s.onRecord i f) m := h.next (.record s m i f a)

theorem walk_onEntry (h : Run s0 n s m) (i : Fin 4) (f : AlertEntry → AlertEntry)
    (a : s.alert.entries[i].Alike (f s.alert.entries[i]) := by exact ⟨rfl, rfl, rfl, rfl, rfl, rfl, rfl⟩) :
    Run s0 n (s.onEntry i f) m := h.next (.entry s m i f a)

theorem walk_alert (h : Run s0 n s m) (f : AlertUnit → AlertUnit) (e : (f s.alert).entries = s.alert.entries := by rfl) :
    Run s0 n (s.onAlert f) m := h.next (.alert s m f e)

theorem walk_content (h : Run s0 n s m) (f : ContentUnit → ContentUnit)
    (d : ∀ c : Fin 128, (f s.content).entries[c].definition = s.content.entries[c].definition := by exact fun _ => rfl) :
    Run s0 n (s.onContent f) m := h.next (.content s m f d)

theorem walk_onContentEntry (h : Run s0 n s m) (c : Fin 128) (f : ContentEntry → ContentEntry)
    (d : (f s.content.entries[c]).definition = s.content.entries[c].definition := by rfl) :
    Run s0 n (s.onContentEntry c f) m := by
  refine walk_content h _ fun j => ?_
  simp only [modifyAt_fin]
  split
  · next e => subst e; exact d
  · rfl

theorem walk_fault (h : Run s0 n s m) (f : FaultUnit → FaultUnit) (p : (f s.fault).part = s.fault.part := by rfl)
    (i : (f s.fault).pinHold = s.fault.pinHold := by rfl) (l : (f s.fault).latch = s.fault.latch := by rfl) :
    Run s0 n (s.onFault f) m := h.next (.fault s m f p i l)

theorem walk_loader (h : Run s0 n s m) (f : StartLoader → StartLoader)
    (b : ∀ b, (f s.loader).boot = some b → ∃ b', s.loader.boot = some b' ∧ b.shadow = b'.shadow := by
      exact fun b h => ⟨b, h, rfl⟩) : Run s0 n (s.onLoader f) m := h.next (.loader s m f b)

/-! ## Content Unit -/

theorem walk_hold (h : Run s0 n s m) (c : Fin 128) : Run s0 n (s.hold c) m := walk_onContentEntry h c _

theorem walk_releaseHold (h : Run s0 n s m) (c : Fin 128) : Run s0 n (s.releaseHold c) m := walk_onContentEntry h c _

theorem startScan_definition (u : ContentUnit) (c : Fin 128) :
    u.startScan.entries[c].definition = u.entries[c].definition := by
  unfold ContentUnit.startScan
  split
  · simp only [modifyAt_fin]; split <;> rfl
  · rfl

theorem walk_startScan (h : Run s0 n s m) : Run s0 n s.startScan m := walk_content h _ fun _ => startScan_definition _ _

theorem walk_requestFetch (h : Run s0 n s m) (r : MemRead) : Run s0 n (s.requestFetch r) m := walk_path h _

theorem walk_allocatePrefetch (h : Run s0 n s m) (o : Owner) (t : FetchTarget) : Run s0 n (s.allocatePrefetch o t).1 m := by
  unfold State.allocatePrefetch
  split
  · exact walk_requestFetch (walk_content h _) _
  · exact h

theorem walk_releasePrefetch (h : Run s0 n s m) (b : Fin 256) (o : Owner) : Run s0 n (s.releasePrefetch b o) m := by
  refine walk_content h _ fun c => ?_
  split <;> rfl

theorem walk_setStaging (h : Run s0 n s m) (b : Fin 8) (u : Option StagingUse) : Run s0 n (s.setStaging b u) m :=
  walk_path h _

theorem walk_setWait (h : Run s0 n s m) (b : Fin 8) (w : StagingWait) : Run s0 n (s.setWait b w) m := by
  unfold State.setWait
  split
  · exact walk_setStaging h _ _
  · exact h

theorem walk_giveDemand (h : Run s0 n s m) (d : Fin 4) (b : Fin 8) (t : FetchTarget) : Run s0 n (s.giveDemand d b t) m :=
  walk_setWait (walk_path (walk_content h _) _) _ _

theorem walk_requestDemand (h : Run s0 n s m) (b : Fin 8) (t : FetchTarget) : Run s0 n (s.requestDemand b t) m := by
  unfold State.requestDemand
  split
  · exact walk_giveDemand h _ _ _
  · exact walk_setWait (walk_content h _) _ _

theorem walk_serveDemandWait (h : Run s0 n s m) : Run s0 n s.serveDemandWait m := by
  unfold State.serveDemandWait
  split
  · exact walk_giveDemand (walk_content h _) _ _ _
  · exact h

theorem walk_letGoDemand (h : Run s0 n s m) (b : Fin 8) (w : StagingWait) : Run s0 n (s.letGoDemand b w) m := by
  unfold State.letGoDemand
  split
  · exact walk_content h _
  · exact walk_serveDemandWait (walk_content h _)
  all_goals exact h

/-! ## Closing (05, 5.8; 06, 6.6) -/

theorem walk_closeRecord (h : Run s0 n s m) (i : Fin 68) (u : Count32)
    (c : s.splice.records[i].state = .closing ∨ s.splice.records[i].closeExpiry.isSome) :
    Run s0 n (s.closeRecord i u).1 (m + asRuns (s.closeRecord i u).2) := by
  have e : s.onRecord i (fun _ => { s.splice.records[i] with unconfirmed := u }.freed)
      = s.onRecord i fun x => { x with unconfirmed := u }.freed := rfl
  exact walk_releaseHold (e ▸ h.next (.recordFrees s m i u c)) _

theorem walk_leaveActive (h : Run s0 n s m) (i : Fin 68) (t : Option Time90) (j : Fin 64)
    (c : s.splice.services[j].current = some i) :
    Run s0 n (s.leaveActive i t).1 (m + asRuns (s.leaveActive i t).2) := by
  have l := h.next (.recordLeaves s m j i s.clock (after s.clock s.closeTicks) t c)
  unfold State.leaveActive
  dsimp only
  split
  · exact walk_closeRecord l _ _ (by simp [InsertionRecord.closing])
  · exact l

theorem walk_cutShort (h : Run s0 n s m) (i : Fin 68) (reason : EndReason) (j : Fin 64)
    (c : s.splice.services[j].current = some i) :
    Run s0 n (s.cutShort i reason).1 (m + asRuns (s.cutShort i reason).2) :=
  walk_leaveActive (walk_onRecord h i _) i none j c

theorem walk_recordNotice (h : Run s0 n s m) (i : Fin 68) (g : Generation) (a : Bool) : Run s0 n (s.recordNotice i g a) m := by
  unfold State.recordNotice
  split
  · have l := h.next (.recordNoticed s m i a)
    dsimp only
    split
    · next e => exact walk_producing (walk_closeRecord l _ _ (.inl e.1))
    · exact l
  · exact h

theorem walk_closeEntry (h : Run s0 n s m) (i : Fin 4) (u : Count32)
    (c : s.alert.entries[i].state = .closing ∨ s.alert.entries[i].closeExpiry.isSome) :
    Run s0 n (s.closeEntry i u).1 (m + asRuns (s.closeEntry i u).2) := by
  have e : s.onEntry i (fun _ => { s.alert.entries[i] with unconfirmed := u }.freed)
      = s.onEntry i fun x => { x with unconfirmed := u }.freed := rfl
  exact walk_releaseHold (e ▸ h.next (.entryFrees s m i u c)) _

theorem walk_entryClosing (h : Run s0 n s m) (i : Fin 4)
    (c : s.alert.entries[i].state = .active ∨ s.alert.entries[i].state = .ending) :
    Run s0 n (s.entryClosing i).1 (m + asRuns (s.entryClosing i).2) := by
  have l := h.next (.entryLeaves s m i s.clock (after s.clock s.closeTicks) c)
  unfold State.entryClosing
  dsimp only
  split
  · exact walk_closeEntry l _ _ (by simp [AlertEntry.closing])
  · exact l

theorem walk_settleEntry (h : Run s0 n s m) (i : Fin 4) : Run s0 n (s.settleEntry i) m := by
  unfold State.settleEntry
  split
  · next e => exact walk_producing (walk_entryClosing h i (.inr e.1))
  · exact h

theorem walk_entryNotice (h : Run s0 n s m) (i : Fin 4) (g : Generation) (v : Fin 64) (a : Bool) :
    Run s0 n (s.entryNotice i g v a) m := by
  unfold State.entryNotice
  split
  · have l := h.next (.entryNoticed s m i v a)
    dsimp only
    split
    · next e => exact walk_producing (walk_closeEntry l _ _ (.inl e.1))
    · exact l
  · exact h

theorem walk_notice (h : Run s0 n s m) (x : Source) (a : Bool) : Run s0 n (s.notice x a) m := by
  cases x with
  | insertion i g => exact walk_recordNotice h i g a
  | alert e g v => exact walk_entryNotice h e g v a

theorem walk_discard (h : Run s0 n s m) (w : Fin 16) (slot : Nat) (g : Generation) (d : Disposition) :
    Run s0 n (s.discard w slot g d) m := by
  unfold State.discard
  split
  · dsimp only
    split
    · exact walk_releasePrefetch (walk_notice h _ _) _ _
    · exact walk_notice h _ _
  · exact h
  · exact h

end Sys2Proof.Machine
end

