-- ==== Sys2Proof/Laws/WalkSplice.lean ====
section
/-! SUPPORT. The walk through the clocks, the staging buffers, the cue queues, BYPASS, the error flags and the Splice Engine. -/

namespace Sys2Proof.Machine

-- One after another: in the package as one text too many proofs would else wait on one another at once.
set_option Elab.async false

variable {s0 s : State} {n m : Nat}

/-! ## Folds -/

/-- A fold of an operation that walks walks. -/
theorem walk_foldl {α : Type} (f : State → α → State) (l : List α) {s : State} (h : Run s0 n s m)
    (step : ∀ (s : State) (a : α), Run s0 n s m → Run s0 n (f s a) m) : Run s0 n (l.foldl f s) m := by
  induction l generalizing s with
  | nil => exact h
  | cons a l ih => exact ih (step s a h)

/-! ## Timebase Unit -/

theorem adjustP_range (p : Nat) (e : Int) (d k : Nat) : pLow ≤ adjustP p e d k ∧ adjustP p e d k ≤ pHigh := by
  unfold adjustP
  dsimp only
  split
  · exact ⟨le_refl _, by decide⟩
  · split
    · exact ⟨by decide, le_refl _⟩
    · omega

theorem sample_p (c : Clock) (x : Sample) : (c.sample x).1.p = c.p ∨ pLow ≤ (c.sample x).1.p ∧ (c.sample x).1.p ≤ pHigh := by
  have normal (x : Sample) (e : Int) (d : Nat) : pLow ≤ (c.normal x e d).1.p ∧ (c.normal x e d).1.p ≤ pHigh := by
    unfold Clock.normal
    dsimp only
    repeat' split
    all_goals exact adjustP_range _ _ _ _
  unfold Clock.sample
  split
  · dsimp only
    repeat' split
    all_goals first | exact .inl rfl | exact .inr (normal _ _ _)
  · dsimp only
    repeat' split
    all_goals first | exact .inl rfl | exact .inr (normal _ _ _)
  · exact .inl rfl

theorem walk_jumpNotice (h : Run s0 n s m) (i : Fin 64) : Run s0 n (s.jumpNotice i) m := by
  unfold State.jumpNotice
  split
  · exact walk_onRecord h _ _
  · exact h

theorem walk_handleSample (h : Run s0 n s m) (i : Fin 64) (x : Sample) : Run s0 n (s.handleSample i x) m := by
  unfold State.handleSample
  split
  · exact h
  · next c e =>
    have l := h.next (.clockKept s m i c ((c.sample x).1.stamp s.clock s.silenceTicks) e (sample_p c x))
    dsimp only
    split
    · exact l
    · split
      · exact walk_jumpNotice (walk_general l _) _
      · exact walk_general l _

theorem walk_silenceOccurs (h : Run s0 n s m) (i : Fin 64) : Run s0 n (s.silenceOccurs i) m := by
  unfold State.silenceOccurs
  split
  · exact h
  · next c e => exact walk_general (h.next (.clockKept s m i c c.silenced e (.inl rfl))) _

theorem walk_rearmSilence (h : Run s0 n s m) (i : Fin 64) : Run s0 n (s.rearmSilence i) m := by
  unfold State.rearmSilence
  split
  · exact h
  · next c e =>
    split
    · have l := fun x => h.next (.clockKept s m i c { c with silence := some x } e (.inl rfl))
      dsimp only
      split
      · exact walk_silenceOccurs (l _) _
      · exact l _
    · exact h

theorem walk_rearmAll (h : Run s0 n s m) : Run s0 n s.rearmAll m :=
  walk_foldl _ _ h fun _ _ h => walk_rearmSilence h _

/-! ## Staging buffers -/

theorem walk_mapSources (h : Run s0 n s m) (f : ByteSource → ByteSource) : Run s0 n (s.mapSources f) m := walk_path h _

theorem walk_freeStaging (h : Run s0 n s m) (b : Fin 8) : Run s0 n (s.freeStaging b) m := by
  unfold State.freeStaging
  split
  · exact walk_letGoDemand (walk_setStaging h _ _) _ _
  · exact h

theorem walk_voidStaging (h : Run s0 n s m) (b : Fin 8) : Run s0 n (s.voidStaging b) m := by
  unfold State.voidStaging
  split
  · exact walk_letGoDemand (walk_setStaging h _ _) _ _
  · exact h

theorem walk_dropVoid (h : Run s0 n s m) (b : Fin 8) : Run s0 n (s.dropVoid b) m := by
  unfold State.dropVoid
  split
  · split
    · exact walk_setStaging h _ _
    · exact h
  · exact h

theorem walk_dropVoids (h : Run s0 n s m) : Run s0 n s.dropVoids m := walk_foldl _ _ h fun _ _ h => walk_dropVoid h _

theorem walk_freeStagingOf (h : Run s0 n s m) (w : Fin 16) : Run s0 n (s.freeStagingOf w) m :=
  walk_mapSources (walk_foldl _ _ h fun _ _ h => walk_freeStaging h _) _

theorem readPieces_windows (p : PathUnit) (use : Nat → ReadUse) (a : List Nat) :
    (p.readPieces use a).1.windows = p.windows := rfl

theorem allFromMemory_windows (p : PathUnit) : p.allFromMemory.windows = p.windows := by
  have fold : ∀ (l : List ProcRead) (a : PathUnit × List ProcRead), (l.foldl (fun (acc : PathUnit × List ProcRead) r =>
      let (q, r') := acc.1.fromMemory r
      (q, acc.2 ++ [r'])) a).1.windows = a.1.windows := by
    intro l
    induction l with
    | nil => intro a; rfl
    | cons r l ih => intro a; exact ih _
  exact fold p.reads (p, [])

/-! ## Cue queues and header queues -/

theorem walk_joinHeader (h : Run s0 n s m) (i : Fin 64) (standby : Bool) (c : Fin 128) (k : Nat) :
    Run s0 n (s.joinHeader i standby c k) m := by
  unfold State.joinHeader
  dsimp only
  refine walk_onFields ?_ _ _ ?_
  · exact (walk_requestFetch h _).next (.splice _ _ _ rfl fun _ _ h => h)
  · intro x r hr
    split at hr <;> exact hr

theorem walk_fillHeaders (h : Run s0 n s m) (i : Fin 64) (standby : Bool) (c : Fin 128) :
    Run s0 n (s.fillHeaders i standby c) m := walk_foldl _ _ h fun _ _ h => walk_joinHeader h _ _ _ _

theorem walk_armNotice (h : Run s0 n s m) (i : Fin 64) (c : SpliceCue) : Run s0 n (s.armNotice i c) m :=
  walk_fillHeaders (walk_onFields h _ _) _ _ _

theorem walk_endTest (h : Run s0 n s m) (i : Fin 64) : Run s0 n (s.endTest i) m := walk_onFields h _ _

theorem walk_armHead (fuel : Nat) {s : State} (h : Run s0 n s m) (i : Fin 64) : Run s0 n (s.armHead fuel i) m := by
  induction fuel generalizing s with
  | zero => exact h
  | succ fuel ih =>
    unfold State.armHead
    split
    · exact h
    · split
      · have l (e : QueueEntry) (rest : List QueueEntry) (c : SpliceCue) :=
          walk_armNotice (walk_onQueue (walk_hold h c.content) i fun _ => e :: rest) i c
        dsimp only
        split
        · exact ih (walk_general (walk_releaseHold (walk_onQueue (walk_endTest (l _ _ _) _) _ _) _) _)
        · exact l _ _ _
      · exact walk_onQueue h _ _
      · exact walk_onQueue h _ _
      · exact ih (walk_general (walk_onQueue h _ _) _)
      · exact ih (walk_general (walk_onQueue h _ _) _)

theorem walk_arm (h : Run s0 n s m) (i : Fin 64) : Run s0 n (s.arm i) m := walk_armHead _ h _

theorem walk_missHead (h : Run s0 n s m) (i : Fin 64) (x : Miss) : Run s0 n (s.missHead i x) m := by
  unfold State.missHead
  split
  · exact h
  · exact walk_arm (walk_general (walk_releaseHold (walk_onQueue (walk_endTest h _) _ _) _) _) _

theorem walk_fireHead (h : Run s0 n s m) (i : Fin 64) : Run s0 n (s.fireHead i) m := walk_arm (walk_onQueue h _ _) _

theorem walk_dropEntry (h : Run s0 n s m) (i : Fin 64) (e : QueueEntry) : Run s0 n (s.dropEntry i e) m := by
  unfold State.dropEntry
  split
  · exact walk_endTest (walk_releaseHold h _) _
  · exact h

theorem walk_contentNotice (h : Run s0 n s m) (c : Fin 128) : Run s0 n (s.contentNotice c) m := by
  refine walk_foldl _ _ h fun s i h => ?_
  split
  · split
    · exact walk_arm h _
    · exact h
  · exact h

theorem asRuns_map {α : Type} (l : List α) (f : α → ReportBody) (h : ∀ a, (f a).isAsRun = false) :
    asRuns (l.map f) = 0 := by
  simp [asRuns, List.countP_map, Function.comp_def, h]

theorem walk_flushQueue (h : Run s0 n s m) (i : Fin 64) :
    Run s0 n (s.flushQueue i).1 (m + asRuns (s.flushQueue i).2) := by
  have e : asRuns (s.flushQueue i).2 = 0 := asRuns_map _ _ fun _ => rfl
  rw [e]
  exact walk_onQueue (walk_foldl _ _ h fun _ _ h => walk_dropEntry h _ _) _ _

/-- A fold that gathers records walks, the as-run records gathered being owed. -/
theorem walk_gatherFrom {α : Type} (f : State → α → State × List ReportBody) (l : List α)
    {p : State × List ReportBody} {m : Nat}
    (h : Run s0 n p.1 (m + asRuns p.2))
    (step : ∀ (s : State) (a : α) (m : Nat), Run s0 n s m → Run s0 n (f s a).1 (m + asRuns (f s a).2)) :
    let q := l.foldl (fun p a => ((f p.1 a).1, p.2 ++ (f p.1 a).2)) p
    Run s0 n q.1 (m + asRuns q.2) := by
  induction l generalizing p with
  | nil => exact h
  | cons a l ih =>
    refine ih ?_
    dsimp only
    rw [asRuns_append, ← Nat.add_assoc]
    exact step _ _ _ h

theorem walk_gather {α : Type} (h : Run s0 n s m) (f : State → α → State × List ReportBody) (l : List α)
    (step : ∀ (s : State) (a : α) (m : Nat), Run s0 n s m → Run s0 n (f s a).1 (m + asRuns (f s a).2)) :
    Run s0 n (s.gather f l).1 (m + asRuns (s.gather f l).2) :=
  walk_gatherFrom f l (p := (s, [])) h step

theorem walk_flushAll (h : Run s0 n s m) : Run s0 n s.flushAll.1 (m + asRuns s.flushAll.2) :=
  walk_gatherFrom (fun s i => s.flushQueue i) (List.finRange 64) (p := (s, [])) h fun _ _ _ h => walk_flushQueue h _

/-! ## Entry to BYPASS (R184) -/

theorem walk_spliceBypass (h : Run s0 n s m) (i : Fin 64) :
    Run s0 n (s.spliceBypass i).1 (m + asRuns (s.spliceBypass i).2) := by
  unfold State.spliceBypass
  dsimp only
  split
  · next r e => exact walk_onFields (walk_cutShort h r .bypass i e) _ _ fun _ _ h => nomatch h
  · exact walk_onFields h _ _ fun _ _ h => nomatch h

theorem walk_entryBypass (h : Run s0 n s m) (i : Fin 4) :
    Run s0 n (s.entryBypass i).1 (m + asRuns (s.entryBypass i).2) := by
  unfold State.entryBypass
  split
  · next e => exact walk_entryClosing (walk_onEntry h _ _) i (.inl (by simpa using e))
  · next e => exact walk_entryClosing (walk_onEntry h _ _) i (.inr (by simpa using e))
  · exact h
  · exact h

theorem walk_produceUnordered (lists : List (List ReportBody)) (h : Run s0 n s (m + asRuns lists.flatten)) :
    Run s0 n (s.produceUnordered lists) m := by
  have e : asRuns (interleave (lists.map List.length).sum s.free lists).1 = asRuns lists.flatten :=
    (interleave_perm _ _ _ (le_refl _)).countP_eq _
  unfold State.produceUnordered
  dsimp only
  refine walk_produceAll _ ?_
  rw [e]
  exact h.next (.chosen _ _ _)

theorem walk_overlaysCleared (h : Run s0 n s m) :
    Run s0 n (s.onAlert fun u => { u with overlays := Vector.replicate 64 .none }) m :=
  walk_alert h (fun u => { u with overlays := Vector.replicate 64 .none }) rfl

theorem walk_buffersReleased (h : Run s0 n s m) :
    Run s0 n ((s.onContent ContentUnit.releaseBuffers).onPath PathUnit.bypassed) m :=
  walk_path (walk_content h ContentUnit.releaseBuffers fun _ => rfl) PathUnit.bypassed (allFromMemory_windows _)

/-- What follows in the entry to BYPASS once the part state is BYPASS. -/
theorem walk_bypassRest (answer : List ReportBody) (a : asRuns answer = 0)
    (h : Run s0 n (s.onFault fun u => { u with part := .bypass }) m) : Run s0 n (s.enterBypass answer) m := by
  have h1 := walk_gather h State.spliceBypass (List.finRange 64) fun _ _ _ h => walk_spliceBypass h _
  have h2 := walk_gather h1 State.entryBypass (List.finRange 4) fun _ _ _ h => walk_entryBypass h _
  have h3 := walk_flushAll (walk_overlaysCleared h2)
  unfold State.enterBypass
  dsimp only
  refine walk_produceUnordered _ (walk_buffersReleased ?_)
  simp only [List.flatten_cons, List.flatten_nil, List.append_nil, asRuns_append, a, Nat.add_zero]
  simp only [← Nat.add_assoc]
  exact h3

/-! ## The error flags (10.2) -/

theorem walk_raise (h : Run s0 n s m) (k : ErrorKind) (index address : Nat) (packet : Option (List Byte)) :
    Run s0 n (s.raise k index address packet) m := by
  have h1 := walk_fault h fun u =>
    { u with capture := (s.fault.captureError k ⟨k, index, s.clock, address, packet⟩).1 }
  unfold State.raise
  dsimp only
  generalize hx : (if s.fault.policy[errorNumber k].masked = true then _ else _ : State) = x
  have h2 : Run s0 n x m := by
    rw [← hx]
    split
    · exact h1
    · exact walk_handError h1 _
  have part : x.fault.part = s.fault.part := by
    rw [← hx]
    split
    · rfl
    · unfold State.handError
      dsimp only
      split <;> rfl
  by_cases acts : s.fault.acts k
  · by_cases op : s.fault.part = .operating
    · have e : s.fault.effect k = .entered := by simp [FaultUnit.effect, acts, op]
      simp only [acts, e, if_true]
      exact walk_bypassRest [] rfl (h2.next (.latchedOut x m (latchCause k) h2.out))
    · have e : s.fault.effect k ≠ .entered := by
        unfold FaultUnit.effect
        simp only [acts, if_true]
        split <;> simp_all
      simp only [acts, e, if_true, if_false]
      exact h2.next (.latched x m (latchCause k) (part ▸ op))
  · have e : s.fault.effect k ≠ .entered := by simp [FaultUnit.effect, acts]
    simp only [acts, e, if_false]
    exact h2

end Sys2Proof.Machine
end

