-- ==== Sys2Proof/Laws/WalkPacket.lean ====
section
/-! SUPPORT. The walk through the Splice Engine's decisions and the alerts on air. -/

namespace Sys2Proof.Machine

-- One after another: in the package as one text too many proofs would else wait on one another at once.
set_option Elab.async false

variable {s0 s : State} {n m : Nat}

/-- The lowest element that passes a test passes it. -/
theorem lowest_test {α : Type} {n : Nat} {v : Vector α n} {test : α → Bool} {i : Fin n} (h : lowest v test = some i) :
    test v[i] = true := by
  have := List.find?_some (p := fun i => test v[i]) h
  exact this

/-- The record of a splice-out is FREE, and not the one that a chained return closes (R101, R107). -/
theorem freeRecord_spec {closed : Option (Fin 68)} {r : Fin 68} (h : s.freeRecord closed = some r) :
    s.splice.records[r].state = .free ∧ closed ≠ some r := by
  have := List.find?_some
    (p := fun r : Fin 68 => s.splice.records[r].state == RecordState.free && closed != some r) h
  simpa using this

/-! ## Output continuity, marks, content packets -/

theorem walk_giveCC (h : Run s0 n s m) (i : Fin 64) (comp : Nat) (ins : Bool) (cc : CC) (p : Bool) :
    Run s0 n (s.giveCC i comp ins cc p).1 m := walk_onFields h _ _

theorem walk_takeMark (h : Run s0 n s m) (i : Fin 64) (d : Service) (comp : Nat) (c : Bool) :
    Run s0 n (s.takeMark i d comp c).1 m := by
  unfold State.takeMark
  split
  · exact walk_onFields h _ _
  · exact h

theorem walk_oweMark (h : Run s0 n s m) (i : Fin 64) : Run s0 n (s.oweMark i) m := walk_onFields h _ _

theorem walk_passRewrite (h : Run s0 n s m) (d : Service) (x : TakeNotice) : Run s0 n (s.passRewrite d x).1 m :=
  walk_takeMark (walk_giveCC h _ _ _ _ _) _ _ _ _

theorem walk_formRun (h : Run s0 n s m) (i : Fin 64) (d : Service) (c : Fin 128) : Run s0 n (s.formRun i d c) m :=
  walk_onFields h _ _

theorem walk_consumeHead (h : Run s0 n s m) (i : Fin 64) (c : Fin 128) (l : Bool) : Run s0 n (s.consumeHead i c l) m := by
  unfold State.consumeHead
  split
  · exact h
  · have k := walk_onFields h i fun f => { f with runQueue := f.runQueue.tail }
    dsimp only
    split
    · exact walk_joinHeader k _ _ _ _
    · split
      · exact walk_joinHeader k _ _ _ _
      · exact k

theorem walk_written (h : Run s0 n s m) (x : Source) : Run s0 n (s.written x) m := by
  cases x with
  | insertion r g => exact h.next (.recordWritten s m r)
  | alert e g v => exact h.next (.entryWritten s m e)

theorem walk_insertPacket (h : Run s0 n s m) (d : Service) (x : TakeNotice) (r : RunView) (hd : Header) (comp : Nat)
    (f : Bool) : Run s0 n (s.insertPacket d x r hd comp f).1 m :=
  walk_written (walk_allocatePrefetch (walk_takeMark (walk_giveCC h _ _ _ _ _) _ _ _ _) _ _) _

theorem walk_takeContent (h : Run s0 n s m) (d : Service) (x : TakeNotice) (r : RunView) (f : Bool) :
    Run s0 n (s.takeContent d x r f).1.state m := by
  unfold State.takeContent
  dsimp only
  split
  · next hd e =>
    split
    · exact walk_consumeHead (walk_insertPacket h _ _ _ _ _ _) _ _ _
    · exact walk_consumeHead h _ _ _
  · exact walk_consumeHead h _ _ _
  · exact h
  · exact h

theorem walk_testPacket (h : Run s0 n s m) (d : Service) (x : TakeNotice) (rec : Bool) (r : Option MissReason) :
    Run s0 n (s.testPacket d x rec r) m := by
  unfold State.testPacket
  split
  · exact h
  · dsimp only
    split
    · split
      · exact walk_missHead h _ _
      · repeat' split
        all_goals first | exact walk_missHead (walk_onFields h _ _) _ _ | exact walk_onFields h _ _
    · split
      · split
        · exact walk_missHead (walk_onFields h _ _) _ _
        · exact walk_onFields h _ _
      · exact walk_onFields h _ _

/-! ## Insertions -/

theorem walk_enterReturning (h : Run s0 n s m) (i : Fin 64) (r : Fin 68) (e : EndReason) :
    Run s0 n (s.enterReturning i r e) m := walk_onFields (walk_onRecord h _ _) _ _

theorem walk_setReturnDeadline (h : Run s0 n s m) (r : Fin 68) (t : Option Time90) :
    Run s0 n (s.setReturnDeadline r t) m := by
  refine walk_onRecord h _ _ ?_
  split <;> exact ⟨rfl, rfl, rfl, rfl, rfl, rfl, rfl⟩

theorem walk_insertionTake (h : Run s0 n s m) (d : Service) (x : TakeNotice) (r : Fin 68) :
    Run s0 n (s.insertionTake d x r).state m := by
  unfold State.insertionTake
  dsimp only
  split
  · exact walk_onRecord (walk_takeContent h _ _ _ _) _ _
  · exact walk_takeContent h _ _ _ _

theorem walk_contentEnds (h : Run s0 n s m) (x : TakeNotice) (r : Fin 68) : Run s0 n (s.contentEnds x r) m := by
  unfold State.contentEnds
  dsimp only
  split
  · split
    · exact walk_setReturnDeadline (walk_enterReturning h _ _ _) _ _
    · exact walk_onFields h _ _
  · exact h

theorem walk_spliceOut (h : Run s0 n s m) (d : Service) (x : TakeNotice) (c : SpliceCue) (closed : Option (Fin 68))
    (room : s.spliceRoom = true) : Run s0 n (s.spliceOut d x c closed).state m := by
  unfold State.spliceOut
  split
  · exact h
  · next r e =>
    have isFree : s.splice.records[r].state = .free := (freeRecord_spec e).1
    have less : s.report.reservation < Config.alertRoom := by
      have : s.report.reservation < Config.spliceRoom := by simpa [State.spliceRoom] using room
      exact Nat.lt_trans this (by decide)
    have h1 := (walk_reserve h less).next
      (.recordStarts s.reserve m r (fun old => startRecord s old x c) isFree rfl rfl rfl)
    have h2 := h1.next (.takesCurrent _ m x.service r
      (fun f => { f with
        state := .inserting, current := some r, test := none, runQueue := f.standbyQueue, standbyQueue := [] })
      (by simp [startRecord]) (by simp [startRecord]) rfl)
    exact walk_contentEnds (walk_insertionTake (walk_general (walk_fireHead (walk_formRun h2 _ _ _) _) _) _ _ _) _ _

theorem walk_countNull (h : Run s0 n s m) (r : Fin 68) : Run s0 n (s.countNull r) m := walk_onRecord h _ _

theorem walk_returnMark (h : Run s0 n s m) (i : Fin 64) (r : Fin 68) (f : Bool) : Run s0 n (s.returnMark i r f) m := by
  unfold State.returnMark
  split
  · exact walk_oweMark h _
  · exact h

/-! What keeps a service's current record (for R110). -/

theorem current_onFields (i j : Fin 64) (f : SpliceFields → SpliceFields)
    (c : ∀ x : SpliceFields, (f x).current = x.current := by exact fun _ => rfl) :
    ((s.onFields i f).splice.services[j]).current = s.splice.services[j].current := by
  simp only [State.onFields_splice_services, modifyAt_fin]
  split
  · next e => subst e; exact c _
  · rfl

theorem current_returnMark (i j : Fin 64) (r : Fin 68) (f : Bool) :
    (s.returnMark i r f).splice.services[j].current = s.splice.services[j].current := by
  unfold State.returnMark
  split
  · exact current_onFields _ _ _
  · rfl

theorem current_passRewrite (d : Service) (x : TakeNotice) (j : Fin 64) :
    (s.passRewrite d x).1.splice.services[j].current = s.splice.services[j].current := by
  unfold State.passRewrite
  dsimp only
  unfold State.takeMark
  split
  · exact (current_onFields _ _ _).trans (current_onFields _ _ _)
  · exact current_onFields _ _ _

theorem reservation_produce (b : ReportBody) : (s.produce b).report.reservation = s.report.reservation := by
  show (s.report.produce b s.clock).reservation = _
  unfold ReportUnit.produce
  dsimp only
  split <;> rfl

theorem reservation_produceAll (l : List ReportBody) (s : State) :
    (s.produceAll l).report.reservation = s.report.reservation := by
  induction l generalizing s with
  | nil => rfl
  | cons b l ih => exact (ih _).trans (reservation_produce b)

theorem reservation_leave (r : Fin 68) (t : Option Time90) :
    (State.producing (s.leaveActive r t)).report.reservation = s.report.reservation := by
  unfold State.producing
  rw [reservation_produceAll]
  unfold State.leaveActive
  dsimp only
  split <;> rfl

theorem spliceReason_room {i : Fin 64} {b : Bool} (h : s.spliceReason i b = none) : s.spliceRoom = true := by
  unfold State.spliceReason at h
  by_contra c
  simp only [Bool.not_eq_true] at c
  simp only [c, Bool.not_false, if_true] at h
  split at h
  · simp at h
  · split at h
    · simp at h
    · split at h <;> simp at h

theorem walk_beginReturn (h : Run s0 n s m) (i : Fin 64) (r : Fin 68) (f : Bool) : Run s0 n (s.beginReturn i r f) m :=
  walk_returnMark (walk_onRecord h _ _) _ _ _

theorem current_beginReturn (i j : Fin 64) (r : Fin 68) (f : Bool) :
    (s.beginReturn i r f).splice.services[j].current = s.splice.services[j].current := current_returnMark _ _ _ _

theorem walk_returnToNetwork (h : Run s0 n s m) (d : Service) (x : TakeNotice) (r : Fin 68) (a : Bool)
    (e : Option MissReason) (c : s.splice.services[x.service].current = some r) :
    Run s0 n (s.returnToNetwork d x r a e).state m := by
  unfold State.returnToNetwork
  dsimp only
  exact walk_testPacket (walk_onFields (walk_producing (walk_leaveActive (walk_passRewrite h d x) r _ x.service
    ((current_passRewrite d x x.service).trans c))) x.service (fun f => f.atRest a)) d x true e

theorem walk_returnHere (h : Run s0 n s m) (d : Service) (x : TakeNotice) (r : Fin 68) (f : Bool)
    (c : s.splice.services[x.service].current = some r) : Run s0 n (s.returnHere d x r f).state m := by
  have h1 := walk_beginReturn h x.service r f
  have c1 := (current_beginReturn (s := s) x.service x.service r f).trans c
  unfold State.returnHere
  dsimp only
  split
  · next t e1 e2 =>
    have room := spliceReason_room e2
    have same := reservation_leave (s := s.beginReturn x.service r f) r (s.t90 x.service x.n)
    refine walk_spliceOut (walk_producing (walk_leaveActive h1 r _ x.service c1)) _ _ _ _ ?_
    simp only [State.spliceRoom] at room ⊢
    rw [same]
    exact room
  · exact walk_returnToNetwork h1 _ _ _ _ _ c1

theorem walk_returningPacket (h : Run s0 n s m) (d : Service) (x : TakeNotice) (r : Fin 68)
    (c : s.splice.services[x.service].current = some r) : Run s0 n (s.returningPacket d x r).state m := by
  have h1 := walk_setReturnDeadline h r (s.t90 x.service x.n)
  unfold State.returningPacket
  dsimp only
  split
  · exact walk_returnHere h1 _ _ _ _ c
  · split
    · exact walk_returnHere h1 _ _ _ _ c
    · refine walk_testPacket ?_ _ _ _ _
      split
      · exact walk_insertionTake h1 _ _ _
      · exact walk_countNull h1 _

theorem current_enterReturning (i j : Fin 64) (r : Fin 68) (e : EndReason) :
    (s.enterReturning i r e).splice.services[j].current = s.splice.services[j].current := current_onFields _ _ _

theorem walk_insertingPacket (h : Run s0 n s m) (d : Service) (x : TakeNotice) (r : Fin 68)
    (c : s.splice.services[x.service].current = some r) : Run s0 n (s.insertingPacket d x r).state m := by
  unfold State.insertingPacket
  dsimp only
  split
  · exact walk_returningPacket (walk_enterReturning h _ _ _) _ _ _ ((current_enterReturning _ _ _ _).trans c)
  · exact walk_testPacket (walk_contentEnds (walk_insertionTake h d x r) x r) d x false none

theorem walk_exhaustedPacket (h : Run s0 n s m) (d : Service) (x : TakeNotice) (r : Fin 68)
    (c : s.splice.services[x.service].current = some r) : Run s0 n (s.exhaustedPacket d x r).state m := by
  unfold State.exhaustedPacket
  dsimp only
  split
  · exact walk_returningPacket (walk_enterReturning h _ _ _) _ _ _ ((current_enterReturning _ _ _ _).trans c)
  · split
    · exact walk_returningPacket (walk_enterReturning h _ _ _) _ _ _ ((current_enterReturning _ _ _ _).trans c)
    · exact walk_testPacket (walk_countNull h r) d x false none

theorem walk_networkPacket (h : Run s0 n s m) (d : Service) (x : TakeNotice) : Run s0 n (s.networkPacket d x).state m := by
  unfold State.networkPacket
  dsimp only
  split
  · next e => exact walk_spliceOut h _ _ _ _ (spliceReason_room e)
  · exact walk_testPacket (walk_passRewrite h _ _) _ _ _ _

theorem walk_splicePacket (h : Run s0 n s m) (d : Service) (x : TakeNotice) : Run s0 n (s.splicePacket d x).state m := by
  unfold State.splicePacket
  dsimp only
  split
  · next e => exact walk_insertingPacket h _ _ _ e
  · next e => exact walk_exhaustedPacket h _ _ _ e
  · next e => exact walk_returningPacket h _ _ _ e
  · exact walk_networkPacket h _ _

/-! ## Alerts on air -/

theorem walk_startRun (h : Run s0 n s m) (v : Fin 64) (i : Fin 4) : Run s0 n (s.startRun v i) m :=
  walk_fillHeaders (walk_onFields h _ _) _ _ _

theorem walk_onRun (h : Run s0 n s m) (v : Fin 64) (f : AlertRun → AlertRun) : Run s0 n (s.onRun v f) m :=
  walk_onFields h _ _

theorem walk_setOverlay (h : Run s0 n s m) (v : Fin 64) (o : Overlay) : Run s0 n (s.setOverlay v o) m := walk_alert h _

theorem walk_loopRun (h : Run s0 n s m) (v : Fin 64) (c : Fin 128) : Run s0 n (s.loopRun v c) m :=
  walk_fillHeaders (walk_onFields (walk_onRun h _ _) _ _) _ _ _

theorem walk_alertTake (h : Run s0 n s m) (d : Service) (x : TakeNotice) (r : AlertRun) :
    Run s0 n (s.alertTake d x r).state m := by
  have rest {s : State} (h : Run s0 n s m) (f : Bool) (r : AlertRun) : Run s0 n (
      let view : RunView := ⟨r.content, r.cursor, r.offset, .alert r.entry r.generation x.service, true⟩
      let (out, advanced) := s.takeContent d x view f
      if advanced then
        if s.packetCount r.content ≤ r.cursor + 1 then { out with state := out.state.loopRun x.service r.content }
        else { out with state := out.state.onRun x.service fun r => { r with cursor := r.cursor + 1 } }
      else out).state m := by
    dsimp only
    split
    · split
      · exact walk_loopRun (walk_takeContent h _ _ _ _) _ _
      · exact walk_onRun (walk_takeContent h _ _ _ _) _ _
    · exact walk_takeContent h _ _ _ _
  unfold State.alertTake
  dsimp only
  split
  · exact rest (walk_oweMark (walk_formRun (walk_onRun h _ _) _ _ _) _) _ _
  · exact rest h _ _

theorem walk_airingPacket (h : Run s0 n s m) (d : Service) (x : TakeNotice) (r : AlertRun) :
    Run s0 n (s.airingPacket d x r).state m := by
  unfold State.airingPacket
  split
  · exact walk_alertTake h _ _ _
  · exact walk_passRewrite h _ _

theorem walk_alertReturn (h : Run s0 n s m) (d : Service) (x : TakeNotice) (l : Fin 4) :
    Run s0 n (s.alertReturn d x l).state m := by
  unfold State.alertReturn
  split
  · exact walk_airingPacket (walk_settleEntry (walk_oweMark (walk_startRun (walk_setOverlay h _ _) _ _) _) _) _ _ _
  · exact walk_passRewrite (walk_settleEntry (walk_onFields (walk_setOverlay h _ _) _ _) _) _ _

theorem walk_overlayDecision (h : Run s0 n s m) (d : Service) (x : TakeNotice) :
    Run s0 n (s.overlayDecision d x).state m := by
  unfold State.overlayDecision
  split
  · exact walk_passRewrite h _ _
  · split
    · dsimp only
      split
      · exact walk_alertReturn (walk_onRun h _ _) _ _ _
      · exact walk_airingPacket (walk_onRun h _ _) _ _ _
    · exact walk_airingPacket h _ _ _

theorem walk_overlayPacket (h : Run s0 n s m) (d : Service) (x : TakeNotice) : Run s0 n (s.overlayPacket d x).state m :=
  walk_testPacket (walk_overlayDecision h _ _) _ _ _ _

theorem walk_decidePacket (h : Run s0 n s m) (d : Service) (x : TakeNotice) : Run s0 n (s.decidePacket d x).1 m := by
  unfold State.decidePacket
  dsimp only
  refine walk_foldl _ _ ?_ fun _ _ h => walk_raise h _ _ _ _
  split
  · exact walk_splicePacket h _ _
  · exact walk_overlayPacket h _ _

theorem walk_preempt (h : Run s0 n s m) (v : Fin 64) : Run s0 n (s.preempt v) m := by
  have h1 := walk_onFields h v fun f => { f with alertHold := true }
  unfold State.preempt
  dsimp only
  refine walk_onFields ?_ _ _
  split
  · next r e => exact walk_producing (walk_cutShort h1 r .preempted v e)
  · exact h1

theorem walk_takeService (h : Run s0 n s m) (v : Fin 64) (i : Fin 4) : Run s0 n (s.takeService v i) m :=
  walk_startRun (walk_setOverlay h _ _) _ _

theorem walk_displace (h : Run s0 n s m) (v : Fin 64) (i o : Fin 4) : Run s0 n (s.displace v i o) m :=
  walk_settleEntry (walk_takeService (walk_onEntry h _ _) _ _) _

theorem walk_offer (h : Run s0 n s m) (v : Fin 64) (i : Fin 4) : Run s0 n (s.offer v i).1 m := by
  unfold State.offer
  split
  · exact walk_takeService (walk_preempt h _) _ _
  · split
    · exact walk_displace h _ _ _
    · exact h
  · split
    · exact h
    · exact walk_displace h _ _ _

theorem walk_endService (h : Run s0 n s m) (i : Fin 4) (v : Fin 64) : Run s0 n (s.endService i v) m := by
  unfold State.endService
  split
  · split
    · exact walk_onRun (walk_setOverlay h _ _) _ _
    · exact h
  · exact h
  · exact h

theorem walk_endAlert (h : Run s0 n s m) (i : Fin 4) (r : AlertEnd)
    (c : s.alert.entries[i].state = .active ∨ s.alert.entries[i].durationExpiry.isSome) :
    Run s0 n (s.endAlert i r) m :=
  walk_settleEntry (walk_foldl _ _ (h.next (.entryEnds s m i r c)) fun _ _ h => walk_endService h _ _) _

end Sys2Proof.Machine
end

