-- ==== Sys2Proof/Laws/WalkUnits.lean ====
section
/-! SUPPORT. The walk through the Ingest Parser and the Slot Table, configuration records, cues and the Start-up Loader. -/

namespace Sys2Proof.Machine

-- One after another: in the package as one text too many proofs would else wait on one another at once.
set_option Elab.async false

variable {s0 s : State} {n m : Nat}

/-! ## Ingest Parser and Slot Table (01) -/

theorem walk_setAssembly (h : Run s0 n s m) (w : Fin 16) (a : Assembly) : Run s0 n (s.setAssembly w a) m :=
  walk_ingest h _

theorem walk_setMode (h : Run s0 n s m) (w : Fin 16) (a : AssemblyMode) : Run s0 n (s.setMode w a) m := by
  unfold State.setMode
  split
  · exact walk_setAssembly h _ _
  · exact h

theorem walk_raisePacket (h : Run s0 n s m) (k : ErrorKind) (i : Nat) (w : Fin 16) (slot : Nat) (b : List Byte) :
    Run s0 n (s.raisePacket k i w slot b) m := walk_raise h _ _ _ _

theorem walk_checkContinuity (h : Run s0 n s m) (i : Fin 64) (comp : Nat) (w : Fin 16) (slot : Nat) (b : List Byte) :
    Run s0 n (s.checkContinuity i comp w slot b) m := by
  unfold State.checkContinuity
  split
  · dsimp only
    split
    · exact walk_raisePacket (walk_ingest h _) _ _ _ _ _
    · exact walk_ingest h _
  · exact h

theorem walk_serviceTake (h : Run s0 n s m) (d : Service) (i : Fin 64) (comp : Nat) (w : Fin 16) (slot : Nat)
    (c : Count32) (b : List Byte) : Run s0 n (s.serviceTake d i comp w slot c b).1 m := by
  unfold State.serviceTake
  dsimp only
  generalize h1 : (if transportError b = true then s.raisePacket _ _ _ _ _ else s : State) = s1
  have k1 : Run s0 n s1 m := by
    rw [← h1]
    split
    · exact walk_raisePacket h _ _ _ _ _
    · exact h
  generalize h2 : (if malformed b = true then s1.raisePacket _ _ _ _ _ else s1 : State) = s2
  have k2 : Run s0 n s2 m := by
    rw [← h2]
    split
    · exact walk_raisePacket k1 _ _ _ _ _
    · exact k1
  have k3 := walk_checkContinuity k2 i comp w slot b
  generalize s2.checkContinuity i comp w slot b = s3 at k3 ⊢
  generalize h4 : (if givesSample d comp b = true then s3.handleSample _ _ else s3 : State) = s4
  have k4 : Run s0 n s4 m := by
    rw [← h4]
    split
    · exact walk_handleSample k3 _ _
    · exact k3
  split
  · exact k4
  · exact walk_decidePacket k4 _ _

theorem walk_takePacket (h : Run s0 n s m) (w : Fin 16) (slot : Nat) (c : Count32) (b : List Byte) :
    Run s0 n (s.takePacket w slot c b).1 m := by
  unfold State.takePacket
  split
  · split
    · exact h
    · split
      · exact h
      · exact walk_serviceTake h _ _ _ _ _ _ _
  · exact walk_raisePacket h _ _ _ _ _

theorem walk_settleOld (h : Run s0 n s m) (w : Fin 16) (slot : Nat) : Run s0 n (s.settleOld w slot) m := by
  unfold State.settleOld
  dsimp only
  split
  · exact h
  · split
    · exact walk_discard h _ _ _ _
    · exact walk_discard (walk_raise h _ _ _ _) _ _ _ _

theorem walk_takeFromStaging (h : Run s0 n s m) (w : Fin 16) (slot : Nat) (b : Fin 8) :
    Run s0 n (s.takeFromStaging w slot b) m := by
  unfold State.takeFromStaging
  split
  · exact h
  · split
    · exact walk_mapSources (walk_setStaging h _ _) _
    · exact walk_raise (walk_voidStaging h _) _ _ _ _

theorem walk_settleStaging (h : Run s0 n s m) (w : Fin 16) (slot : Nat) : Run s0 n (s.settleStaging w slot) m :=
  walk_mapSources (walk_foldl _ _ h fun _ _ h => walk_takeFromStaging h _ _ _) _

theorem walk_take (h : Run s0 n s m) (w : Fin 16) (slot : Nat) (p : Option (List Byte)) : Run s0 n (s.take w slot p) m := by
  unfold State.take
  split
  · exact h
  · next a e =>
    have k := walk_settleStaging (walk_settleOld (walk_setAssembly h w
      { a with lastTake := some (slot, a.nextIndex (slotCount s.path.windows[w]) slot) }) w slot) w slot
    dsimp only
    split
    · exact walk_onSlot (walk_takePacket k _ _ _ _) _ _ _
    · exact walk_onSlot k _ _ _

theorem walk_voidPass (h : Run s0 n s m) (w : Fin 16) (slot : Nat) (b : Fin 8) : Run s0 n (s.voidPass w slot b) m := by
  unfold State.voidPass
  split
  · exact h
  · split
    · split
      · exact h
      · exact walk_raise (walk_voidStaging h _) _ _ _ _
    all_goals exact h

theorem walk_fillSlot (h : Run s0 n s m) (w : Fin 16) (slot : Nat) : Run s0 n (s.fillSlot w slot) m :=
  walk_foldl _ _ (walk_onSlot h _ _ _) fun _ _ h => walk_voidPass h _ _ _

theorem walk_record (h : Run s0 n s m) (w : Fin 16) (slot : Nat) (b : List Byte) : Run s0 n (s.record w slot b) m := by
  unfold State.record
  dsimp only
  split
  · exact walk_setMode (walk_take h _ _ _) _ _
  · exact walk_setMode h _ _

theorem walk_beginSlot (h : Run s0 n s m) (x : IngestWrite) : Run s0 n (s.beginSlot x) m :=
  walk_record (walk_fillSlot h _ _) _ _ _

theorem walk_sequenceBreak (h : Run s0 n s m) (x : IngestWrite) (b : List Byte) : Run s0 n (s.sequenceBreak x b) m :=
  walk_raise h _ _ _ _

theorem walk_tear (h : Run s0 n s m) (x : IngestWrite) (slot : Nat) (b : List Byte) : Run s0 n (s.tear x slot b) m :=
  walk_sequenceBreak (walk_take h _ _ _) _ _

theorem walk_ingestWrite (h : Run s0 n s m) (x : IngestWrite) : Run s0 n (s.ingestWrite x) m := by
  unfold State.ingestWrite
  split
  · exact h
  · split
    · split
      · exact walk_beginSlot h _
      · exact h
    · split
      · dsimp only
        split
        · exact walk_beginSlot h _
        · exact walk_sequenceBreak (walk_beginSlot h _) _ _
      · exact walk_setMode (walk_sequenceBreak h _ _) _ _
    · split
      · exact walk_record h _ _ _
      · split
        · split
          · exact walk_record (walk_sequenceBreak h _ _) _ _ _
          · exact walk_beginSlot (walk_tear h _ _ _) _
        · exact walk_setMode (walk_tear h _ _ _) _ _

theorem walk_ingestBeat (h : Run s0 n s m) (a : Nat) (d : BeatData) (e : Enables) : Run s0 n (s.ingestBeat a d e) m :=
  walk_foldl _ _ h fun _ _ h => walk_ingestWrite h _

theorem walk_settleWindow (h : Run s0 n s m) (w : Fin 16) : Run s0 n (s.settleWindow w) m := by
  refine walk_foldl _ _ h fun s slot h => ?_
  unfold State.settleSlot
  dsimp only
  split
  · exact h
  · exact walk_discard h _ _ _ _

/-! ## Configuration records -/

theorem clampTo_range {low high : Nat} (v : Nat) (h : low ≤ high) : low ≤ clampTo low high v ∧ clampTo low high v ≤ high := by
  unfold clampTo; omega

theorem requestedEntry_range {r : WindowRec} {source : Fin 16} {e : WindowEntry}
    (h : requestedEntry r source = some e) : e.InRange := by
  unfold requestedEntry at h
  dsimp only at h
  split at h
  · cases h; trivial
  · split at h
    · next c => cases h; exact ⟨c.1, c.2.1, c.2.2.1, c.2.2.2.1, c.2.2.2.2, clampTo_range _ (by decide)⟩
    · cases h
  · split at h
    · next c => cases h; exact c.1
    · cases h
  · split at h
    · next c => cases h; exact c
    · cases h
  · split at h
    · next c => cases h; exact c
    · cases h
  · cases h

theorem walk_dropWindow (h : Run s0 n s m) (i : Fin 16) (old : WindowEntry) (b : Bool) : Run s0 n (s.dropWindow i old b) m := by
  unfold State.dropWindow
  split
  · exact h
  · have k := walk_ingest (walk_slots (walk_freeStagingOf (walk_settleWindow h i) i)
      fun t => { t with records := t.records.set i [] }) fun u => { u with assembly := u.assembly.set i none }
    dsimp only
    split
    · exact k
    · exact k.next (.viewsDropped _ _ i)
  · exact walk_freeStagingOf h _
  · exact h.next (.ringDropped _ _)
  · exact walk_report h _

theorem walk_setUpWindow (h : Run s0 n s m) (i : Fin 16) (e : WindowEntry) : Run s0 n (s.setUpWindow i e) m := by
  unfold State.setUpWindow
  split
  · exact h
  · exact h
  · exact walk_ingest (walk_slots h _) _
  · exact walk_handCueTaken (h.next (.ringSetUp _ _ _ rfl)) _
  · exact walk_report h _

theorem walk_applyWindow (h : Run s0 n s m) (r : WindowRec) : Run s0 n (s.applyWindow r).1 m := by
  unfold State.applyWindow
  split
  · dsimp only
    split
    · exact h
    · next e he =>
      split
      · exact h
      · next ok =>
        exact walk_setUpWindow (walk_dropWindow (h.next (.windowSet s m _ e _ (requestedEntry_range he) ok)) _ _ _) _ _
  · exact h

theorem walk_defineService (h : Run s0 n s m) (i : Fin 64) (d : Service) : Run s0 n (s.defineService i d) m :=
  walk_onFields ((walk_ingest h _).next (.clockStarts _ _ i d.window)) i _ fun _ _ h => nomatch h

theorem walk_undefineService (h : Run s0 n s m) (i : Fin 64) : Run s0 n (s.undefineService i) m :=
  walk_onFields ((walk_ingest h _).next (.clockEnds _ _ i)) i _ fun _ _ h => nomatch h

theorem walk_applyService (h : Run s0 n s m) (r : ServiceRec) : Run s0 n (s.applyService r).1 m := by
  unfold State.applyService
  split
  · dsimp only
    split
    · exact h
    · split
      · split
        · exact h
        · exact walk_undefineService h _
      · split
        · exact h
        · split
          · exact h
          · split
            · exact h
            · exact walk_defineService h _ _
  · exact h

theorem walk_applyGroup (h : Run s0 n s m) (b : Bool) (r : GroupRec) : Run s0 n (s.applyGroup b r).1 m := by
  unfold State.applyGroup
  split
  · dsimp only
    exact h.next (.alert s m _ rfl)
  · exact h

theorem walk_applyLimits (h : Run s0 n s m) (r : LimitsRec) : Run s0 n (s.applyLimits r).1 m := by
  have k := h.next (.limits s m r)
  unfold State.applyLimits
  dsimp only
  split
  · exact walk_rearmAll k
  · exact k

theorem walk_applyPolicy (h : Run s0 n s m) (r : PolicyRec) : Run s0 n (s.applyPolicy r).1 m := by
  unfold State.applyPolicy
  split
  · exact h
  · split
    · exact h
    · dsimp only
      exact h.next (.fault s m _ rfl rfl rfl)

theorem walk_configure (h : Run s0 n s m) (b : Bool) (r : ConfigRecord) : Run s0 n (s.configure b r).1 m := by
  cases r with
  | window r => exact walk_applyWindow h r
  | service r => exact walk_applyService h r
  | group r => exact walk_applyGroup h b r
  | arbiter r =>
    show Run s0 n (s.applyArbiter b r).1 m
    unfold State.applyArbiter
    dsimp only
    exact h.next (.path s m _ rfl)
  | limits r => exact walk_applyLimits h r
  | policy r => exact walk_applyPolicy h r

/-! ## Cues -/

theorem walk_answerCue (h : Run s0 n s m) (ref : CueRef) (k : Byte) (v : Option Byte) (id : Option (BitVec 32))
    (o : CueOutcome) (d : Option Byte) : Run s0 n (s.answerCue ref k v id o d) m := walk_general h _

theorem walk_enqueue (h : Run s0 n s m) (i : Fin 64) (c : SpliceCue) : Run s0 n (s.enqueue i c) m := by
  unfold State.enqueue
  dsimp only
  split
  · exact walk_general h _
  · split
    · exact walk_arm (walk_onQueue h _ _) _
    · exact walk_onQueue h _ _

theorem walk_handleSplice (h : Run s0 n s m) (b : Bool) (ref : CueRef) (x : SpliceBody) :
    Run s0 n (s.handleSplice b ref x) m := by
  unfold State.handleSplice
  dsimp only
  split
  · exact walk_answerCue h _ _ _ _ _ _
  · split
    · exact walk_answerCue h _ _ _ _ _ _
    · split
      · exact walk_answerCue h _ _ _ _ _ _
      · exact walk_enqueue h _ _

theorem walk_cancelEntry (h : Run s0 n s m) (i : Fin 64) (k : Nat) (e : QueueEntry) :
    Run s0 n (s.cancelEntry i k e) m := by
  have l := walk_general (walk_onQueue (walk_dropEntry h i e) i fun q => q.eraseIdx k) (spliceAnswer i e.cue .cancelled none)
  unfold State.cancelEntry
  dsimp only
  split
  · exact walk_arm l _
  · exact l

theorem walk_handleCancel (h : Run s0 n s m) (ref : CueRef) (v : Byte) (id : BitVec 32) :
    Run s0 n (s.handleCancel ref v id) m := by
  unfold State.handleCancel
  dsimp only
  repeat' split
  all_goals first
    | exact walk_answerCue h _ _ _ _ _ _
    | exact walk_answerCue (walk_cancelEntry h _ _ _) _ _ _ _ _ _

theorem walk_handleFlush (h : Run s0 n s m) (ref : CueRef) (v : Byte) : Run s0 n (s.handleFlush ref v) m := by
  unfold State.handleFlush
  dsimp only
  repeat' split
  all_goals first
    | exact walk_answerCue h _ _ _ _ _ _
    | exact walk_answerCue (walk_producing (walk_flushQueue h _)) _ _ _ _ _ _

theorem walk_returnRequest (h : Run s0 n s m) (i : Fin 64) : Run s0 n (s.returnRequest i) m := by
  unfold State.returnRequest
  dsimp only
  split
  · exact walk_enterReturning h _ _ _
  · exact walk_enterReturning h _ _ _
  · exact h

theorem walk_handleReturnNow (h : Run s0 n s m) (ref : CueRef) (v : Byte) : Run s0 n (s.handleReturnNow ref v) m := by
  unfold State.handleReturnNow
  dsimp only
  repeat' split
  all_goals first
    | exact walk_answerCue h _ _ _ _ _ _
    | exact walk_answerCue (walk_returnRequest h _) _ _ _ _ _ _

theorem walk_offerAll (h : Run s0 n s m) (i : Fin 4) (c : ServiceSet) : Run s0 n (s.offerAll i c).1 m := by
  unfold State.offerAll
  suffices ∀ (l : List (Fin 64)) (p : State × ServiceSet), Run s0 n p.1 m → Run s0 n (l.foldl (fun p service =>
      if c.getLsbD service.val then
        let (s, took) := p.1.offer service i
        (s, if took then p.2 ||| BitVec.twoPow 64 service.val else p.2)
      else p) p).1 m from this _ _ h
  intro l
  induction l with
  | nil => intro p h; exact h
  | cons a l ih =>
    intro p h
    refine ih _ ?_
    dsimp only
    split
    · exact walk_offer h _ _
    · exact h

theorem walk_startOrder (h : Run s0 n s m) :
    Run s0 n (s.onAlert fun u => { u with startOrder := u.startOrder + 1 }) m :=
  walk_alert h (fun u => { u with startOrder := u.startOrder + 1 }) rfl

theorem startEntry_balanced (old : AlertEntry) (ref : CueRef) (r : AlertRequest) : (startEntry s old ref r).Balanced := by
  have zero : totalOf (Vector.replicate 64 0) = 0 := by decide +kernel
  show totalOf (Vector.replicate 64 0) + totalOf (Vector.replicate 64 0) + 0 = 0
  rw [zero]
  rfl

theorem walk_entryStarts (h : Run s0 n s (m + 1)) (i : Fin 4) (ref : CueRef) (r : AlertRequest)
    (isFree : s.alert.entries[i].state = .free) :
    Run s0 n (s.onEntry i fun old => startEntry s old ref r) m :=
  h.next (.entryStarts s m i (fun old => startEntry s old ref r) isFree rfl rfl (startEntry_balanced _ _ _))

theorem walk_startAlert (h : Run s0 n s (m + 1)) (i : Fin 4) (ref : CueRef) (r : AlertRequest)
    (isFree : s.alert.entries[i].state = .free) : Run s0 n (s.startAlert i ref r) m := by
  have k := walk_startOrder (walk_entryStarts h i ref r isFree)
  unfold State.startAlert
  dsimp only
  exact walk_general (walk_offerAll k _ _) _

theorem walk_requestAlert (h : Run s0 n s m) (ref : CueRef) (r : AlertRequest) :
    Run s0 n (s.requestAlert ref r).1 m := by
  unfold State.requestAlert
  split
  · exact h
  · next i e =>
    have isFree : s.alert.entries[i].state = .free := by simpa using lowest_test e
    split
    · exact h
    · split
      · exact h
      · next room =>
        have less : s.report.reservation < Config.alertRoom := by simpa [State.alertRoom] using room
        split
        · exact walk_unreserve (walk_reserve h less)
        · refine walk_startAlert (walk_hold (walk_reserve h less) _) i ref r ?_
          simpa [State.hold, State.reserve] using isFree

theorem walk_handleAlertStart (h : Run s0 n s m) (ref : CueRef) (b : AlertBody) :
    Run s0 n (s.handleAlertStart ref b) m := by
  unfold State.handleAlertStart
  dsimp only
  split
  · exact walk_answerCue h _ _ _ _ _ _
  · split
    · exact walk_answerCue h _ _ _ _ _ _
    · next r _ =>
      split
      · exact walk_answerCue h _ _ _ _ _ _
      · have k := walk_requestAlert h ref r
        split
        · next e => rw [e] at k; exact walk_answerCue k _ _ _ _ _ _
        · next e => rw [e] at k; exact k

/-! Ending one alert leaves the other entries. -/

theorem entry_produceAll (l : List ReportBody) (s : State) : (s.produceAll l).alert = s.alert := by
  induction l generalizing s with
  | nil => rfl
  | cons b l ih => exact ih _

theorem entry_closing (i j : Fin 4) (ne : i ≠ j) : (s.entryClosing i).1.alert.entries[j] = s.alert.entries[j] := by
  unfold State.entryClosing
  dsimp only
  split
  · unfold State.closeEntry State.releaseHold
    dsimp only
    simp only [State.onContentEntry_alert, State.onEntry_alert_entries, modifyAt_fin, ne, if_false]
  · simp only [State.onEntry_alert_entries, modifyAt_fin, ne, if_false]

theorem entry_settle (i j : Fin 4) (ne : i ≠ j) : (s.settleEntry i).alert.entries[j] = s.alert.entries[j] := by
  unfold State.settleEntry
  split
  · exact (congrArg (fun u : AlertUnit => u.entries[j]) (entry_produceAll _ _)).trans (entry_closing i j ne)
  · rfl

theorem entry_endService (i : Fin 4) (v : Fin 64) : (s.endService i v).alert.entries = s.alert.entries := by
  unfold State.endService
  split
  · split <;> rfl
  · rfl
  · rfl

theorem entry_endAlert (i j : Fin 4) (r : AlertEnd) (ne : i ≠ j) :
    (s.endAlert i r).alert.entries[j] = s.alert.entries[j] := by
  have fold : ∀ (l : List (Fin 64)) (s : State),
      (l.foldl (fun s v => s.endService i v) s).alert.entries = s.alert.entries := by
    intro l
    induction l with
    | nil => intro s; rfl
    | cons a l ih => intro s; exact (ih _).trans (entry_endService _ _)
  unfold State.endAlert
  dsimp only
  refine (entry_settle _ _ ne).trans ((congrArg (fun v : Vector AlertEntry 4 => v[j]) (fold _ _)).trans ?_)
  simp only [State.onEntry_alert_entries, modifyAt_fin, ne, if_false]

theorem walk_endAlerts (l : List (Fin 4)) {s : State} (h : Run s0 n s m) (r : AlertEnd) (once : l.Nodup)
    (active : ∀ i ∈ l, s.alert.entries[i].state = .active) : Run s0 n (l.foldl (fun s i => s.endAlert i r) s) m := by
  induction l generalizing s with
  | nil => exact h
  | cons i l ih =>
    have once := List.nodup_cons.mp once
    have first := walk_endAlert h i r (.inl (active i List.mem_cons_self))
    rw [List.foldl_cons]
    refine ih first once.2 ?_
    intro j hj
    have ne : i ≠ j := fun e => once.1 (e ▸ hj)
    exact (congrArg AlertEntry.state (entry_endAlert i j r ne)).trans (active j (List.mem_cons_of_mem i hj))

theorem walk_handleAlertEnd (h : Run s0 n s m) (ref : CueRef) (id : BitVec 16) :
    Run s0 n (s.handleAlertEnd ref id) m := by
  unfold State.handleAlertEnd
  dsimp only
  split
  · exact walk_answerCue h _ _ _ _ _ _
  · split
    · exact walk_answerCue h _ _ _ _ _ _
    · next i rest e =>
      refine walk_answerCue (walk_endAlerts _ h _ ?_ ?_) _ _ _ _ _ _
      · rw [← e]; exact (List.nodup_finRange 4).filter _
      · intro j hj
        rw [← e] at hj
        have := (List.mem_filter.mp hj).2
        simp only [Bool.and_eq_true, beq_iff_eq] at this
        exact this.1

theorem walk_handleContentDefine (h : Run s0 n s m) (ref : CueRef) (b : DefineBody) :
    Run s0 n (s.handleContentDefine ref b) m := by
  unfold State.handleContentDefine
  dsimp only
  split
  · exact walk_answerCue h _ _ _ _ _ _
  · split
    · exact walk_answerCue h _ _ _ _ _ _
    · next c d _ =>
      split
      · exact walk_answerCue h _ _ _ _ _ _
      · next ok =>
        have fits : s.regionInWindow d = false := by
          unfold State.defineRefusal at ok
          split at ok
          · cases ok
          · split at ok
            · cases ok
            · next f => simpa using f
        exact walk_answerCue (walk_startScan (h.next (.contentDefined s m c d
          (if s.content.entries[c].state = .queued then s.content.scanQueue else s.content.scanQueue ++ [c]) fits))) _ _ _ _ _ _

theorem walk_handleContentRelease (h : Run s0 n s m) (ref : CueRef) (b : Byte) :
    Run s0 n (s.handleContentRelease ref b) m := by
  unfold State.handleContentRelease
  dsimp only
  split
  · exact walk_answerCue h _ _ _ _ _ _
  · split
    · exact walk_answerCue h _ _ _ _ _ _
    · next c _ =>
      split
      · exact walk_answerCue h _ _ _ _ _ _
      · split
        · exact walk_answerCue h _ _ _ _ _ _
        · exact walk_answerCue (walk_contentNotice (h.next (.contentFreed s m c
            (s.content.scanQueue.filter (· != c)))) c) _ _ _ _ _ _

theorem walk_handleConfigure (h : Run s0 n s m) (ref : CueRef) (r : ConfigRecord) :
    Run s0 n (s.handleConfigure ref r) m := walk_answerCue (walk_configure h false r) _ _ _ _ _ _

theorem walk_applyGroups (h : Run s0 n s m) : Run s0 n s.applyGroups m :=
  walk_alert h (fun u => { u with activeMaps := u.stagedMaps }) rfl

theorem walk_setPending (h : Run s0 n s m) (r : CueRef) :
    Run s0 n (s.onCue fun u => { u with pendingApply := some r }) m :=
  walk_cue h (fun u => { u with pendingApply := some r }) rfl

theorem walk_handleApplyStaged (h : Run s0 n s m) (ref : CueRef) (g a : Bool) :
    Run s0 n (s.handleApplyStaged ref g a) m := by
  have pend {s : State} (h : Run s0 n s m) : Run s0 n (s.pendApply ref) m := by
    unfold State.pendApply
    dsimp only
    split
    · exact walk_setPending (walk_answerCue h _ _ _ _ _ _) _
    · exact walk_setPending h _
  unfold State.handleApplyStaged
  dsimp only
  split
  · exact walk_answerCue h _ _ _ _ _ _
  · split
    · exact walk_answerCue h _ _ _ _ _ _
    · generalize hx : (if g = true then s.applyGroups else s : State) = x
      have k : Run s0 n x m := by
        rw [← hx]
        split
        · exact walk_applyGroups h
        · exact h
      split
      · exact pend k
      · exact walk_answerCue k _ _ _ _ _ _

theorem walk_handleAckError (h : Run s0 n s m) (ref : CueRef) : Run s0 n (s.handleAckError ref) m := by
  unfold State.handleAckError
  dsimp only
  split
  · exact walk_answerCue (walk_fault h fun u => { u with capture := none }) _ _ _ _ _ _
  · exact walk_answerCue h _ _ _ _ _ _

theorem walk_handleBypass (h : Run s0 n s m) (ref : CueRef) : Run s0 n (s.handleBypass ref) m := by
  unfold State.handleBypass
  split
  · exact walk_answerCue h _ _ _ _ _ _
  · exact walk_bypassRest _ rfl (h.next (.latchedOut s m .cue h.out))

theorem walk_handleResume (h : Run s0 n s m) (ref : CueRef) : Run s0 n (s.handleResume ref) m := by
  have k := walk_report h fun u => { u with halted := false }
  exact walk_answerCue (k.next (.resumed _ _ k.out)) _ _ _ _ _ _

theorem walk_handleCue (h : Run s0 n s m) (ref : CueRef) (b : List Byte) : Run s0 n (s.handleCue ref b) m := by
  unfold State.handleCue
  split
  · exact walk_handleSplice h _ _ _
  · exact walk_handleSplice h _ _ _
  · exact walk_handleCancel h _ _ _
  · exact walk_handleFlush h _ _
  · exact walk_handleReturnNow h _ _
  · exact walk_handleAlertStart h _ _
  · exact walk_handleAlertEnd h _ _
  · exact walk_handleContentDefine h _ _
  · exact walk_handleContentRelease h _ _
  · split
    · exact walk_handleConfigure h _ _
    · exact walk_answerCue h _ _ _ _ _ _
  · exact walk_handleApplyStaged h _ _ _
  · exact walk_handleAckError h _
  · exact walk_handleBypass h _
  · exact walk_handleResume h _
  · exact walk_answerCue h _ _ _ _ _ _

theorem walk_takeCue (h : Run s0 n s m) (r : CueRing) (e : s.cue.ring = some r) : Run s0 n (s.takeCue r) m := by
  unfold State.takeCue
  dsimp only
  refine walk_handleCue (walk_handCueTaken (walk_cue h _ ?_) _) _ _
  rw [e]
  rfl

theorem walk_takeCues (fuel : Nat) {s : State} (h : Run s0 n s m) : Run s0 n (s.takeCues fuel) m := by
  induction fuel generalizing s with
  | zero => exact h
  | succ fuel ih =>
    unfold State.takeCues
    split
    · exact h
    · next r e =>
      split
      · exact ih (walk_takeCue h r e)
      · exact h

theorem walk_cueBeat (h : Run s0 n s m) (a : Nat) (d : BeatData) (e : Enables) : Run s0 n (s.cueBeat a d e) m := by
  unfold State.cueBeat
  split
  · exact h
  · exact walk_takeCues _ (h.next (.ringWritten _ _ _ _ _))

/-! ## Start-up Loader -/

theorem walk_beginRead (h : Run s0 n s m) (k : Nat) : Run s0 n (s.beginRead k) m := walk_emit (walk_loader h _) _

theorem walk_endStartUp (h : Run s0 n s m) (f : Option StartFailure) : Run s0 n (s.endStartUp f) m := by
  have k := walk_general (walk_loader h (fun u => { u with stage := .ended, boot := none })
    fun _ h => nomatch h) (.started ((s.onLoader fun u => { u with stage := .ended, boot := none }).startReport f))
  unfold State.endStartUp
  dsimp only
  generalize (s.onLoader fun u => { u with stage := .ended, boot := none }).produce _ = x at k ⊢
  have l := k.next (.starts _ _ k.out)
  refine walk_takeCues _ ?_
  cases e : x.fault.enters with
  | bypass =>
    have same : (x.onFault fun u => { u with part := u.enters }) = x.onFault fun u => { u with part := .bypass } := by
      simp [State.onFault, e]
    exact walk_bypassRest [] rfl (same ▸ l)
  | operating =>
    have same : (x.onFault fun u => { u with part := u.enters }) = x.onFault fun u => { u with part := .operating } := by
      simp [State.onFault, e]
    exact same ▸ l
  | starting =>
    unfold FaultUnit.enters at e
    split at e <;> cases e

theorem walk_failStartUp (h : Run s0 n s m) (f : StartFailure) : Run s0 n (s.failStartUp f) m :=
  walk_endStartUp (walk_raise h _ _ _ _) _

theorem walk_loadRecord (h : Run s0 n s m) (b : Bool) (r : ConfigRecord) : Run s0 n (s.loadRecord b r) m := by
  unfold State.loadRecord
  dsimp only
  refine walk_loader (walk_configure h true r) _ fun x hx => ⟨x, ?_, rfl⟩
  unfold StartLoader.count at hx
  split at hx <;> exact hx

theorem walk_takeBoot (h : Run s0 n s m) (b : BootShadow) (e : s.loader.boot = some b) : Run s0 n (s.takeBoot b) m := by
  have k := walk_loader h (fun u =>
    { u with boot := some { b with committed := b.committed.set b.head false, head := b.head + 1 } })
    fun x hx => ⟨b, e, by cases hx; rfl⟩
  unfold State.takeBoot
  dsimp only
  split
  · exact walk_endStartUp k _
  · exact walk_failStartUp k _
  · split
    · exact walk_loadRecord k _ _
    · exact walk_endStartUp (walk_loadRecord k _ _) _

theorem walk_snoopBoot (fuel : Nat) {s : State} (h : Run s0 n s m) : Run s0 n (s.snoopBoot fuel) m := by
  induction fuel generalizing s with
  | zero => exact h
  | succ fuel ih =>
    unfold State.snoopBoot
    split
    · next b _ e =>
      split
      · exact ih (walk_takeBoot h b e)
      · exact h
    · exact h

theorem walk_bootBeat (h : Run s0 n s m) (a : Nat) (d : BeatData) (e : Enables) : Run s0 n (s.bootBeat a d e) m := by
  unfold State.bootBeat
  split
  · exact walk_snoopBoot _ (h.next (.bootWritten _ _ _ _ _))
  · exact h

theorem walk_endEeprom (h : Run s0 n s m) : Run s0 n s.endEeprom m := by
  unfold State.endEeprom
  split
  · exact walk_snoopBoot _ (walk_loader h fun u => { u with stage := .snoop })
  · exact walk_endStartUp h _

theorem walk_eepromEnds (h : Run s0 n s m) (k : Nat) (r : EepromRead) : Run s0 n (s.eepromEnds k r) m := by
  unfold State.eepromEnds
  split
  · exact walk_failStartUp h _
  · split
    · exact walk_endEeprom h
    · exact walk_failStartUp h _
    · dsimp only
      split
      · exact walk_beginRead (walk_loadRecord h _ _) _
      · exact walk_endEeprom (walk_loadRecord h _ _)

end Sys2Proof.Machine
end

