-- ==== Sys2Proof/Laws/WalkExec.lean ====
section
/-! SUPPORT. The walk through the memory path and playout, and with it every command: `exec_moves`, `step_moves`. -/

namespace Sys2Proof.Machine

-- One after another: in the package as one text too many proofs would else wait on one another at once.
set_option Elab.async false

variable {s0 s : State} {n m : Nat}

/-! ## Playout (07) -/

theorem walk_completeStaging (h : Run s0 n s m) (b : Fin 8) (p : List Byte) (o : PlayOutcome) :
    Run s0 n (s.completeStaging b p o) m := by
  unfold State.completeStaging
  split
  · exact walk_setStaging h _ _
  · exact h

theorem walk_finishInsert (h : Run s0 n s m) (b : Fin 8) (p : Option (List Byte)) : Run s0 n (s.finishInsert b p) m := by
  unfold State.finishInsert
  split
  · exact h
  · split
    · dsimp only
      refine walk_letGoDemand ?_ _ _
      split
      · split
        · exact walk_completeStaging h _ _ _
        · exact walk_completeStaging h _ _ _
      · exact walk_completeStaging h _ _ _
    all_goals exact h

theorem walk_armFetch (h : Run s0 n s m) (b : Fin 8) : Run s0 n (s.armFetch b) m := by
  unfold State.armFetch
  split
  · exact walk_setStaging h _ _
  · exact h

theorem walk_obtain (h : Run s0 n s m) (b : Fin 8) (u : StagingUse) (f : Insert) : Run s0 n (s.obtain b u f) m := by
  unfold State.obtain
  split
  · exact walk_finishInsert h _ _
  · exact walk_finishInsert h _ _
  · exact walk_armFetch (walk_setWait h _ _) _
  · exact walk_armFetch (walk_requestDemand h _ _) _

theorem walk_assemble (h : Run s0 n s m) (b : Fin 8) (u : StagingUse) : Run s0 n (s.assemble b u) m := by
  unfold State.assemble
  split
  · exact walk_completeStaging h _ _ _
  · exact walk_setWait (walk_path h _) _ _
  · split
    · exact walk_obtain h _ _ _
    · exact walk_completeStaging h _ _ _

theorem walk_reclaim (h : Run s0 n s m) (b : Fin 8) : Run s0 n (s.reclaim b) m := by
  unfold State.reclaim
  split
  · exact walk_mapSources h _
  · exact h

theorem walk_claim (h : Run s0 n s m) (b : Fin 8) (w : Fin 16) (slot : Nat) (g : Generation) (d : Disposition) :
    Run s0 n (s.claim b w slot g d) m :=
  walk_assemble (walk_path (walk_setStaging (walk_reclaim h _) _ _) _) _ _

theorem walk_onRead (h : Run s0 n s m) (i : Nat) (f : ProcRead → ProcRead) : Run s0 n (s.onRead i f) m := walk_path h _

theorem walk_tie (h : Run s0 n s m) (i : Nat) (slot : SlotRef) (v : Serving) : Run s0 n (s.tie i slot v) m :=
  walk_onRead h _ _

theorem walk_overtake (h : Run s0 n s m) (i : Nat) (slot : SlotRef) : Run s0 n (s.overtake i slot) m :=
  walk_raise (walk_onRead h _ _) _ _ _ _

theorem walk_decideSlot (h : Run s0 n s m) (i : Nat) (slot : SlotRef) (waiting : Bool) :
    Run s0 n (s.decideSlot i slot waiting) m := by
  unfold State.decideSlot
  split
  · exact h
  · dsimp only
    split
    · exact walk_tie h _ _ _
    · split
      · exact walk_tie (walk_claim h _ _ _ _ _) _ _ _
      · exact walk_tie h _ _ _
      · split
        · exact h
        · exact walk_overtake h _ _
      · exact walk_overtake h _ _

theorem walk_decideRead (h : Run s0 n s m) (i : Nat) : Run s0 n (s.decideRead i) m := by
  unfold State.decideRead
  split
  · exact h
  · split
    · refine walk_path h _ ?_
      rfl
    · exact walk_foldl _ _ h fun _ _ h => walk_decideSlot h _ _ _

theorem walk_tellOutcome (h : Run s0 n s m) (x : Source) (a : PlayedAnswer) (o : PlayOutcome) :
    Run s0 n (s.tellOutcome x a o) m := by
  unfold State.tellOutcome
  split
  · exact walk_notice h _ _
  · exact walk_notice h _ _
  · exact h

theorem walk_complete (h : Run s0 n s m) (u : StagingUse) : Run s0 n (s.complete u) m := by
  unfold State.complete
  split
  · exact h
  · dsimp only
    split
    · split
      · exact walk_releasePrefetch (walk_tellOutcome (walk_onSlot h _ _ _) _ _ _) _ _
      · exact walk_tellOutcome (walk_onSlot h _ _ _) _ _ _
    · exact walk_onSlot h _ _ _
    · exact walk_onSlot h _ _ _

theorem walk_touch (h : Run s0 n s m) (b : Fin 8) : Run s0 n (s.touch b) m := by
  unfold State.touch
  split
  · exact walk_setStaging h _ _
  · exact h

theorem walk_returnBeat (h : Run s0 n s m) (tag : Nat) (b : ReadBeat) (x : List (Byte × Bool)) :
    Run s0 n (s.returnBeat tag b x) m := by
  have k := walk_foldl State.touch (servers b.bytes) h fun _ _ h => walk_touch h _
  unfold State.returnBeat
  dsimp only
  refine walk_emit ?_ _
  split
  · exact walk_foldl _ _ k fun _ _ h => walk_complete h _
  · exact k

theorem walk_returnBeats (fuel : Nat) {s : State} (h : Run s0 n s m) (i : Nat) : Run s0 n (s.returnBeats fuel i) m := by
  induction fuel generalizing s with
  | zero => exact h
  | succ fuel ih =>
    unfold State.returnBeats
    split
    · exact h
    · split
      · exact walk_path h _
      · split
        · exact h
        · exact ih (walk_onRead (walk_returnBeat h _ _ _) _ _)

theorem walk_serveRead (h : Run s0 n s m) (i : Nat) : Run s0 n (s.serveRead i) m := by
  have k := walk_decideRead h i
  unfold State.serveRead
  dsimp only
  split
  · exact k
  · exact walk_dropVoids (walk_returnBeats _ k _)

theorem walk_serveReads (fuel : Nat) {s : State} (h : Run s0 n s m) (i : Nat) : Run s0 n (s.serveReads fuel i) m := by
  induction fuel generalizing s i with
  | zero => exact h
  | succ fuel ih =>
    unfold State.serveReads
    dsimp only
    split
    · exact ih (walk_serveRead h _) _
    · exact h

theorem walk_tellStaging (h : Run s0 n s m) (w : StagingWait) (o : Option Owner) (p : Option (List Byte)) :
    Run s0 n (s.tellStaging w o p) m := by
  unfold State.tellStaging
  split
  · exact walk_finishInsert h _ _
  · exact h

theorem walk_ringSlotData (h : Run s0 n s m) (b : Fin 8) (c : Nat) (x : List MemBeat) :
    Run s0 n (s.ringSlotData b c x) m := by
  unfold State.ringSlotData
  split
  · exact h
  · split
    · split
      · split
        · exact walk_completeStaging h _ _ _
        · exact h
        · exact h
      · exact walk_mapSources (walk_setStaging h _ _) _
    · exact h

theorem walk_fetchExpires (h : Run s0 n s m) (b : Fin 8) : Run s0 n (s.fetchExpires b) m := by
  unfold State.fetchExpires
  split
  · exact h
  · split
    · dsimp only
      split
      · exact walk_raise (walk_finishInsert h _ _) _ _ _ _
      · exact walk_finishInsert h _ _
    · exact h
    · exact h

/-! ## The memory path (08) -/

theorem walk_respond (h : Run s0 n s m) (k : Nat) : Run s0 n (s.respond k) m := by
  unfold State.respond
  split
  · exact h
  · split
    · exact walk_emit (walk_path h _) _
    · exact h

theorem walk_endBurst (h : Run s0 n s m) (k : Nat) : Run s0 n (s.endBurst k) m := walk_respond (walk_path h _) _

theorem walk_reportBeat (h : Run s0 n s m) (a : Nat) (d : BeatData) (e : Enables) : Run s0 n (s.reportBeat a d e) m := by
  unfold State.reportBeat
  split
  · exact h
  · split
    · exact walk_report h _
    · exact h

theorem walk_watchers (h : Run s0 n s m) (a : Nat) (d : BeatData) (e : Enables) : Run s0 n (s.watchers a d e) m :=
  walk_bootBeat (walk_reportBeat (walk_cueBeat (walk_ingestBeat h _ _ _) _ _ _) _ _ _) _ _ _

theorem forward_windows (p : PathUnit) (b beat : Nat) (d : BeatData) (e : Enables) :
    (p.forward b beat d e).windows = p.windows := by
  unfold PathUnit.forward
  dsimp only
  split <;> rfl

theorem walk_writeBeat (h : Run s0 n s m) (b beat : Nat) (d : BeatData) (e : Enables) (l : Bool) :
    Run s0 n (s.writeBeat b beat d e l) m := by
  have finish {s : State} (h : Run s0 n s m) : Run s0 n (if l = true then s.endBurst b else s) m := by
    split
    · exact walk_endBurst h _
    · exact h
  unfold State.writeBeat
  dsimp only
  split
  · exact walk_raise (finish (walk_path h _)) _ _ _ _
  · exact walk_raise (finish (walk_path h _)) _ _ _ _
  · exact walk_watchers (finish (walk_path h _ (forward_windows _ _ _ _ _))) _ _ _

theorem walk_decode (h : Run s0 n s m) (r : PortRequest) : Run s0 n (s.decode r) m := by
  unfold State.decode
  split
  · exact walk_writeBeat h _ _ _ _ _
  · exact h
  · exact walk_path h _

theorem walk_unhold (h : Run s0 n s m) (i : Nat) : Run s0 n (s.unhold i) m := walk_path h _

theorem walk_acceptNext (h : Run s0 n s m) {t : State} (e : s.acceptNext = some t) : Run s0 n t m := by
  unfold State.acceptNext at e
  split at e
  · split at e
    · split at e
      · cases e; exact walk_decode (walk_unhold h _) _
      · cases e
    · cases e
  · split at e
    · cases e
    · split at e
      · cases e
      · cases e; exact walk_decode (walk_path (walk_unhold h _) _) _
    · split at e
      · cases e
      · cases e; exact walk_decode (walk_unhold h _) _

theorem walk_servePort (fuel : Nat) {s : State} (h : Run s0 n s m) : Run s0 n (s.servePort fuel) m := by
  induction fuel generalizing s with
  | zero => exact h
  | succ fuel ih =>
    have k := walk_serveReads s.path.reads.length h 0
    unfold State.servePort
    dsimp only
    split
    · next e => exact ih (walk_acceptNext k e)
    · split
      · exact ih k
      · exact k

theorem walk_serve (h : Run s0 n s m) : Run s0 n s.serve m := walk_servePort _ h

theorem walk_presentRequest (h : Run s0 n s m) (r : PortRequest) : Run s0 n (s.presentRequest r) m := walk_path h _

theorem walk_presentRead (h : Run s0 n s m) (t : Nat) (b : BeatAddr) (c : Fin 16) : Run s0 n (s.presentRead t b c) m :=
  walk_serve (walk_presentRequest h _)

theorem walk_runAnswered (h : Run s0 n s m) (i : Nat) (ok : Bool) : Run s0 n (s.runAnswered i ok) m := by
  unfold State.runAnswered
  split
  · exact h
  · exact walk_respond (walk_path h _) _

theorem walk_freeTag (h : Run s0 n s m) (t : Fin 32) : Run s0 n (s.freeTag t) m := walk_path h _

theorem walk_beatArrives (h : Run s0 n s m) (t : Fin 32) (u : TagUse) (r : Nat) (d : BeatData) (ok : Bool) :
    Run s0 n (s.beatArrives t u r d ok) m := by
  have k := walk_mapSources h (ByteSource.arrive r u.got d ok)
  unfold State.beatArrives
  dsimp only
  split
  · exact walk_path k _
  · exact walk_freeTag k _

/-! ## The arbiter, the scanner, the data of the part's own reads -/

theorem walk_issueRead (h : Run s0 n s m) (t : Fin 32) (r : MemRead) : Run s0 n (s.issueRead t r) m :=
  walk_emit (walk_path h _) _

theorem walk_issueFor (h : Run s0 n s m) (r : Requester) (t : Fin 32) : Run s0 n (s.issueFor r t) m := by
  cases r with
  | pass =>
    show Run s0 n (s.issuePass t) m
    unfold State.issuePass
    split
    · exact h
    · exact walk_emit (walk_path h _) _
    · exact walk_issueRead (walk_path h _) _ _
  | fetch =>
    unfold State.issueFor
    dsimp only
    split
    · exact h
    · exact walk_issueRead (walk_path h _) _ _
  | scan =>
    unfold State.issueFor
    dsimp only
    split
    · exact h
    · exact walk_issueRead (walk_content h _) _ _
  | report =>
    unfold State.issueFor
    dsimp only
    split
    · exact h
    · exact walk_emit (walk_report h _) _

theorem walk_wrapApply (h : Run s0 n s m) : Run s0 n s.wrapApply m := by
  unfold State.wrapApply
  split
  · exact h
  · exact walk_general (walk_cue (walk_path h _) fun u => { u with pendingApply := none }) _

theorem walk_grant (h : Run s0 n s m) {t : Fin 32} {s' : State} (e : s.grant t = some s') : Run s0 n s' m := by
  unfold State.grant at e
  dsimp only at e
  split at e
  · split at e
    · cases e
    · split at e
      · cases e; exact walk_issueRead (walk_path h _) _ _
      · cases e
  · split at e
    · cases e
    · split at e
      · cases e
      · cases e
        have k {g : Fin 16} := walk_path (walk_issueFor h (requesterOf s.path.activeTable[g]) t) fun p =>
          { p with phase := g + 1 }
        split
        · exact walk_wrapApply k
        · exact k

theorem scanned_definition (e : ContentEntry) (u : Scan) (r : ScanResult) : (e.scanned u r).definition = e.definition := by
  cases r <;> rfl

theorem walk_endScan (h : Run s0 n s m) (u : Scan) (r : ScanResult) : Run s0 n (s.endScan u r) m := by
  refine walk_startScan (walk_contentNotice (walk_general (walk_content h _ fun c => ?_) _) _)
  dsimp only
  rw [set_fin]
  split
  · next e => subst e; exact scanned_definition _ _ _
  · rfl

theorem walk_checkScan (fuel : Nat) {s : State} (h : Run s0 n s m) : Run s0 n (s.checkScan fuel) m := by
  induction fuel generalizing s with
  | zero => exact h
  | succ fuel ih =>
    unfold State.checkScan
    split
    · exact h
    · split
      · split
        · dsimp only
          split
          · exact ih (walk_content h _)
          · exact walk_endScan h _ _
        · exact walk_endScan h _ _
      · exact walk_endScan h _ _
      · exact h

theorem walk_scanData (h : Run s0 n s m) (k p : Nat) (d : Option (List Byte)) : Run s0 n (s.scanData k p d) m := by
  unfold State.scanData
  split
  · exact h
  · split
    · exact walk_checkScan _ (walk_content h _)
    · exact h

theorem walk_prefetchArrives (h : Run s0 n s m) (b : Fin 256) (x : List MemBeat) : Run s0 n (s.prefetchArrives b x) m := by
  unfold State.prefetchArrives
  split
  · exact walk_content h _
  · split
    · exact walk_tellStaging (walk_content h _) _ _ _
    · exact walk_tellStaging (walk_raise (walk_content h _) _ _ _ _) _ _ _
  all_goals exact h

theorem walk_demandArrives (h : Run s0 n s m) (b : Fin 4) (x : List MemBeat) : Run s0 n (s.demandArrives b x) m := by
  unfold State.demandArrives
  split
  · exact walk_serveDemandWait (walk_content h _)
  · split
    · exact walk_tellStaging (walk_content h _) _ _ _
    · exact walk_tellStaging (walk_raise (walk_content h _) _ _ _ _) _ _ _
  all_goals exact h

theorem walk_headerArrives (h : Run s0 n s m) (v : Fin 64) (k a : Nat) (x : List MemBeat) :
    Run s0 n (s.headerArrives v k a x) m := walk_onFields h _ _

theorem walk_takeIssued (h : Run s0 n s m) (i : Nat) : Run s0 n (s.takeIssued i) m := walk_report h _

theorem walk_reportAnswered (h : Run s0 n s m) (w : ReportWrite) (ok : Bool) : Run s0 n (s.reportAnswered w ok) m := by
  unfold State.reportAnswered
  split
  · exact h
  · split
    · split
      · exact h.next (.recordWriteEnds s m _ _)
      · exact walk_report h _
      · exact walk_raise (walk_report h _) _ _ _ _
    · exact h

/-! ## The shapes of commands -/

/-- The answer of a command is reached by moves wherever it answers a next state. -/
def Walks (s : State) (o : Result) : Prop := ∀ t, o = .next t → Moves s 0 t 0

theorem walks_next (s : State) : Walks s (.next s) := by
  intro t e; cases e; exact .refl s 0

theorem walks_when (b : Bool) (f : State → State)
    (w : s.resetHeld = false → b = true → Run s 0 s 0 → Run s 0 (f s) 0) : Walks s (s.when b f) := by
  intro t e
  unfold State.when at e
  split at e
  · next c =>
    simp only [Bool.and_eq_true, Bool.not_eq_true'] at c
    cases e
    exact (walk_epilogue (w c.1 c.2 ⟨.refl s 0, c.1⟩)).moves
  · cases e; exact .refl s 0

theorem walks_onPort (b k : Bool) (f : State → State) (w : Run s 0 s 0 → Run s 0 (f s) 0) : Walks s (s.onPort b k f) := by
  intro t e
  unfold State.onPort at e
  split at e
  · next c =>
    simp only [Bool.and_eq_true, Bool.not_eq_true'] at c
    split at e
    · cases e
      exact (walk_epilogue (w ⟨.refl s 0, c.1⟩)).moves
    · cases e
  · cases e; exact .refl s 0

theorem walk_handleRecord (h : Run s0 n s m) (o : Origin) (r : ConfigRecord) : Run s0 n (s.handleRecord o r) m := by
  cases o with
  | cue ref => exact walk_handleConfigure h _ _
  | eeprom => exact walk_loadRecord h _ _
  | boot => exact walk_loadRecord h _ _

theorem walk_pinAsserted (h : Run s0 n s m) : Run s0 n s.pinAsserted m := by
  unfold State.pinAsserted
  dsimp only
  split
  · exact walk_bypassRest [] rfl (h.next (.pinOut s m h.out))
  · next e => exact h.next (.pinKept s m (by simpa using e))

theorem walks_release (a b : Bool) : Walks s (execResetNRelease a b s) := by
  intro t e
  unfold execResetNRelease at e
  split at e
  · next c =>
    cases e
    have r : Moves s 0 { s with resetHeld := false } 0 := .released s 0
    have out : Run s 0 ({ s with resetHeld := false } : State) 0 := ⟨r, rfl⟩
    have mode (x : StartMode) := walk_loader out fun u => { u with mode := some x }
    refine (walk_epilogue ?_).moves
    unfold State.startLoading
    dsimp only
    split
    · refine walk_endStartUp ⟨.releasedAside s 0 _ c, rfl⟩ none
    · exact walk_beginRead (mode _) _
    · exact (mode _).next (.bootStarts _ _ _ rfl)
    · exact walk_beginRead ((mode _).next (.bootStarts _ _ _ rfl)) _
  · cases e; exact .refl s 0

/-- Every command but RESET_N_ASSERT changes the state by moves. -/
theorem exec_moves (c : Instr) (s t : State) (h : exec c s = .next t) (ne : c ≠ .resetNAssert) : Moves s 0 t 0 := by
  suffices Walks s (exec c s) from this t h
  cases c with
  | resetNAssert => exact absurd rfl ne
  | resetNRelease a b => exact walks_release a b
  | bypassNAssert =>
    show Walks s (execBypassNAssert s)
    unfold execBypassNAssert
    split
    · next c => intro t e; cases e; exact .pinInReset s 0 true c
    · exact walks_when _ _ fun _ _ h => walk_pinAsserted h
  | bypassNRelease =>
    show Walks s (execBypassNRelease s)
    unfold execBypassNRelease
    split
    · next c => intro t e; cases e; exact .pinInReset s 0 false c
    · exact walks_when _ _ fun o _ h => h.next (.pinCleared s 0 o)
  | processorWriteBeat b d e l =>
    show Walks s (execProcessorWriteBeat b d e l s)
    unfold execProcessorWriteBeat
    exact walks_onPort _ _ _ fun h => walk_serve (walk_presentRequest (walk_path h _) _)
  | passThroughRead t b c =>
    show Walks s (execPassThroughRead t b c s)
    unfold execPassThroughRead
    exact walks_onPort _ _ _ fun h => walk_presentRead h _ _ _
  | viewRead t b c =>
    show Walks s (execViewRead t b c s)
    unfold execViewRead
    exact walks_onPort _ _ _ fun h => walk_presentRead h _ _ _
  | forwardedWriteResponse r ok =>
    show Walks s (execForwardedWriteResponse r ok s)
    unfold execForwardedWriteResponse
    exact walks_when _ _ fun _ _ h => walk_runAnswered h _ _
  | passThroughReadData t d ok =>
    show Walks s (execPassThroughReadData t d ok s)
    unfold execPassThroughReadData
    split
    · exact walks_when _ _ fun _ _ h => walk_serve (walk_beatArrives h _ _ _ _ _)
    · exact walks_next s
  | stagingSlotReadData t x =>
    show Walks s (execStagingSlotReadData t x s)
    unfold execStagingSlotReadData
    split
    · exact walks_onPort _ _ _ fun h => walk_serve (walk_ringSlotData (walk_freeTag h _) _ _ _)
    · exact walks_next s
  | viewPrefixReadData t d ok =>
    show Walks s (execViewPrefixReadData t d ok s)
    unfold execViewPrefixReadData
    split
    · exact walks_when _ _ fun _ _ h => walk_serve (walk_beatArrives h _ _ _ _ _)
    · exact walks_next s
  | prefetchDataArrival t x =>
    show Walks s (execPrefetchDataArrival t x s)
    unfold execPrefetchDataArrival
    split
    · exact walks_onPort _ _ _ fun h => walk_serve (walk_prefetchArrives (walk_freeTag h _) _ _)
    · exact walks_next s
  | demandDataArrival t x =>
    show Walks s (execDemandDataArrival t x s)
    unfold execDemandDataArrival
    split
    · exact walks_onPort _ _ _ fun h => walk_serve (walk_demandArrives (walk_freeTag h _) _ _)
    · exact walks_next s
  | headerReadData t x =>
    show Walks s (execHeaderReadData t x s)
    unfold execHeaderReadData
    split
    · exact walks_onPort _ _ _ fun h => walk_headerArrives (walk_freeTag h _) _ _ _ _
    · exact walks_next s
  | scanReadData t x =>
    show Walks s (execScanReadData t x s)
    unfold execScanReadData
    split
    · exact walks_onPort _ _ _ fun h => walk_scanData (walk_freeTag h _) _ _ _
    · exact walks_next s
  | reportRecordWriteResponse w ok =>
    show Walks s (execReportRecordWriteResponse w ok s)
    unfold execReportRecordWriteResponse
    split
    · exact walks_when _ _ fun _ _ h => walk_reportAnswered (walk_takeIssued h _) _ _
    · exact walks_next s
  | reportHeaderWriteResponse w ok =>
    show Walks s (execReportHeaderWriteResponse w ok s)
    unfold execReportHeaderWriteResponse
    split
    · exact walks_when _ _ fun _ _ h => walk_reportAnswered (walk_takeIssued h _) _ _
    · exact walks_next s
  | arbiterGrant t =>
    show Walks s (execArbiterGrant t s)
    unfold execArbiterGrant
    split
    · next e => exact walks_when _ _ fun _ _ h => walk_serve (walk_grant h e)
    · exact walks_next s
  | eepromRecordRead r =>
    show Walks s (execEepromRecordRead r s)
    unfold execEepromRecordRead
    split
    · exact walks_onPort _ _ _ fun h => walk_eepromEnds h _ _
    all_goals exact walks_next s
  | silenceExpiry v =>
    show Walks s (execSilenceExpiry v s)
    unfold execSilenceExpiry
    exact walks_when _ _ fun _ _ h => walk_silenceOccurs h _
  | insertionCloseExpiry i =>
    show Walks s (execInsertionCloseExpiry i s)
    unfold execInsertionCloseExpiry
    refine walks_when _ _ fun _ d h => walk_producing (walk_closeRecord h i _ (.inr ?_))
    revert d
    cases s.splice.records[i].closeExpiry <;> simp [due]
  | returningStationBound i =>
    show Walks s (execReturningStationBound i s)
    unfold execReturningStationBound
    exact walks_when _ _ fun _ _ h => walk_onRecord h _ _
  | alertStationBound v =>
    show Walks s (execAlertStationBound v s)
    unfold execAlertStationBound
    exact walks_when _ _ fun _ _ h => walk_onRun h _ _
  | fetchDeadline b =>
    show Walks s (execFetchDeadline b s)
    unfold execFetchDeadline
    exact walks_when _ _ fun _ _ h => walk_serve (walk_fetchExpires h _)
  | alertDurationExpiry i =>
    show Walks s (execAlertDurationExpiry i s)
    unfold execAlertDurationExpiry
    refine walks_when _ _ fun _ d h => walk_endAlert h i _ (.inr ?_)
    revert d
    cases s.alert.entries[i].durationExpiry <;> simp [due]
  | alertCloseExpiry i =>
    show Walks s (execAlertCloseExpiry i s)
    unfold execAlertCloseExpiry
    refine walks_when _ _ fun _ d h => walk_producing (walk_closeEntry h i _ (.inr ?_))
    revert d
    cases s.alert.entries[i].closeExpiry <;> simp [due]
  | holdoffExpiry k i =>
    show Walks s (execHoldoffExpiry k i s)
    unfold execHoldoffExpiry
    exact walks_when _ _ fun _ _ h => walk_report h _
  | spliceAtTime r b =>
    show Walks s (execSpliceAtTime r b s)
    unfold execSpliceAtTime
    exact walks_when _ _ fun _ _ h => walk_handleSplice h _ _ _
  | spliceAtMark r b =>
    show Walks s (execSpliceAtMark r b s)
    unfold execSpliceAtMark
    exact walks_when _ _ fun _ _ h => walk_handleSplice h _ _ _
  | cancel r v i =>
    show Walks s (execCancel r v i s)
    unfold execCancel
    exact walks_when _ _ fun _ _ h => walk_handleCancel h _ _ _
  | flushService r v =>
    show Walks s (execFlushService r v s)
    unfold execFlushService
    exact walks_when _ _ fun _ _ h => walk_handleFlush h _ _
  | returnNow r v =>
    show Walks s (execReturnNow r v s)
    unfold execReturnNow
    exact walks_when _ _ fun _ _ h => walk_handleReturnNow h _ _
  | alertStart r b =>
    show Walks s (execAlertStart r b s)
    unfold execAlertStart
    exact walks_when _ _ fun _ _ h => walk_handleAlertStart h _ _
  | alertEnd r i =>
    show Walks s (execAlertEnd r i s)
    unfold execAlertEnd
    exact walks_when _ _ fun _ _ h => walk_handleAlertEnd h _ _
  | contentDefine r b =>
    show Walks s (execContentDefine r b s)
    unfold execContentDefine
    exact walks_when _ _ fun _ _ h => walk_handleContentDefine h _ _
  | contentRelease r c =>
    show Walks s (execContentRelease r c s)
    unfold execContentRelease
    exact walks_when _ _ fun _ _ h => walk_handleContentRelease h _ _
  | window o r =>
    show Walks s (execWindow o r s)
    unfold execWindow
    exact walks_when _ _ fun _ _ h => walk_serve (walk_handleRecord h _ _)
  | service o r =>
    show Walks s (execService o r s)
    unfold execService
    exact walks_when _ _ fun _ _ h => walk_handleRecord h _ _
  | group o r =>
    show Walks s (execGroup o r s)
    unfold execGroup
    exact walks_when _ _ fun _ _ h => walk_handleRecord h _ _
  | arbiter o r =>
    show Walks s (execArbiter o r s)
    unfold execArbiter
    exact walks_when _ _ fun _ _ h => walk_handleRecord h _ _
  | limits o r =>
    show Walks s (execLimits o r s)
    unfold execLimits
    exact walks_when _ _ fun _ _ h => walk_handleRecord h _ _
  | policy o r =>
    show Walks s (execPolicy o r s)
    unfold execPolicy
    exact walks_when _ _ fun _ _ h => walk_handleRecord h _ _
  | applyStaged r g a =>
    show Walks s (execApplyStaged r g a s)
    unfold execApplyStaged
    exact walks_when _ _ fun _ _ h => walk_handleApplyStaged h _ _ _
  | ackError r =>
    show Walks s (execAckError r s)
    unfold execAckError
    exact walks_when _ _ fun _ _ h => walk_handleAckError h _
  | bypass r =>
    show Walks s (execBypass r s)
    unfold execBypass
    exact walks_when _ _ fun _ _ h => walk_handleBypass h _
  | resume r =>
    show Walks s (execResume r s)
    unfold execResume
    exact walks_when _ _ fun _ _ h => walk_handleResume h _

theorem tick_moves (s : State) : Moves s 0 s.tick 0 :=
  (Moves.time s 0 (s.clock + 1)).trans ((Moves.chosen { s with clock := s.clock + 1 } 0
    (interleave ({ s with clock := s.clock + 1 } : State).dueCommands.length s.free
      (({ s with clock := s.clock + 1 } : State).dueCommands.map fun c => [c])).2).trans
    (.pending { s with clock := s.clock + 1, free := _ } 0 _))

/-- What RESET_N_ASSERT leaves (R189, DESIGN CHOICE, log 5). -/
def State.resetFrom (s : State) : State :=
  { State.reset with
    pending := s.pending, free := s.free, fault := { State.reset.fault with pinHold := s.fault.pinHold } }

/-- Every step changes the state by moves, or takes RESET_N_ASSERT from the queue. -/
theorem step_moves (s t : State) (h : step s = .next t) : Moves s 0 t 0 ∨ ∃ q, t = (s.withPending q).resetFrom := by
  unfold step at h
  split at h
  · next c rest _ =>
    by_cases e : c = .resetNAssert
    · subst e
      cases h
      exact .inr ⟨rest, rfl⟩
    · exact .inl ((Moves.pending s 0 rest).trans (exec_moves c _ t h e))
  · split at h
    · cases h; exact .inl (.refl s 0)
    · cases h; exact .inl (tick_moves s)

/-- A promise that every move keeps, and that holds after RESET_N, holds after every step. -/
theorem step_keeps (P : State → Nat → Prop) (moves : ∀ s n t m, Moves s n t m → P s n → P t m)
    (reset : ∀ s : State, P s.resetFrom 0) (s t : State) (h : step s = .next t) (p : P s 0) : P t 0 := by
  rcases step_moves s t h with mv | ⟨q, e⟩
  · exact moves s 0 t 0 mv p
  · exact e ▸ reset _

end Sys2Proof.Machine
end

