-- ==== Sys2Proof/Tests/Slice0.lean ====
section
/-! SUPPORT. The model's own tests: small states, the checks of WellFormed, worked examples of the spec, and for each statement of
Certificates/Slice0/Obligations.lean that has hypotheses a state and operands that meet them (`meets_…`). -/

namespace Sys2Proof.Tests

open Sys2Proof.Machine

-- One after another: a theorem that the kernel evaluates waits for all before it.
set_option Elab.async false

/-! ## Small states -/

/-- OPERATING, with nothing configured. -/
def on : State := { State.reset with resetHeld := false, fault := { part := .operating } }

/-- In BYPASS by a BYPASS cue. -/
def aside : State := on.onFault fun u => { u with part := .bypass, latch := some .cue }

/-- INGEST window 0 of 64 slots of stride 256 and rate 38 Mbit/s, VIEW 1 of it, CUE 2, REPORT 3. -/
def windows : Vector WindowEntry 16 :=
  ((((Vector.replicate 16 .empty).set 0 (.ingest 0x10000 64 256 38000000)).set 1 (.view 0x20000 0)).set 2
    (.cue 0x30000 16)).set 3 (.report 0x40000 64)

/-- The windows stand, each with its owner's state as R158 sets it up; window 0 has taken slot 0 as packet 10. -/
def mapped : State :=
  (((on.onPath fun p => { p with windows := windows }).onIngest fun u =>
      { u with assembly := u.assembly.set 0 (some { lastTake := some (0, 10) }) }).onSlots fun u =>
        { u with records := u.records.set 0 (List.replicate 64 {}) }).onCue fun u =>
          { u with ring := some ⟨[], List.replicate 16 false, 0, 0⟩ }

/-- A service of a VIDEO component, its clock component, and an AUDIO component. -/
def service : Service := ⟨0, 0, [⟨0x100, 0x200, .video⟩, ⟨0x101, 0x201, .audio⟩]⟩

/-- A clock of 10,000 ticks a packet, LOCKED at packet 10 with the value 3,000,000. -/
def clock : Clock := ⟨.locked, some (3000000, 10), 655360000, 4, 0, some 0, 0, some 13500000⟩

/-- Content of four packets with a VIDEO component. -/
def clip : ContentDef := ⟨0x100000, 4, 188, [⟨0x300, .video⟩]⟩

/-- The service is defined and locked, and content 0 is READY. -/
def served : State :=
  (((mapped.onIngest fun u =>
    { u with services := u.services.set 0 (some service), inputCC := u.inputCC.set 0 [{}, {}] }).setClock 0 (some clock)).onFields
      0 fun f => { f with outputCC := [{}, {}] }).onContentEntry 0 fun _ =>
        { state := .ready, definition := some clip, iFirst := some ⟨300, 0, 0⟩, firstCC := [some 3] }

/-- A cue as taken from slot 2, the eighth. -/
def ref : CueRef := ⟨7, 2, 0x55⟩

/-- A splice cue with W and D at the ends of their ranges. -/
def body : SpliceBody := ⟨0, 0, true, 0x1234, 2 ^ 33 - 1, 0xFFFFFFFF, 0xFFFFFFFF⟩

/-- A time cue at T = 10,000. -/
def timeCue : SpliceCue := ⟨ref, false, 0x99, 0, 10000, 90000, 900000, true⟩

/-- The service's queue holds one ARMED time cue, with its test and the content's hold. -/
def armed : State :=
  ((served.onQueue 0 fun _ => [⟨timeCue, .armed⟩]).onFields 0 fun f =>
    { f with state := .armed, test := some ⟨timeCue, some 100000, none, false⟩ }).onContentEntry 0 fun e =>
      { e with useCount := 1 }

/-- Insertion record 3 is ACTIVE on service 0. -/
def inserting : State :=
  ((served.onRecord 3 fun r =>
    { r with state := .active, inserted := 4, outstanding := 2, aired := 2, cursor := 1, planned := 4 }).onFields 0 fun f =>
      { f with state := .inserting, current := some 3, outputCC := [⟨some 8, 0, none⟩, {}] }).onReport fun u =>
        { u with reservation := 1 }

/-- Alert entry 1 is ACTIVE with id 9 and airs on service 0. -/
def airing : State :=
  ((served.onEntry 1 fun e => { e with state := .active, alertId := 9, durationExpiry := some 0 }).onAlert fun u =>
    { u with overlays := u.overlays.set 0 (.airing 1 0) }).onFields 0 fun f =>
      { f with alertHold := true, run := some ⟨1, 0, .full, 0, false, 2, 77, false, none, .unset⟩ }

/-- EEPROM record 4 is being read. -/
def loading : State :=
  (on.onFault fun u => { u with part := .starting }).onLoader fun u => { u with mode := some .eeprom, stage := .eeprom 4 }

/-- A read tag is in use for that read. -/
def tagged (s : State) (count : Nat) (use : ReadUse) : State :=
  s.onPath fun p => { p with tags := p.tags.set 4 (some ⟨⟨0x1050, count, use⟩, 0⟩) }

/-- The INSERT disposition of content packet 2 for insertion record 3, with prefetch buffer 9. -/
def fields : Insert := ⟨⟨0x200, 4, false⟩, .insertion 3 0, 2, 77, some 9⟩

/-- A staging buffer for slot 5 of window 0 under that disposition, waiting. -/
def waiting (w : StagingWait) : StagingUse :=
  ⟨0, 5, 1, ⟨.insert fields, false⟩, false, false, .none, none, some 0, w, 0, 77⟩

/-- One for a PASS disposition. -/
def passing : StagingUse := ⟨0, 5, 1, ⟨.pass none, false⟩, false, false, .none, none, none, .ringSlot, 0, 77⟩

/-- The target of the fetch of content packet 2. -/
def target : FetchTarget := ⟨0, 2, 0, 0x100178⟩

/-- A take notice of an entry point with its clock reference at index 12. -/
def notice : TakeNotice := ⟨0, 0, 0, 5, 1, 12, true, true, true, false, none, true, 6, false⟩

/-- Packets of beats that came OK, or with an error. -/
def beats (n : Nat) (ok : Bool) : List MemBeat := List.replicate n ⟨0x47, ok⟩

/-! ## What the hypotheses about the port and the staging buffers come to -/

/-- The port has those reads outstanding and is at rest otherwise, as a test. -/
def serves (s : State) (reads : List ProcRead) : Bool :=
  s.path.held.isEmpty && s.path.presented.isNone && s.path.openBurst.isNone && decide (s.path.reads = reads)
    && s.path.bursts.isEmpty && decide (s.path.passQueue.length < Config.passDepth)
    && (s.path.passQueue.all fun q =>
      match q with
      | .write r => decide (r.burst < s.path.nextBurst)
      | .read _ => true)
    && (List.finRange 8).all fun b =>
      match s.path.staging[b] with
      | some u => !u.void
      | none => true

theorem portServes {s : State} {reads : List ProcRead} (h : serves s reads = true) : s.PortServes reads := by
  simp only [serves, Bool.and_eq_true, List.isEmpty_iff, Option.isNone_iff_eq_none, decide_eq_true_eq, List.all_eq_true,
    List.mem_finRange, true_imp_iff] at h
  obtain ⟨⟨⟨⟨⟨⟨⟨a, b⟩, c⟩, d⟩, e⟩, f⟩, g⟩, k⟩ := h
  refine ⟨a, b, c, d, e, f, fun q hq r hr => ?_, fun x u hu => ?_⟩
  · have := g q hq
    subst hr
    exact of_decide_eq_true this
  · have := k x
    rw [hu] at this
    simpa using this

/-- A window's fields lie in their ranges, as a test. -/
def ranged (e : WindowEntry) : Bool :=
  match e with
  | .empty => true
  | .ingest base slots stride rate =>
    decide (base % 64 = 0 ∧ 64 ≤ slots ∧ slots ≤ 4096 ∧ strideValid stride = true ∧ base + slots * stride ≤ addressLimit ∧
      Config.rateLow ≤ rate ∧ rate ≤ Config.rateHigh)
  | .view base _ => decide (base % 64 = 0)
  | .cue base slots => decide (base % 64 = 0 ∧ 16 ≤ slots ∧ slots ≤ 256 ∧ base + slots * 64 ≤ addressLimit)
  | .report base records =>
    decide (base % 64 = 0 ∧ 64 ≤ records ∧ records ≤ 65536 ∧ base + 64 + records * 128 ≤ addressLimit)

theorem inRange {e : WindowEntry} (h : ranged e = true) : e.InRange := by
  cases e with
  | empty => trivial
  | ingest | view | cue | report => simpa only [ranged, WindowEntry.InRange, decide_eq_true_eq] using h

theorem tableHolds {s : State} (h : (∀ i : Fin 16, ranged s.path.windows[i] = true) ∧
    tableValid s.path.windows s.definedContents = true) : s.TableHolds :=
  ⟨fun i => inRange (h.1 i), h.2⟩

/-- The port is at rest, as a test. -/
abbrev quiet (s : State) : Bool := serves s []

theorem portQuiet {s : State} (h : quiet s = true) : s.PortQuiet := portServes h

/-- A read that waits on memory and a write burst that waits on its response are outstanding. -/
def busy (s : State) : State :=
  s.onPath fun p => { p with reads := [⟨7, [⟨false, [.memory 3 0]⟩]⟩], bursts := [⟨0, false, false, 1, true⟩] }

theorem busy_waits {s : State} (h : s.path.held = []) (o : s.path.openBurst = none)
    (v : ∀ b : Fin 8, s.path.staging[b] = none) : (busy s).PortWaits := by
  refine ⟨h, o, fun r k => ?_, fun b u k => ?_⟩
  · obtain rfl := List.mem_singleton.1 k
    exact ⟨_, _, rfl, by simp, by simp [State.Awaits]⟩
  · exact absurd ((v b).symm.trans k) nofun

/-- The insertion's place is reserved. -/
theorem inserting_room : inserting.RoomKept := by
  have h : ∀ i : Fin 64, ∀ r ∈ inserting.splice.services[i].current,
    inserting.splice.records[r].state = .active ∧ inserting.splice.records[r].service = i := by decide +kernel
  refine ⟨by decide +kernel, by decide +kernel, fun i r k => h i r k, ?_, ?_, ?_⟩
  all_goals decide +kernel

/-- With every queue empty no head waits on anything. -/
theorem noHead {s : State} (h : ∀ i : Fin 64, s.cue.queues[i] = []) (P : QueueEntry → Prop) :
    ∀ i : Fin 64, ∀ e rest, s.cue.queues[i] = e :: rest → ¬ P e := fun i e rest k => by
  rw [h i] at k
  cases k

/-- A slot that no staging buffer serves. -/
theorem noServes {s : State} {w : Fin 16} {slot : Nat} (h : ∀ b : Fin 8, ∀ u ∈ s.path.staging[b],
    ¬ (u.window = w ∧ u.slot = slot ∧ u.generation = (s.slotRecord w slot).generation)) (b : Fin 8) : ¬ s.Serves w slot b :=
  fun ⟨u, k, e⟩ => h b u k e

/-- A slot that buffer `b` alone serves. -/
theorem oneServes {s : State} {w : Fin 16} {slot : Nat} {b : Fin 8} (h : ∀ b' : Fin 8, ∀ u ∈ s.path.staging[b'],
    u.window = w → u.slot = slot → u.generation = (s.slotRecord w slot).generation → b' = b) {b' : Fin 8}
    (k : s.Serves w slot b') : b' = b := by
  obtain ⟨u, k, e⟩ := k
  exact h b' u k e.1 e.2.1 e.2.2

/-- The head slot of the ring is not committed. -/
theorem rests {s : State} (h : ∀ r ∈ s.cue.ring, r.committed.getD r.head false = false) : State.CuesTaken 0 s s :=
  .rest s (.inr fun r k => h r k)

/-! ## The checks of WellFormed -/

theorem test_wellFormed_read : Instr.wellFormed (.passThroughRead 0 0xFFFFFFFFF 0) = true ∧
    Instr.wellFormed (.passThroughRead 0 0xFFFFFFFFF 1) = false ∧ Instr.wellFormed (.viewRead 0 0xFFFFFFFFF 1) = false := by
  decide

theorem test_wellFormed_beats : Instr.wellFormed (.scanReadData 0 (beats 16 true)) = true ∧
    Instr.wellFormed (.scanReadData 0 (beats 17 true)) = false ∧ Instr.wellFormed (.headerReadData 0 []) = false ∧
    Instr.wellFormed (.stagingSlotReadData 0 []) = false ∧ Instr.wellFormed (.prefetchDataArrival 0 []) = false ∧
    Instr.wellFormed (.demandDataArrival 0 []) = false := by decide

theorem test_wellFormed_eeprom : Instr.wellFormed (.eepromRecordRead (.record (List.replicate 64 0))) = true ∧
    Instr.wellFormed (.eepromRecordRead (.record (List.replicate 63 0))) = false := by decide

theorem test_wellFormed_holdoff : Instr.wellFormed (.holdoffExpiry .ccGap 63) = true ∧
    Instr.wellFormed (.holdoffExpiry .syncLoss 16) = false := by decide

theorem test_wellFormed_ref : Instr.wellFormed (.ackError ⟨0, 255, 0⟩) = true ∧
    Instr.wellFormed (.ackError ⟨0, 256, 0⟩) = false ∧ Instr.wellFormed (.group (.cue ⟨0, 256, 0⟩) ⟨0, 0⟩) = false := by decide

theorem test_wellFormed_records : Instr.wellFormed (.service .eeprom ⟨0, 0, 1, 0, []⟩) = false ∧
    Instr.wellFormed (.policy .boot ⟨1, []⟩) = false ∧ Instr.wellFormed (.policy .boot ⟨14, []⟩) = true := by decide

/-! ## Worked examples -/

/-- R30: P0 at the ends of the range of rates. -/
theorem test_startP : startP 620000 = 4292396593 ∧ startP 150000000 = 17741905 := by decide

/-- 4.2: content packet 10 at base 0x0200000000, stride 192. -/
theorem test_contentAddress : contentPacketAddress ⟨0x0200000000, 11, 192, []⟩ 10 = 0x0200000784 := by decide

/-- R190: the bus steps of EEPROM record 5, at offset 320. -/
theorem test_eepromSteps : (eepromSteps 5).take 4 = [.start, .send 0xA0, .send 1, .send 0x40] ∧
    (eepromSteps 5).length = 71 := by decide

/-- The example of 5.8: the PASS delta after packet 9 has followed output counter 0 is 8. -/
theorem test_passDelta : (OutputCC.give ⟨some 0, 10, none⟩ false 9 true) = (1, ⟨some 1, 8, none⟩) := by decide

/-- The example of 2.4: the third error above 2,700 in a row loses the lock. -/
theorem test_unlock : (Clock.normal { clock with bad := 2 } ⟨0, 0, false⟩ 2710 120).1.state = .acquire := by decide

/-- R34: the error is brought into −M/2 .. M/2 − 1 across the wrap of the clock. -/
theorem test_clockError : clockError 5 2576980377599 = 6 ∧ clockError 2576980377599 5 = -6 := by decide

/-- R161: phase 15 of the default table is SCAN's; a code that names no requester is taken as PASS. -/
theorem test_requesters : defaultTable[15] = 2 ∧ requesterOf 2 = .scan ∧ requesterOf 77 = .pass := by decide

/-- R155: a packet byte of a view, and prefix bytes in stride 192. -/
theorem test_wantAt : wantAt (windows.set 0 (.ingest 0x10000 64 192 38000000)) (0x20000 + 192) = .direct (0x10000 + 192) ∧
    wantAt (windows.set 0 (.ingest 0x10000 64 192 38000000)) (0x20000 + 196) =
      .packet ⟨0, 1, 0x10000 + 192⟩ 0 (0x10000 + 196) := by
  decide +kernel

/-! ## The hypotheses of the statements are met -/

theorem meets_StepRunsTheFrontCommand :
    ({ on with pending := [.bypassNAssert, .arbiterGrant 0] } : State).pending = .bypassNAssert :: [.arbiterGrant 0] := rfl

theorem meets_IdleStepIsOneTick : on.pending = [] ∧ on.resetHeld = false ∧ State.reset.resetHeld = true := by decide

/-- The command is off the protocol: a second beat that does not follow the first. -/
theorem meets_RefusedExactlyOffProtocol :
    (on.onPath fun p => { p with presented := some (5, 1) }).OffProtocol (.processorWriteBeat 7 0 0 true) :=
  ⟨rfl, 5, 1, rfl, .inl (by decide)⟩

theorem meets_InResetOnlyThePinsAct : State.reset.resetHeld = true ∧ Instr.arbiterGrant 0 ≠ .resetNAssert ∧
    (∀ a b, Instr.arbiterGrant 0 ≠ .resetNRelease a b) ∧ Instr.arbiterGrant 0 ≠ .bypassNAssert ∧
    Instr.arbiterGrant 0 ≠ .bypassNRelease := by decide

theorem meets_ReleaseStartsTheLoad : State.reset.resetHeld = true := rfl

/-- The three hypotheses, in reset, in BYPASS with the pin released, and with it held. -/
theorem meets_PinMovesTheHold : State.reset.resetHeld = true ∧
    (aside.resetHeld = false ∧ aside.fault.part ≠ .operating ∧ aside.fault.pinHold = false) ∧
    ((aside.onFault fun u => { u with pinHold := true }).resetHeld = false ∧
      (aside.onFault fun u => { u with pinHold := true }).fault.pinHold = true) := by decide

/-- An insertion is ACTIVE, with its place reserved. -/
theorem meets_BypassEntry : inserting.resetHeld = false ∧ inserting.fault.part = .operating ∧ inserting.fault.latch = none ∧
    inserting.fault.pinHold = false ∧ inserting.RoomKept :=
  ⟨rfl, rfl, rfl, rfl, inserting_room⟩

/-- A GROUP record, an END record in the mode of EEPROM and in that of both, and a read that is not acknowledged. -/
theorem meets_EepromRecordHandled :
    let record := fun k : Byte => (List.replicate 61 0 ++ [k, 0, 0] : List Byte)
    let both := loading.onLoader fun u => { u with mode := some .both, boot := some {} }
    loading.resetHeld = false ∧ loading.loader.stage = .eeprom 4 ∧
      ((record 3).length = 64 ∧ recordKindByte (record 3) ≠ 0xFF ∧ configRecord (record 3) = some (.group ⟨0, 0⟩)) ∧
      ((record 0xFF).length = 64 ∧ recordKindByte (record 0xFF) = 0xFF ∧ loading.loader.mode = some .eeprom ∧
        loading.fault.pinHold = false ∧ loading.fault.latch = none) ∧
      (both.loader.mode = some .both ∧ both.loader.boot = some {} ∧
        ({} : BootShadow).committed.getD ({} : BootShadow).head false = false) ∧
      loading.cue.ring = none ∧ loading.fault.part = .starting := by decide +kernel

/-- The last beat of the boot block, at slot 255, which is not taken, and one above it; a beat that commits slot 0 with a GROUP
record, with END and with an unknown kind. -/
theorem meets_EepromRecordHandled_boot :
    let data := fun k : Nat => BitVec.ofNat 128 (k * 2 ^ 104)
    let next := fun k : Nat => (⟨({} : BootShadow).shadow.writeLanes 48 (data k) (enabledLanes 0xFF00),
      ({} : BootShadow).committed.set 0 true, 0⟩ : BootShadow)
    let bytes := fun k : Nat => (next k).shadow.readBytes (64 * (next k).head) 64
    let s := loading.onLoader fun u => { u with mode := some .boot, stage := .snoop, boot := some {} }
    s.loader.boot = some {} ∧ 0x4000 ≤ 0x4000 ∧ 0x3FF0 < 0x4000 ∧
      (({} : BootShadow).committed.set (0x3FF0 / 64) true).getD ({} : BootShadow).head false = false ∧
      (48 < 0x4000 ∧ 48 % 64 = 48 ∧ (∀ k < 16, 8 ≤ k → (0xFF00 : Enables).getLsbD k = true) ∧ 48 / 64 = 0) ∧
      s.loader.stage = .snoop ∧ (next 3).committed.getD (next 3).head false = true ∧
      (next 3).committed.getD ((next 3).head + 1) false = false ∧ (next 3).head < 255 ∧
      (recordKindByte (bytes 3) ≠ 0xFF ∧ configRecord (bytes 3) = some (.group ⟨0, 0⟩)) ∧
      (recordKindByte (bytes 255) = 0xFF ∧ s.fault.pinHold = false ∧ s.fault.latch = none ∧ s.cue.ring = none) ∧
      (recordKindByte (bytes 77) ≠ 0xFF ∧ configRecord (bytes 77) = none ∧ s.fault.part = .starting) := by decide +kernel

/-- A beat in the VIEW, its lane 3 the first enabled; a beat in held content, its lane 0. -/
theorem meets_RefusedWriteBeat : mapped.PortQuiet ∧ armed.PortQuiet ∧ mapped.resetHeld = false ∧ armed.resetHeld = false ∧
    (mapped.inView (16 * 0x2000 + 3) = true ∧
      ∀ k < 3, (0x0018 : Enables).getLsbD k = true → mapped.inView (16 * 0x2000 + k) = false) ∧
    ((∀ k < 16, (0xFFFF : Enables).getLsbD k = true → armed.inView (16 * 0x10000 + k) = false) ∧
      armed.guarded (16 * 0x10000) = true) :=
  ⟨portQuiet (by decide +kernel), portQuiet (by decide +kernel), by decide +kernel⟩

/-- A beat in the INGEST window; while the boot snoop runs, a beat at the end of its block, in no window. -/
theorem meets_ForwardedWriteBeat :
    let booting := served.onLoader fun u => { u with boot := some {} }
    served.resetHeld = false ∧ served.PortQuiet ∧ booting.PortQuiet ∧
      (∀ k < 16, (0xFFFF : Enables).getLsbD k = true →
        served.inView (16 * 0x1000 + k) = false ∧ served.guarded (16 * 0x1000 + k) = false) ∧
      windowAt served.path.windows (16 * 0x1000) = some 0 ∧
      (∀ k < 16, (0xFFFF : Enables).getLsbD k = true →
        booting.inView (16 * 0x400 + k) = false ∧ booting.guarded (16 * 0x400 + k) = false ∧
          windowAt booting.path.windows (16 * 0x400 + k) = none) ∧ booting.loader.boot ≠ none ∧ 0x4000 ≤ 16 * 0x400 :=
  ⟨rfl, portQuiet (by decide +kernel), portQuiet (by decide +kernel), by decide +kernel⟩

/-- The ring with 10 records produced and 4 consumed: a beat with the four bytes, one without the last. -/
theorem meets_ConsumedCountIsClamped :
    let s := mapped.onReport fun u => { u with ring := some ⟨10, 4, false, none⟩ }
    s.PortQuiet ∧ s.reportWindow = some (0x40000, 64) ∧ s.report.ring = some ⟨10, 4, false, none⟩ ∧
      (∀ k < 4, (0x000F : Enables).getLsbD k = true) ∧ (¬ ∀ k < 4, (0x0007 : Enables).getLsbD k = true) ∧
      s.resetHeld = false ∧ s.loader.boot = none ∧ s.path.windows[3] = .report 0x40000 64 ∧
      ∀ k < 4, windowAt s.path.windows (0x40000 + k) = some 3 ∧ s.guarded (0x40000 + k) = false :=
  ⟨portQuiet (by decide +kernel), by decide +kernel⟩

/-- A ring of sixteen slots, its head slot the last, with some of them committed. -/
def ring (flags : List Nat) : CueRing := ⟨[], (List.range 16).map flags.contains, 15, 41⟩

/-- The state of that ring once a beat has committed `slot`. -/
def committing (flags : List Nat) (slot : Nat) : State := mapped.onCue fun u =>
  { u with ring := some { ring flags with
      shadow := (ring flags).shadow.writeLanes (64 * slot + 48) 0 (enabledLanes 0xFF00)
      committed := (ring flags).committed.set slot true } }

/-- A beat in another window, and one in the CUE window. A beat that commits slot 3 leaves it waiting for the head, and one that commits
the head slot is not taken in STARTING; in OPERATING it is taken alone, or, slot 0 being committed already, both in turn. -/
theorem meets_CommitTakesTheHeadCue :
    let s := mapped.onCue fun u => { u with ring := some (ring []) }
    (∀ base slots, windowAt windows 0x20000 = some 1 ∧ windows[1] ≠ .cue base slots) ∧
      windowAt windows (0x30000 + 64 * 15 + 48) = some 2 ∧ windows[2] = .cue 0x30000 16 ∧
      (∀ k < 16, 8 ≤ k → (0xFF00 : Enables).getLsbD k = true) ∧ State.CuesTaken 0 (committing [] 3) (committing [] 3) ∧
      State.CuesTaken 0 ((committing [] 15).onFault fun u => { u with part := .starting })
        ((committing [] 15).onFault fun u => { u with part := .starting }) ∧
      (∃ t, State.CuesTaken 1 (committing [] 15) t) ∧ (∃ t, State.CuesTaken 2 (committing [0] 15) t) ∧
      s.PortQuiet ∧ s.TableHolds ∧ s.resetHeld = false ∧ s.loader.boot = none ∧
      ∀ k < 16, windowAt s.path.windows (0x30000 + 64 * 3 + 48 + k) = some 2 ∧ s.guarded (0x30000 + 64 * 3 + 48 + k) = false :=
  ⟨fun b n => ⟨by decide +kernel, nofun⟩, by decide +kernel, rfl, by decide, rests (by decide +kernel), .rest _ (.inl rfl),
    ⟨_, .next _ _ _ _ nofun rfl (by decide +kernel) (rests (by decide +kernel))⟩,
    ⟨_, .next _ _ _ _ nofun rfl (by decide +kernel) (.next _ _ _ ⟨[], (List.range 16).map [0].contains, 0, 42⟩
      (by decide +kernel) (by decide +kernel) (by decide +kernel) (rests (by decide +kernel)))⟩,
    portQuiet (by decide +kernel), tableHolds (by decide +kernel), rfl, rfl, by decide +kernel⟩

/-- The last run of a burst, and one before the last. -/
theorem meets_WriteRunAnswered :
    let s := fun runs : Nat => on.onPath fun p => { p with bursts := [⟨3, false, true, runs, true⟩], issuedRuns := [3] }
    (s 1).resetHeld = false ∧ (s 1).path.issuedRuns[0]? = some 3 ∧ (s 1).path.bursts = [⟨3, false, true, 1, true⟩] ∧
      (s 2).path.bursts = [⟨3, false, true, 2, true⟩] := by decide

/-- A read of 16 beats up to the last address. -/
theorem meets_PassThroughReadWaitsWhole : mapped.resetHeld = false ∧ mapped.PortQuiet ∧
    (0xFFFFFFFF0 : BeatAddr).toNat + 15 + 1 ≤ 2 ^ 36 ∧
    ∀ k < 16 * (15 + 1), viewAt mapped.path.windows (16 * (0xFFFFFFFF0 : BeatAddr).toNat + k) = none :=
  ⟨rfl, portQuiet (by decide +kernel), by decide +kernel⟩

/-- A read with beats to come, and its last beat. -/
theorem meets_ReadBeatReturned :
    let s := fun got : Nat => on.onPath fun p =>
      { p with
        tags := p.tags.set 4 (some ⟨⟨0x1000, 3, .pass 6⟩, got⟩)
        reads := [⟨9, (List.range (3 - got)).map fun i =>
          ⟨false, (List.range 16).map fun j => .memory 6 (16 * (got + i) + j)⟩⟩] }
    (s 0).resetHeld = false ∧ (s 0).path.held = [] ∧ (s 0).path.openBurst = none ∧
      (∀ b : Fin 8, ∀ u ∈ (s 0).path.staging[b], u.void = false) ∧
      (s 0).path.tags[4] = some ⟨⟨0x1000, 3, .pass 6⟩, 0⟩ ∧ (s 2).path.tags[4] = some ⟨⟨0x1000, 3, .pass 6⟩, 2⟩ := by
  decide +kernel

/-- In stride 188, packet bytes 0..15 of slot 0 and 172..187 of slot 3 are each one beat of the view. -/
theorem meets_ViewReadFromHeldBuffer :
    let u : StagingUse := { waiting .nothing with slot := 3, held := true, packet := some (List.replicate 188 0) }
    let s := ((inserting.onPath fun p => { p with windows := windows.set 0 (.ingest 0x10000 64 188 38000000) }).onSlot 0 3
      fun _ => ⟨.rest .taken, 1, some u.disposition⟩).setStaging 2 (some u)
    s.PortQuiet ∧ s.resetHeld = false ∧ s.fault.part = .operating ∧
      (∀ j < 16, wantAt s.path.windows (16 * 0x202E + j) =
        .packet ⟨0, 3, 0x10000 + 3 * 188⟩ (172 + j) (0x102E0 + j)) ∧
      (∀ j < 16, wantAt s.path.windows (16 * 0x2000 + j) = .packet ⟨0, 0, 0x10000⟩ j (0x10000 + j)) ∧
      s.path.staging[2] = some u ∧ u.generation = (s.slotRecord 0 3).generation ∧
      ∀ b : Fin 8, ∀ u' ∈ s.path.staging[b], u'.window = 0 → u'.slot = 3 → u'.generation = (s.slotRecord 0 3).generation →
        b = 2 :=
  ⟨portQuiet (by decide +kernel), by decide +kernel⟩

/-- The first beat of the view is of packet bytes that a buffer holds, and the beat before it lies in no VIEW. -/
theorem meets_ViewReadFromHeldBuffer_split :
    let u : StagingUse := { waiting .nothing with slot := 0, held := true, packet := some nullPacket }
    let s := (inserting.onSlot 0 0 fun _ => ⟨.rest .taken, 1, some u.disposition⟩).setStaging 2 (some u)
    s.PortQuiet ∧ s.resetHeld = false ∧ s.fault.part = .operating ∧ (0x1FFF : BeatAddr).toNat + 1 = (0x2000 : BeatAddr).toNat ∧
      (∀ j < 16, viewAt s.path.windows (16 * 0x1FFF + j) = none) ∧
      (∀ j < 16, wantAt s.path.windows (16 * 0x2000 + j) = .packet ⟨0, 0, 0x10000⟩ j (0x10000 + j)) ∧
      s.path.staging[2] = some u ∧ u.generation = (s.slotRecord 0 0).generation ∧
      ∀ b : Fin 8, ∀ u' ∈ s.path.staging[b], u'.window = 0 → u'.slot = 0 → u'.generation = (s.slotRecord 0 0).generation →
        b = 2 :=
  ⟨portQuiet (by decide +kernel), by decide +kernel⟩

/-- R151, R155: in a burst that touches packet bytes a pass-through beat with an error keeps its data, a view beat does not. -/
theorem test_error_of_a_mixed_burst :
    let s := fun view : Bool => on.onPath fun p =>
      { p with
        tags := p.tags.set 4 (some ⟨⟨0x1000, 1, .view 6⟩, 0⟩)
        reads := [⟨9, [⟨view, (List.range 16).map fun j => .memory 6 j⟩, ⟨true, [.memory 7 0]⟩]⟩] }
    ∀ view : Bool, (match exec (.viewPrefixReadData 4 0x47 false) (s view) with
      | .next t => some t.ports
      | _ => none) = some [.readBeat 9 (if view then none else some (beatBytes 0x47)) false] := by decide +kernel

/-- A slot never taken, and one that is filling. -/
theorem meets_ViewReadOvertakes : mapped.resetHeld = false ∧ mapped.PortQuiet ∧ mapped.fault.part = .operating ∧
    mapped.fault.policy[errorNumber .playoutOvertake].severity = .contain ∧
    (∀ j < 16, wantAt mapped.path.windows (16 * 0x2050 + j) = .packet ⟨0, 5, 0x10500⟩ j (0x10500 + j)) ∧
    (mapped.slotRecord 0 5).state = .rest .empty ∧
    ((mapped.onSlot 0 5 fun r => { r with state := .filling .empty }).slotRecord 0 5).state = .filling .empty ∧
    ∀ b : Fin 8, ∀ u ∈ mapped.path.staging[b],
      ¬ (u.window = 0 ∧ u.slot = 5 ∧ u.generation = (mapped.slotRecord 0 5).generation) :=
  ⟨rfl, portQuiet (by decide +kernel), by decide +kernel⟩

/-- All eight buffers are ASSEMBLING for other slots. -/
theorem meets_ViewReadOvertakes_waits :
    let s := (mapped.onPath fun p => { p with staging := Vector.replicate 8 (some { passing with slot := 9 }) }).onSlot 0 5
      fun _ => ⟨.rest .taken, 1, some ⟨.null, false⟩⟩
    s.resetHeld = false ∧ s.PortQuiet ∧ s.fault.part = .operating ∧ (s.slotRecord 0 5).state = .rest .taken ∧
      ∀ b : Fin 8, s.path.staging[b] = some { passing with slot := 9 } :=
  ⟨rfl, portQuiet (by decide +kernel), by decide +kernel⟩

/-- Slot 5 is TAKEN, or PLAYED, with each disposition; its prefetch buffer in each state, or another's; a demand buffer FREE, and
none. -/
theorem meets_ViewReadOvertakes_claim :
    let taken := fun (x : SlotState) (d : Disposition) => inserting.onSlot 0 5 fun _ => ⟨x, 1, some d⟩
    let insert : Disposition := ⟨.insert fields, false⟩
    let fetched := fun p : Prefetch => (taken (.rest .taken) insert).onContent fun u => { u with prefetch := u.prefetch.set 9 p }
    let owner : Owner := ⟨0, 5, ((taken (.rest .taken) insert).slotRecord 0 5).generation⟩
    let s := taken (.rest .taken) insert
    s.resetHeld = false ∧ s.PortQuiet ∧ s.fault.part = .operating ∧ s.ClaimTakes 0 ∧
      (∀ j < 16, wantAt s.path.windows (16 * 0x2050 + j) = .packet ⟨0, 5, 0x10500⟩ j (0x10500 + j)) ∧
      (s.slotRecord 0 5).state = .rest .taken ∧ (s.slotRecord 0 5).disposition = some insert ∧
      ((taken (.rest .played) ⟨.null, false⟩).slotRecord 0 5) = ⟨.rest .played, 1, some ⟨.null, false⟩⟩ ∧
      ((taken (.rest .taken) ⟨.pass none, false⟩).slotRecord 0 5).disposition = some ⟨.pass none, false⟩ ∧
      s.sourceCurrent fields.source = true ∧
      (s.onRecord 3 fun r => { r with generation := 1 }).sourceCurrent fields.source = false ∧ fields.prefetch = some 9 ∧
      (fetched (.ready owner target [])).content.prefetch[9] = .ready owner target [] ∧
      (fetched (.failed owner target)).content.prefetch[9] = .failed owner target ∧
      (fetched (.loading (some owner) target)).content.prefetch[9] = .loading (some owner) target ∧
      s.content.prefetch[9].owner ≠ some owner ∧ s.content.demand[0] = .free ∧
      ∀ q : Fin 4, (s.onContent fun u => { u with demand := Vector.replicate 4 (.loading none target) }).content.demand[q] ≠
        .free :=
  ⟨rfl, portQuiet (by decide +kernel), rfl, .inl ⟨rfl, nofun⟩, by decide +kernel⟩

/-- All eight buffers are HELD: the claim takes the lower of the two that were used longest ago. -/
theorem meets_ViewReadOvertakes_held :
    let u := fun last : StationTime => { waiting .nothing with slot := 9, held := true, lastUse := last }
    let s : State := { (mapped.onPath fun p =>
      { p with staging := ((Vector.replicate 8 (some (u 4))).set 3 (some (u 1))).set 5 (some (u 1)) }) with clock := 9 }
    s.ClaimTakes 3 := by
  intro u s
  have h : ∀ b' : Fin 8, ∀ u' ∈ s.path.staging[b'], u'.held = true → (s.clock - u'.lastUse).toNat < (s.clock - 1).toNat ∨
      ((s.clock - u'.lastUse).toNat = (s.clock - 1).toNat ∧ 3 ≤ b') := by decide +kernel
  exact .inr ⟨by decide +kernel, u 1, rfl, rfl, fun b' u' k => h b' u' k⟩

/-- R137, R150: a beat of two slots with NULL dispositions is answered though all eight buffers are HELD, used at the same time. -/
theorem test_viewRead_twoSlots :
    let held : StagingUse := { passing with held := true, wait := .nothing, packet := some nullPacket, slot := 9 }
    let null : SlotRecord := ⟨.rest .taken, 1, some ⟨.null, false⟩⟩
    let s := ((mapped.onPath fun p =>
      { p with
        windows := windows.set 0 (.ingest 0x10000 64 188 38000000), staging := Vector.replicate 8 (some held) }).onSlot 0 0
          fun _ => null).onSlot 0 1 fun _ => null
    (match exec (.viewRead 7 0x200B 0) s with
      | .next t => some (t.path.reads.isEmpty, t.ports.length, (t.slotRecord 0 0).state)
      | _ => none) = some (true, 1, .rest .played) := by decide +kernel

/-- A malformed packet, its adaptation field too long, and a well-formed one with a clock reference and two timestamps. -/
theorem meets_OutputPacketBytes :
    let filled := fun b : List Byte => b ++ List.replicate (188 - b.length) 0xFF
    let stamped := filled ([0x47, 0x40, 0x20, 0x31, 7, 0x10, 0, 0, 0, 0, 0x7E, 0] ++
      [0, 0, 1, 0xE0, 0, 0, 0x80, 0xC0, 10, 0x31, 0, 1, 0, 1, 0x11, 0, 1, 0, 1])
    nullPacket.length = 188 ∧ 182 + 6 ≤ nullPacket.length ∧
      (let b := filled [0x47, 0x40, 0x20, 0x31, 184]
       b.length = 188 ∧ malformed b = true) ∧ stamped.length = 188 ∧ malformed stamped = false ∧
      (byteAt stamped 5).getLsbD 4 = true ∧ (byteAt stamped (12 + 7)).extractLsb' 6 2 = 3#2 := by decide +kernel

/-- Slot 5 in stride 192, its last 16 bytes read from staging buffer 2. -/
def serving (u : StagingUse) : State :=
  ((inserting.onPath fun p =>
    { p with
      windows := windows.set 0 (.ingest 0x10000 64 192 38000000)
      reads := [servedRead 7 ⟨0, 5, 0x103C0⟩ 172 0x10470 2] }).onSlot 0 5 fun _ =>
    ⟨.rest .taken, 1, some u.disposition⟩).setStaging 2 (some u)

/-- With a read and a write burst outstanding: data for an earlier claim of a buffer, and for a demand buffer that was let go. -/
theorem meets_StagingWaitEnds_stale :
    let old := busy (tagged mapped 12 (.staging 2 76))
    let gone := busy ((tagged mapped 13 (.demand 1)).onContent fun u => { u with demand := u.demand.set 1 (.loading none target) })
    old.PortWaits ∧ gone.PortWaits ∧ old.resetHeld = false ∧
      old.path.tags[4] = some ⟨⟨0x1050, (beats 12 true).length, .staging 2 76⟩, 0⟩ ∧
      (∀ u ∈ (old.setStaging 2 (some passing)).path.staging[2], u.claim ≠ 76) ∧ (∀ u ∈ old.path.staging[2], u.claim ≠ 76) ∧
      gone.path.tags[4] = some ⟨⟨0x1050, (beats 13 true).length, .demand 1⟩, 0⟩ ∧
      gone.content.demand[1] = .loading none target ∧ gone.content.demandWait = [] :=
  ⟨busy_waits rfl rfl (by decide +kernel), busy_waits rfl rfl (by decide +kernel), by decide +kernel⟩

/-- The ring-slot data that a PASS waits for. -/
theorem meets_StagingWaitEnds :
    let s := tagged (serving passing) 12 (.staging 2 77)
    172 + 15 ≤ 187 ∧ s.PortServes [servedRead 7 ⟨0, 5, 0x103C0⟩ 172 0x10470 2] ∧ s.resetHeld = false ∧
      s.fault.part = .operating ∧ s.path.staging[2] = some passing ∧ passing.held = false ∧ passing.packet = none ∧
      s.path.tags[4] = some ⟨⟨0x1050, (beats 12 true).length, .staging 2 passing.claim⟩, 0⟩ ∧
      passing.disposition.action = .pass none ∧ passing.wait = .ringSlot ∧ (beats 12 true).all MemBeat.ok = true ∧
      (beats 12 false).all MemBeat.ok = false :=
  ⟨by decide, portServes (by decide +kernel), by decide +kernel⟩

/-- An INSERT that waits on a prefetch buffer, on a demand buffer and on the list, its source current and not; its deadline is now. -/
theorem meets_StagingWaitEnds_insert :
    let fetching := (tagged (serving (waiting (.prefetch 9))) 13 (.prefetch 9)).onContent fun u =>
      { u with prefetch := u.prefetch.set 9 (.loading (some ⟨0, 5, 1⟩) target) }
    let demanding := (tagged (serving (waiting (.demand 1))) 13 (.demand 1)).onContent fun u =>
      { u with demand := u.demand.set 1 (.loading (some 2) target) }
    let listed := (serving (waiting .demandListed)).onContent fun u => { u with demandWait := [(2, target)] }
    let reads := [servedRead 7 ⟨0, 5, 0x103C0⟩ 172 0x10470 2]
    fetching.PortServes reads ∧ demanding.PortServes reads ∧ listed.PortServes reads ∧
      fetching.path.staging[2] = some (waiting (.prefetch 9)) ∧ demanding.path.staging[2] = some (waiting (.demand 1)) ∧
      listed.path.staging[2] = some (waiting .demandListed) ∧
      (waiting .demandListed).disposition.action = .insert fields ∧ (waiting .demandListed).deadline = some 0 ∧
      (listed.clock - 0).toNat < 2 ^ 47 ∧ listed.fault.policy[errorNumber .fetchLate].severity = .contain ∧
      listed.fault.policy[errorNumber .fetchFail].severity = .contain ∧ listed.sourceCurrent fields.source = true ∧
      (listed.onRecord 3 fun r => { r with generation := 1 }).sourceCurrent fields.source = false ∧
      fetching.path.tags[4] = some ⟨⟨0x1050, (beats 13 true).length, .prefetch 9⟩, 0⟩ ∧
      fetching.content.prefetch[9] = .loading (some ⟨0, 5, 1⟩) target ∧
      (∀ x : Fin 8, ∀ u ∈ fetching.path.staging[x], u.wait = .prefetch 9 → ⟨0, 5, 1⟩ = u.owner → x = 2) ∧
      (⟨0, 5, 1⟩ : Owner) = (waiting (.prefetch 9)).owner ∧
      demanding.path.tags[4] = some ⟨⟨0x1050, (beats 13 true).length, .demand 1⟩, 0⟩ ∧
      demanding.content.demand[1] = .loading (some 2) target ∧ demanding.content.demandWait = [] ∧
      ∀ x : Fin 8, ∀ u ∈ demanding.path.staging[x], u.wait = .demand 1 → x = 2 :=
  ⟨portServes (by decide +kernel), portServes (by decide +kernel), portServes (by decide +kernel), by decide +kernel⟩

/-- No buffer waits on prefetch buffer 9, whose owner is slot 5's take; one waits on it for that take, when slot 7's owns it. -/
theorem meets_PrefetchSettles :
    let s := fun (s : State) (p : Prefetch) => (tagged s 13 (.prefetch 9)).onContent fun u => { u with prefetch := u.prefetch.set 9 p }
    let old := s (serving (waiting (.prefetch 9))) (.loading (some ⟨0, 7, 1⟩) target)
    (s (busy mapped) .free).PortWaits ∧ mapped.PortQuiet ∧
      (s mapped .free).path.tags[4] = some ⟨⟨0x1050, (beats 13 true).length, .prefetch 9⟩, 0⟩ ∧
      (∀ x : Fin 8, ∀ u ∈ mapped.path.staging[x], u.wait ≠ .prefetch 9) ∧
      (s mapped (.loading (some ⟨0, 5, 1⟩) target)).content.prefetch[9] = .loading (some ⟨0, 5, 1⟩) target ∧
      (s mapped (.loading none target)).content.prefetch[9] = .loading none target ∧
      (∀ x : Fin 8, ∀ u ∈ old.path.staging[x], u.wait = .prefetch 9 →
        old.content.prefetch[9].owner ≠ some ⟨u.window, u.slot, u.generation⟩) ∧
      mapped.fault.policy[errorNumber .fetchFail].severity = .contain :=
  ⟨busy_waits rfl rfl (by decide +kernel), portQuiet (by decide +kernel), by decide +kernel⟩

/-- R141: the data of a prefetch buffer that another take has come to own leave a buffer that still waits on it for the old one waiting. -/
theorem test_prefetch_of_another :
    let s := (tagged (serving (waiting (.prefetch 9))) 13 (.prefetch 9)).onContent fun u =>
      { u with prefetch := u.prefetch.set 9 (.loading (some ⟨0, 7, 1⟩) target) }
    (match exec (.prefetchDataArrival 4 (beats 13 true)) s with
      | .next t => some (decide (t.path.staging[2] = some (waiting (.prefetch 9))), t.content.prefetch[9].owner, t.path.reads.length)
      | _ => none) = some (true, some ⟨0, 7, 1⟩, 1) := by decide +kernel

theorem meets_HeaderSettles :
    let s := tagged (served.onFields 0 fun f => { f with standbyQueue := [⟨0, 5, .loading⟩] }) 1 (.header 0 5 0x100000)
    s.resetHeld = false ∧ s.path.tags[4] = some ⟨⟨0x1050, (beats 1 true).length, .header 0 5 0x100000⟩, 0⟩ := by
  decide +kernel

/-- The first of four packets; the only packet of a content, which is its last; a read with an error. -/
theorem meets_ScanChecksThePacket :
    let one : ContentDef := { clip with packets := 1 }
    let u : Scan := ⟨0, 2, 1, 0, [], [none], none, none⟩
    let s := (tagged served 12 (.scan 2 0)).onContent fun x => { x with scan := some u }
    let s' := s.onContentEntry 0 fun e => { e with definition := some one }
    s.resetHeld = false ∧ s.path.tags[4] = some ⟨⟨0x1050, (beats 12 true).length, .scan u.serial 0⟩, 0⟩ ∧
      s.content.scan = some u ∧ s.content.entries[u.content].definition = some clip ∧
      (beats 12 true).all MemBeat.ok = true ∧
      byteAt (bytesOfBeats (contentPacketAddress clip 0) 188 (beats 12 true)) 0 = 0x47 ∧ 0 + 1 < clip.packets ∧
      (beats 12 false).all MemBeat.ok = false ∧ s'.content.entries[u.content].definition = some one ∧
      byteAt (bytesOfBeats (contentPacketAddress one 0) 188 (beats 12 true)) 0 = 0x47 ∧ one.packets ≤ 0 + 1 ∧
      s.content.scanQueue = [] := by decide +kernel

theorem meets_ScanChecksThePacket_heads : ∀ i : Fin 64, ∀ e rest, served.cue.queues[i] = e :: rest →
    ¬ (e.state = .waiting ∧ e.cue.content = 0) :=
  noHead (by decide +kernel) fun e => e.state = .waiting ∧ e.cue.content = 0

/-- The outstanding write, and one that is no longer outstanding. -/
theorem meets_ReportWriteAnswered :
    let s := fun (k : WriteKind) (o : Option Nat) => mapped.onReport fun u =>
      { u with
        issued := [⟨5, k, 0x40040, []⟩], ring := some ⟨10, 4, false, o⟩, reservation := 1
        queue := [⟨.asRun 3 {}, 8, 3⟩] }
    (s (.record 0) (some 5)).resetHeld = false ∧ (s (.record 0) (some 5)).report.issued[0]? = some ⟨5, .record 0, 0x40040, []⟩ ∧
      (s .header (some 5)).report.ring = some ⟨10, 4, false, some 5⟩ ∧
      (s (.record 0) none).report.ring = some ⟨10, 4, false, none⟩ := by decide +kernel

/-- With a read and a write burst outstanding: a demand fetch; then each requester in turn, the phase pointer at 9, the last phase at
15. -/
theorem meets_ArbiterGrants :
    let read : MemRead := ⟨0x55, 4, .pass 3⟩
    let idle := busy (mapped.onPath fun p => { p with phase := 9, nextBurst := 1 })
    let demanding := idle.onPath fun p => { p with demandQueue := [read] }
    let reading := idle.onPath fun p => { p with passQueue := [.read read] }
    let writing := idle.onPath fun p => { p with passQueue := [.write ⟨0, 0x10, [], true⟩] }
    let fetching := idle.onPath fun p => { p with fetchQueue := [⟨0x55, 4, .prefetch 1⟩] }
    let scanning := idle.onContent fun u =>
      { u with entries := u.entries.set 0 { definition := some clip }, scan := some ⟨0, 2, 3, 3, [], [none], none, none⟩ }
    let reporting := idle.onReport fun u => { u with writes := [⟨5, .header, 0x40000, []⟩] }
    (demanding.PortWaits ∧ reading.PortWaits ∧ writing.PortWaits ∧ fetching.PortWaits ∧ scanning.PortWaits ∧
      reporting.PortWaits) ∧ idle.resetHeld = false ∧ demanding.path.demandQueue = [read] ∧ idle.path.demandQueue = [] ∧
      idle.path.tags[4] = none ∧ reading.waiting (requesterOf reading.path.activeTable[9]) = true ∧
      writing.waiting (requesterOf writing.path.activeTable[9]) = true ∧
      (∀ i : Fin 16, i.val < ((10 : Fin 16) - fetching.path.phase).val →
        fetching.waiting (requesterOf fetching.path.activeTable[fetching.path.phase + i]) = false) ∧
      fetching.waiting (requesterOf fetching.path.activeTable[10]) = true ∧
      (∀ i : Fin 16, i.val < ((15 : Fin 16) - scanning.path.phase).val →
        scanning.waiting (requesterOf scanning.path.activeTable[scanning.path.phase + i]) = false) ∧
      scanning.waiting (requesterOf scanning.path.activeTable[15]) = true ∧
      (∀ i : Fin 16, i.val < ((13 : Fin 16) - reporting.path.phase).val →
        reporting.waiting (requesterOf reporting.path.activeTable[reporting.path.phase + i]) = false) ∧
      reporting.waiting (requesterOf reporting.path.activeTable[13]) = true := by
  intro read idle demanding reading writing fetching scanning reporting
  have h : idle.PortWaits := busy_waits rfl rfl (by decide +kernel)
  exact ⟨⟨⟨h.1, h.2, h.3, h.4⟩, ⟨h.1, h.2, h.3, h.4⟩, ⟨h.1, h.2, h.3, h.4⟩, ⟨h.1, h.2, h.3, h.4⟩, ⟨h.1, h.2, h.3, h.4⟩,
    ⟨h.1, h.2, h.3, h.4⟩⟩, by decide +kernel⟩

/-- No byte of the beat in a slot; its last 11 bytes in one; in stride 188, 12 bytes of slot 0 and the first 4 of slot 1. -/
theorem meets_IngestWriteAssembled :
    let dense := windows.set 0 (.ingest 0x10000 64 188 38000000)
    let seen := fun (v : Vector WindowEntry 16) (address : Nat) (enables : Enables) (k : Nat) =>
      if enables.getLsbD k then spanAt v (address + k) else none
    (∀ k < 16, seen windows 0x30000 0xFFFF k = none) ∧
      (∀ k < 16, seen windows 0x10010 0x7FF0 k = if 4 ≤ k ∧ k < 4 + 11 then some (0, 0, 20 + (k - 4)) else none) ∧
      ∀ k < 16, seen dense 0x100B0 0xFFFF k = if k < 12 then some (0, 0, 176 + k) else some (0, 1, k - 12) := by
  decide +kernel

/-- Each assembly mode, with a write of 187 bytes at most; the write that fills slot 63, whose next is slot 0. -/
theorem meets_IngestWriteAssembled_modes :
    let s := fun m : AssemblyMode => mapped.onIngest fun u => { u with assembly := u.assembly.set 0 (some ⟨m, some (0, 10)⟩) }
    let idle := fun (s : State) (slot : Nat) => ∀ b : Fin 8, ∀ u ∈ s.path.staging[b],
      ¬ (u.window = 0 ∧ u.slot = slot ∧ u.generation = (s.slotRecord 0 slot).generation)
    (s .seeking).path.windows[0] = .ingest 0x10000 64 256 38000000 ∧
      (s .seeking).fault.policy[errorNumber .sequenceBreak].severity = .contain ∧ (beats 187 true).length < 188 ∧
      (∀ m ∈ [.seeking, .expecting 63, .inSlot 63 (List.replicate 172 0)],
        (s m).ingest.assembly[0] = some ⟨m, some (0, 10)⟩ ∧ idle (s m) 63 ∧ idle (s m) 0) ∧
      List.replicate 172 (0 : Byte) ≠ [] ∧ (List.replicate 172 (0 : Byte)).length + 16 = 188 ∧
      idle ((s (.inSlot 63 (List.replicate 172 0))).take 0 63 none) 0 ∧ (63 + 1) % 64 = 0 := by decide +kernel

/-- Slot 63, which no staging buffer serves; slot 5 of `serving`, whose buffer is HELD, waits for a prefetch, or for a demand fetch. -/
theorem meets_TakeStoresTheDisposition :
    let demanding := (serving (waiting (.demand 1))).onContent fun u => { u with demand := u.demand.set 1 (.loading (some 2) target) }
    let held := serving { waiting .nothing with held := true, packet := some nullPacket }
    served.ingest.assembly[0] = some ⟨.seeking, some (0, 10)⟩ ∧ served.path.windows[0] = .ingest 0x10000 64 256 38000000 ∧
      (∀ b : Fin 8, ¬ served.Serves 0 63 b) ∧
      (∀ b : Fin 8, demanding.Serves 0 5 b → b = 2) ∧ (∀ b : Fin 8, held.Serves 0 5 b → b = 2) ∧
      (demanding.path.staging[2] = some (waiting (.demand 1)) ∧ demanding.content.demand[1] = .loading (some 2) target ∧
        demanding.content.demandWait = []) ∧
      (∀ k ∈ [ErrorKind.ingestOverrun, .syncLoss, .transportFlag, .malformedPacket, .ccGap],
        served.fault.policy[errorNumber k].severity = .contain) ∧
      byteAt [0x46, 0, 0, 0] 0 ≠ 0x47 ∧ byteAt nullPacket 0 = 0x47 ∧ served.lookup 0 (packetPid nullPacket) = none ∧
      byteAt [0x47, 0x41, 0, 0x17] 0 = 0x47 ∧ served.lookup 0 (packetPid [0x47, 0x41, 0, 0x17]) = some (0, 0) ∧
      served.ingest.services[0] = some service :=
  ⟨rfl, rfl, noServes (by decide +kernel), fun _ => oneServes (by decide +kernel), fun _ => oneServes (by decide +kernel),
    by decide +kernel⟩

/-- R147: a take of a slot whose staging buffer is HELD frees it, and its read is decided afresh; of one that waits makes it VOID, with
INGEST_OVERRUN. -/
theorem test_take_staging :
    let held := (serving { waiting .nothing with held := true, packet := some nullPacket }).take 0 5 none
    let void := (serving (waiting .demandListed)).take 0 5 none
    held.path.staging[2] = none ∧ held.path.reads = [⟨7, [⟨true, (List.range 16).map fun j =>
        .packet ⟨0, 5, 0x103C0⟩ (172 + j) (0x10470 + j) .undecided⟩]⟩] ∧
      (void.path.staging[2].map fun u => (u.void, u.deadline)) = some (true, none) ∧
      void.report.queue.length = held.report.queue.length := by decide +kernel

/-- Slot 5 is TAKEN, or FILLING over a take, with each old disposition, and its prefetch buffer in each state, or another's. -/
theorem meets_OverrunDiscardsTheOldDisposition :
    let s := fun (x : SlotState) (a : Action) => inserting.onSlot 0 5 fun _ => ⟨x, 1, some ⟨a, false⟩⟩
    let fetched := fun p : Prefetch => (s (.rest .taken) (.insert fields)).onContent fun u => { u with prefetch := u.prefetch.set 9 p }
    inserting.ingest.assembly[0] = some ⟨.seeking, some (0, 10)⟩ ∧
      inserting.path.windows[0] = .ingest 0x10000 64 256 38000000 ∧
      (∀ a ∈ [Action.pass none, .null, .insert fields], ∀ x ∈ [SlotState.rest .taken, .filling .taken],
        ((s x a).slotRecord 0 5).state = x ∧ ((s x a).slotRecord 0 5).disposition = some ⟨a, false⟩) ∧
      (∀ b : Fin 8, ¬ (s (.rest .taken) (.insert fields)).Serves 0 5 b) ∧ inserting.path.reads = [] ∧
      inserting.fault.policy[errorNumber .ingestOverrun].severity = .contain ∧ fields.prefetch = some 9 ∧
      (s (.rest .taken) (.insert fields)).content.prefetch[9].owner ≠ some ⟨0, 5, 1⟩ ∧
      (fetched (.loading (some ⟨0, 5, 1⟩) target)).content.prefetch[9] = .loading (some ⟨0, 5, 1⟩) target ∧
      (fetched (.ready ⟨0, 5, 1⟩ target [])).content.prefetch[9] = .ready ⟨0, 5, 1⟩ target [] ∧
      (fetched (.failed ⟨0, 5, 1⟩ target)).content.prefetch[9] = .failed ⟨0, 5, 1⟩ target ∧
      byteAt nullPacket 0 = 0x47 ∧ inserting.lookup 0 (packetPid nullPacket) = none :=
  ⟨rfl, rfl, by decide +kernel, noServes (by decide +kernel), by decide +kernel⟩

/-- The spacing at the end of its range with an error of 2,700,000, in ACQUIRE and in LOCKED; and one that is a jump. -/
theorem meets_ClockSampleHandled : served.timebase.clocks[0] = some clock ∧ clock.state ≠ .none ∧
    clock.anchor = some (3000000, 10) ∧
    (let n : Count32 := 10 + 1048576
     let d := (n - 10).toNat
     let predicted := (3000000 + (clock.p * d + 32768) / 65536) % 2576980377600
     d = 1048576 ∧ ∀ e ∈ ([2700000, 2700001, -2701, -1288490188800] : List Int),
       ((((predicted : Int) + e) % 2576980377600 - predicted - e) % 2576980377600 = 0) ∧
         -1288490188800 ≤ e ∧ e < 1288490188800) := by decide +kernel

theorem meets_NetworkTime : served.timebase.clocks[0] = some clock ∧ clock.state ≠ .none ∧
    clock.anchor = some (3000000, 10) := by decide +kernel

theorem meets_OutputCounterContinues : (⟨none, 0, none⟩ : OutputCC).last = none ∧
    (⟨some 15, 0, none⟩ : OutputCC).last = some 15 := by decide

theorem meets_NetworkPacketPasses : served.alert.overlays[0] = .none ∧ served.splice.services[0].state = .idle ∧
    served.splice.services[0].test = none ∧ service.comps[0]? = some ⟨0x100, 0x200, .video⟩ := by decide +kernel

/-- On air: INSERTING at the last packet, its head of each form, with a duration reached and none to run; EXHAUSTED and RETURNING, at
a packet that is no entry point, with and without network time. -/
theorem meets_ContentOnAir :
    let s := fun (state : SpliceState) (d : Nat) => ((inserting.onRecord 3 fun y =>
      { y with cursor := 3, d := d, tOut := 9100 }).onFields 0 fun f => { f with state := state }).setClock 0 (some clock)
    let head := fun h : HeaderState => (s .inserting 0).onFields 0 fun f => { f with runQueue := [⟨3, 7, h⟩], roleMap := [some 0] }
    (∀ x ∈ [SpliceState.inserting, .exhausted, .returning], ∀ d ∈ [0, 900, 901],
      (s x d).alert.overlays[0] = .none ∧ (s x d).splice.services[0].current = some 3 ∧
        (s x d).splice.services[0].test = none ∧ (s x d).splice.services[0].state = x ∧
        (s x d).content.entries[(s x d).splice.records[3].content].definition = some clip) ∧
      (s .inserting 0).t90 0 10 = some 10000 ∧ hasReached 10000 (9100 + BitVec.ofNat 33 900) = true ∧
      hasReached 10000 (9100 + BitVec.ofNat 33 901) = false ∧ 3 < clip.packets ∧ clip.packets ≤ 3 + 1 ∧
      ((s .exhausted 0).setClock 0 none).t90 0 10 = none ∧ (s .returning 0).splice.records[3].bound ≠ .passed ∧
      (s .returning 0).splice.records[3].deadline = none ∧
      entryPoint service { notice with randomAccess := false } = false ∧
      hasReached 10000 (10000 + BitVec.ofNat 33 (s .returning 0).limits.tolerance) = false ∧
      (∀ h ∈ [HeaderState.ready ⟨0x300, true, 3, true⟩, .failed, .loading],
        (head h).splice.services[0].runQueue = ⟨3, 7, h⟩ :: []) ∧
      clip.comps.findIdx? (·.pid == 0x300) = some 0 ∧ (head .failed).splice.services[0].roleMap.getD 0 none = some 0 ∧
      (s .inserting 0).splice.services[0].roleMap.getD 0 none = none ∧
      service.comps[0]? = some ⟨0x100, 0x200, .video⟩ := by decide +kernel

/-- An alert airs, in FULL mode and in the audio mode, inside the content, at its last packet, and at a run start with each head. -/
theorem meets_ContentOnAir_alert :
    let run := fun (mode : AlertMode) (start : Bool) (cursor : Nat) => (⟨1, 0, mode, 0, start, cursor, 77, false, none, .unset⟩ : AlertRun)
    let s := fun (q : AlertRun) (h : HeaderState) => airing.onFields 0 fun f =>
      { f with run := some q, runQueue := [⟨q.cursor, 7, h⟩] }
    (∀ q ∈ [run .full false 2, run .full false 3, run .full true 0, run .audioOnly false 3],
      ∀ h ∈ [HeaderState.ready ⟨0x300, true, 3, true⟩, .failed, .loading],
        (s q h).alert.overlays[0] = .airing 1 0 ∧ (s q h).splice.services[0].run = some q ∧ q.returning = false ∧
          (s q h).splice.services[0].test = none ∧ (s q h).content.entries[q.content].definition = some clip ∧
          q.cursor < clip.packets ∧ (s q h).splice.services[0].runQueue = ⟨q.cursor, 7, h⟩ :: []) ∧
      (service.comps[0]?.map Component.role ≠ some .audio ∧ service.comps[1]?.map Component.role = some .audio) ∧
      airing.content.entries[0].iFirst = some ⟨300, 0, 0⟩ ∧ (airing.t27 0 12).isSome = true ∧
      (airing.setClock 0 none).t27 0 12 = none := by decide +kernel

/-- The first packet at which t90 has reached T, record 0 in use. -/
theorem meets_SpliceOut :
    let s := ((armed.onFields 0 fun f => { f with standbyQueue := [⟨0, 5, .ready ⟨0x300, true, 3, true⟩⟩] }).onRecord 0 fun r =>
      { r with state := .closing }).onReport fun u => { u with reservation := 67 }
    s.alert.overlays[0] = .none ∧ s.splice.services[0].state = .armed ∧ s.splice.services[0].alertHold = false ∧
      s.splice.services[0].test = some ⟨timeCue, some 100000, none, false⟩ ∧ entryPoint service notice = true ∧
      s.timebase.clocks[0] = some clock ∧
      hasReached (BitVec.ofNat 33 ((3000000 + (clock.p * 2 + 32768) / 65536) % 2576980377600 / 300)) timeCue.t = true ∧
      s.report.reservation < 68 ∧ s.splice.records[1].state = .free ∧
      (∀ r : Fin 68, r < 1 → s.splice.records[r].state ≠ .free) ∧ s.cue.queues[0] = [⟨timeCue, .armed⟩] ∧
      s.content.entries[0].definition = some clip ∧ s.content.entries[0].iFirst = some ⟨300, 0, 0⟩ ∧ 2 ≤ clip.packets ∧
      clip.comps.findIdx? (·.pid == 0x300) = some 0 ∧ (roleMap clip.comps service.comps).getD 0 none = some 0 := by
  decide +kernel

/-- A mark cue whose mark has been seen, at a packet that is no entry point. -/
theorem meets_SpliceOut_mark :
    let test : CueTest := ⟨{ timeCue with mark := true }, some 100000, none, true⟩
    let s := armed.onFields 0 fun f => { f with test := some test }
    s.splice.services[0].test = some test ∧ (if test.cue.mark then test.markSeen = true else False) ∧
      entryPoint service { notice with randomAccess := false } = false := by decide +kernel

/-- The cue test of service 0, in ARMED: a splice point at which each of the conditions fails, a packet that is none, t90 at the end of
the tolerance and short of it, a mark cue with its mark seen and not, a packet that carries a mark; in EXHAUSTED; in RETURNING. -/
theorem meets_SpliceOut_misses :
    let test := fun mark seen : Bool => (⟨{ timeCue with mark := mark, t := 9000, w := 1000 }, some 10000, none, seen⟩ : CueTest)
    let tested := fun x : CueTest => armed.onFields 0 fun f => { f with test := some x }
    let ended := fun x : SpliceState => ((tested (test true true)).onFields 0 fun f => { f with state := x, current := some 3 }).onRecord
      3 fun y => { y with cursor := 4, d := 90000 }
    armed.alert.overlays[0] = .none ∧ armed.splice.services[0].test ≠ none ∧ armed.cue.queues[0] = [⟨timeCue, .armed⟩] ∧
      armed.splice.services[0].state = .armed ∧ service.comps[0]? = some ⟨0x100, 0x200, .video⟩ ∧
      (armed.setClock 0 none).timebase.clocks[0].map Clock.state ≠ some .locked ∧
      (armed.onFields 0 fun f => { f with alertHold := true }).splice.services[0].alertHold = true ∧
      68 ≤ (armed.onReport fun u => { u with reservation := 68 }).report.reservation ∧
      (∀ r : Fin 68, (armed.onSplice fun u => { u with records := Vector.replicate 68 { state := .closing } }).splice.records[r].state ≠
        .free) ∧
      entryPoint service notice = true ∧ entryPoint service { notice with randomAccess := false } = false ∧
      armed.t90 0 10 = some 10000 ∧ hasReached 10000 (9000 + BitVec.ofNat 33 1000) = true ∧
      hasReached 10000 (9000 + BitVec.ofNat 33 1001) = false ∧ (armed.setClock 0 none).t90 0 10 = none ∧
      (entryComponent service.comps == some 0 && ({ notice with countdown := some 0 } : TakeNotice).countdown == some 0) = true ∧
      (ended .exhausted).splice.services[0].current = some 3 ∧ (ended .returning).splice.records[3].cursor = 4 ∧
      (ended .returning).packetCount (ended .returning).splice.records[3].content ≤ 4 ∧
      hasReached 10000 (0 + BitVec.ofNat 33 90000) = false ∧
      ((ended .returning).splice.records[3].deadline.or (some (10000 + BitVec.ofNat 33 180000))).any (hasReached 10000) = false := by
  decide +kernel

/-- Record 3 returns on service 0, at an entry point; at another packet, the return deadline reached, at its last value; and with no
network time, the station bound passed. -/
theorem meets_ReturnAtAnEntryPoint :
    let s := inserting.onFields 0 fun f => { f with state := .returning }
    let late := s.onRecord 3 fun y => { y with deadline := some 10000 }
    let bound := (s.onRecord 3 fun y => { y with bound := .passed }).setClock 0 (some { clock with state := .none })
    s.alert.overlays[0] = .none ∧ s.splice.services[0].state = .returning ∧ s.splice.services[0].current = some 3 ∧
      s.splice.records[3].state = .active ∧ s.splice.records[3].service = 0 ∧ entryPoint service notice = true ∧
      s.splice.services[0].test = none ∧ service.comps[0]? = some ⟨0x100, 0x200, .video⟩ ∧
      late.splice.records[3].deadline = some 10000 ∧ late.t90 0 10 = some 10000 ∧ hasReached 10000 10000 = true ∧
      bound.t90 0 12 = none ∧ bound.splice.records[3].bound = .passed := by decide +kernel

/-- The same with a time cue under test that this packet reaches: a chained return, the lowest FREE record record 0. -/
theorem meets_ReturnAtAnEntryPoint_chained :
    let s := ((armed.onRecord 3 fun r => { r with state := .active }).onFields 0 fun f =>
      { f with
        state := .returning, current := some 3
        standbyQueue := [⟨0, 5, .ready ⟨0x300, true, 3, true⟩⟩] }).onReport fun u => { u with reservation := 67 }
    s.alert.overlays[0] = .none ∧ s.splice.services[0].state = .returning ∧ s.splice.services[0].current = some 3 ∧
      s.splice.records[3].state = .active ∧ s.splice.records[3].service = 0 ∧
      s.splice.services[0].test = some ⟨timeCue, some 100000, none, false⟩ ∧ timeCue.mark = false ∧
      entryPoint service notice = true ∧ s.splice.services[0].alertHold = false ∧ s.timebase.clocks[0] = some clock ∧
      hasReached (BitVec.ofNat 33 ((3000000 + (clock.p * 2 + 32768) / 65536) % 2576980377600 / 300)) timeCue.t = true ∧
      s.report.reservation < 68 ∧ s.splice.records[0].state = .free ∧ s.cue.queues[0] = [⟨timeCue, .armed⟩] ∧
      s.content.entries[0].definition = some clip ∧ s.content.entries[0].iFirst = some ⟨300, 0, 0⟩ ∧ 2 ≤ clip.packets ∧
      clip.comps.findIdx? (·.pid == 0x300) = some 0 ∧ (roleMap clip.comps service.comps).getD 0 none = some 0 ∧
      service.comps[0]? = some ⟨0x100, 0x200, .video⟩ := by decide +kernel

/-- In OPERATING unmasked, masked, and with each state of the holdoff entry; a kind of severity BYPASS in BYPASS and in OPERATING; a
CONFIG_ERROR of severity CONTAIN in STARTING. -/
theorem meets_ErrorsCapturedAndRecorded :
    let policy := fun (s : State) (k : ErrorKind) (p : PolicyItem) =>
      s.onFault fun u => { u with policy := u.policy.set (errorNumber k) p }
    let entry := fun h : Holdoff => on.onReport fun u => { u with holdoff := u.holdoff.set (holdoffIndex .ccGap 63) h }
    (policy aside .ccGap ⟨false, .bypass⟩).fault.policy[errorNumber .ccGap] = ⟨false, .bypass⟩ ∧
      aside.fault.part ≠ .operating ∧ aside.report.holdoff[holdoffIndex .ccGap 63] = .idle ∧
      (policy inserting .ccGap ⟨true, .bypass⟩).fault.policy[errorNumber .ccGap] = ⟨true, .bypass⟩ ∧
      inserting.fault.part = .operating ∧ inserting.report.holdoff[holdoffIndex .ccGap 63] = .idle ∧
      (policy inserting .ccGap ⟨true, .bypass⟩).RoomKept ∧
      (policy loading .configError ⟨false, .contain⟩).fault.part ≠ .operating ∧
      loading.report.holdoff[holdoffIndex .configError 0] = .idle ∧
      on.fault.policy[errorNumber .ccGap] = ⟨false, .contain⟩ ∧
      (policy on .ccGap ⟨true, .contain⟩).fault.policy[errorNumber .ccGap] = ⟨true, .contain⟩ ∧
      (entry (.lapsed 4)).report.holdoff[holdoffIndex .ccGap 63] = .lapsed 4 ∧
      (entry (.holding (2 ^ 32 - 1) 5)).report.holdoff[holdoffIndex .ccGap 63] = .holding (2 ^ 32 - 1) 5 :=
  have h := inserting_room
  ⟨rfl, by decide, rfl, rfl, rfl, rfl, ⟨h.1, h.2, h.3, h.4, h.5, h.6⟩, by decide, rfl, by decide +kernel⟩

/-- At the expiry itself. -/
theorem meets_CloseLimitCloses :
    let s := (inserting.onRecord 3 fun r => { r with state := .closing, closeExpiry := some 0 }).onEntry 1 fun e =>
      { e with state := .closing, closeExpiry := some 0, outstanding := 4 }
    s.resetHeld = false ∧ s.splice.records[3].closeExpiry = some 0 ∧ s.alert.entries[1].closeExpiry = some 0 ∧
      (s.clock - 0).toNat < 2 ^ 47 := by decide +kernel

theorem meets_ExpiriesPass :
    let run : AlertRun := ⟨1, 0, .full, 0, false, 2, 77, false, none, .armed 0⟩
    let c : Clock := { clock with silence := some 0 }
    let s := (((inserting.onRecord 3 fun r => { r with bound := .armed 0 }).onFields 4 fun f => { f with run := some run }).setClock
      0 (some c)).onReport fun u => { u with holdoff := u.holdoff.set (holdoffIndex .ccGap 63) (.holding 3 0) }
    s.resetHeld = false ∧ (s.clock - 0).toNat < 2 ^ 47 ∧ s.timebase.clocks[0] = some c ∧ s.splice.records[3].bound = .armed 0 ∧
      s.splice.services[4].run = some run ∧ 63 < ErrorKind.ccGap.scopeSize ∧
      s.report.holdoff[holdoffIndex .ccGap 63] = .holding 3 0 := by decide +kernel

/-- Alert 1 airs on service 0; the same alert named by no overlay; no ACTIVE alert with id 10. -/
theorem meets_AlertEnds :
    let unnamed := served.onEntry 1 fun e => { e with state := .active, alertId := 9, durationExpiry := some 0 }
    airing.resetHeld = false ∧ airing.alert.overlays[0] = .airing 1 0 ∧
      airing.alert.entries[1].durationExpiry = some 0 ∧ (airing.clock - 0).toNat < 2 ^ 47 ∧ airing.fault.part = .operating ∧
      airing.alert.entries[1].state = .active ∧
      (∀ j : Fin 4, airing.alert.entries[j].state = .active →
        airing.alert.entries[j].alertId = airing.alert.entries[1].alertId → j = 1) ∧
      (∀ j : Fin 64, unnamed.alert.overlays[j] = .none) ∧ unnamed.alert.entries[1].durationExpiry = some 0 ∧
      unnamed.alert.entries[1].state = .active ∧
      (∀ j : Fin 4, unnamed.alert.entries[j].state = .active →
        unnamed.alert.entries[j].alertId = unnamed.alert.entries[1].alertId → j = 1) ∧
      ∀ j : Fin 4, ¬ (airing.alert.entries[j].state = .active ∧ airing.alert.entries[j].alertId = 10) := by decide +kernel

/-- A return packet of service 0: an entry point; another packet at the deadline; one without network time, the bound passed. No
other alert covers the service, or alert 2 does. -/
theorem meets_AlertEnds_return :
    let run : AlertRun := ⟨1, 0, .full, 0, false, 2, 77, true, some 10000, .passed⟩
    let s := ((airing.onAlert fun u => { u with overlays := u.overlays.set 0 (.returning 1 0) }).onEntry 1 fun e =>
      { e with state := .ending }).onFields 0 fun f => { f with run := some run }
    let covered := s.onEntry 2 fun e => { e with state := .active, captured := 1 }
    s.alert.overlays[0] = .returning 1 0 ∧ s.splice.services[0].run = some run ∧ s.splice.services[0].test = none ∧
      entryPoint service notice = true ∧ s.t90 0 10 = some 10000 ∧ hasReached 10000 10000 = true ∧
      (s.setClock 0 none).t90 0 10 = none ∧ service.comps[0]? = some ⟨0x100, 0x200, .video⟩ ∧
      (∀ a : Fin 4, ¬ (s.alert.entries[a].state = .active ∧ s.alert.entries[a].captured.getLsbD 0 = true)) ∧
      (∀ a : Fin 4, (covered.alert.entries[a].state = .active ∧ covered.alert.entries[a].captured.getLsbD 0 = true) ↔ a = 2) ∧
      covered.alert.entries[2].mode = .full ∧
      covered.content.entries[covered.alert.entries[2].content].definition = some clip := by decide +kernel

/-- In BYPASS; in OPERATING with the first value out of range of each field that is checked, and with a service and a content that are
not defined. -/
theorem meets_CuesRefusedUnhandled : aside.resetHeld = false ∧ aside.fault.part = .bypass ∧ on.resetHeld = false ∧
    on.fault.part = .operating ∧ 64 ≤ (64 : Byte).toNat ∧ 128 ≤ (128 : Byte).toNat ∧ 2 ^ 33 ≤ (2 ^ 33 : BitVec 64).toNat ∧
    body.t.toNat < 2 ^ 33 ∧ on.ingest.services[0] = none ∧ on.content.entries[0].state = .free ∧ 4 ≤ (4 : Byte).toNat ∧
    ((2 : Byte) ≠ 0 ∧ (2 : Byte) ≠ 1) ∧ (3 : Byte).toNat < 4 ∧ (1 : Byte) ≠ 0 ∧ 16777215 < (16777216 : BitVec 32).toNat ∧
    (0xFFFFFFFFFE : BitVec 40).toNat % 4 ≠ 0 ∧ 2 ^ 40 < (0xFFFFFFFFFC : BitVec 40).toNat + 1 * 188 ∧ 8 < (9 : Byte).toNat ∧
    (0x1FFF : BitVec 128).extractLsb' (16 * 0) 13 = 8191 := by decide +kernel

/-- A queue of 8 and one of 7; an empty one with content being scanned and FAILED. -/
theorem meets_SpliceCueQueued :
    let queued := fun n : Nat => served.onQueue 0 fun _ => List.replicate n ⟨timeCue, .queued⟩
    let state := fun x : ContentState => served.onContentEntry 0 fun e => { e with state := x }
    served.resetHeld = false ∧ served.fault.part = .operating ∧ body.service.toNat = 0 ∧ body.content.toNat = 0 ∧
      body.t.toNat < 2 ^ 33 ∧ served.ingest.services[0] ≠ none ∧ served.content.entries[0].state ≠ .free ∧
      8 ≤ (queued 8).cue.queues[0].length ∧ (queued 7).cue.queues[0].length < 8 ∧
      ((queued 7).cue.queues.toList.map List.length).sum < 256 ∧ (queued 7).cue.queues[0] ≠ [] ∧
      (state .scanning).cue.queues[0] = [] ∧ (state .scanning).content.entries[0].state = .scanning ∧
      (state .failed).content.entries[0].state = .failed := by decide +kernel

/-- With T as large as it can be, t90 at the last index has not reached T + W; the arming time is 10,000, which is late for a cue whose
T + W it is. -/
theorem meets_SpliceCueArmed : served.resetHeld = false ∧ served.fault.part = .operating ∧ body.t.toNat < 2 ^ 33 ∧
    served.ingest.services[0] = some service ∧ served.content.entries[0].state = .ready ∧
    served.content.entries[0].definition = some clip ∧ served.cue.queues[0] = [] ∧
    (served.cue.queues.toList.map List.length).sum < 256 ∧ served.t90 0 10 = some 10000 ∧
    hasReached 10000 (body.t.setWidth 33 + BitVec.ofNat 33 (2 ^ 24 - 1)) = false ∧
    hasReached 10000 (12000 + BitVec.ofNat 33 (2 ^ 24 - 1)) = false ∧
    hasReached 10000 (9000 + BitVec.ofNat 33 1000) = true := by decide +kernel

theorem meets_CancelAndFlush : armed.resetHeld = false ∧ armed.fault.part = .operating ∧ armed.ingest.services[0] ≠ none ∧
    (∀ e ∈ armed.cue.queues[0], e.cue.cueId ≠ 1) ∧ armed.cue.queues[0] = [⟨timeCue, .armed⟩] ∧ timeCue.cueId = 0x99 ∧
    (armed.onQueue 0 fun q => q ++ [⟨{ timeCue with cueId := 1 }, .queued⟩]).cue.queues[0] =
      [⟨timeCue, .armed⟩] ++ ⟨{ timeCue with cueId := 1 }, .queued⟩ :: [] ∧ served.cue.queues[0] = [] := by decide +kernel

/-- The cancelled head is ARMED, or WAITS; the next entry's content is READY, its cue late or not, SCANNING, or FREE. -/
theorem meets_CancelAndFlush_head :
    let next := fun (x : QueueState) (content : Fin 128) (t : Time90) => armed.onQueue 0 fun _ =>
      [⟨timeCue, x⟩, ⟨{ timeCue with cueId := 1, content := content, t := t }, .queued⟩]
    (next .armed 0 10000).cue.queues[0].head?.map (·.cue.cueId) = some 0x99 ∧ (next .waiting 1 10000).ingest.services[0] ≠ none ∧
      armed.content.entries[0].state = .ready ∧ armed.content.entries[1].state = .free ∧
      (armed.onContentEntry 1 fun e => { e with state := .scanning }).content.entries[1].state = .scanning ∧
      (next .armed 0 10000).lateOn 0 timeCue = false ∧
      (next .armed 0 10000).lateOn 0 { timeCue with t := BitVec.ofNat 33 (2 ^ 33 - 90000) } = true := by decide +kernel

theorem meets_ReturnNowReturns : inserting.resetHeld = false ∧ inserting.fault.part = .operating ∧
    inserting.ingest.services[0] ≠ none ∧ inserting.splice.services[0].current = some 3 ∧
    inserting.splice.services[0].state = .inserting ∧
    (inserting.onFields 0 fun f => { f with state := .returning }).splice.services[0].state = .returning ∧
    served.splice.services[0].current = none := by decide +kernel

/-- Each refusal, and an alert that captures no service, and one that captures the last service. -/
theorem meets_AlertStartHandled :
    let closing := served.onAlert fun u => { u with entries := Vector.replicate 4 { state := .closing } }
    let grouped := served.onAlert fun u => { u with activeMaps := u.activeMaps.set 0 1 }
    served.resetHeld = false ∧ served.fault.part = .operating ∧ served.content.entries[0].state = .ready ∧
      served.content.entries[0].definition = some clip ∧ (3 : Byte).toNat < 4 ∧
      (∀ e : Fin 4, closing.alert.entries[e].state ≠ .free) ∧ (∃ x ∈ clip.comps, x.role ≠ .audio) ∧
      served.report.reservation < 72 ∧ 72 ≤ (served.onReport fun u => { u with reservation := 72 }).report.reservation ∧
      served.alert.entries[0].state = .free ∧ served.captured 1 = 0 ∧ grouped.captured 1 = BitVec.twoPow 64 0 ∧
      grouped.alert.overlays[0] = .none ∧ grouped.splice.services[0].current = none := by decide +kernel

/-- One alert captures services 0 and 63, on which an insertion is ACTIVE with nothing outstanding, and another alert airs; and of
AUDIO_ONLY, with a content of AUDIO components alone. -/
theorem meets_AlertStartHandled_offered :
    let s := (((inserting.onIngest fun u => { u with services := u.services.set 63 (some service) }).onAlert fun u =>
      { u with activeMaps := u.activeMaps.set 0 0x8000000000000001 }).onEntry 1 fun e =>
        { e with state := .active, priority := 3 }).onAlert fun u => { u with overlays := u.overlays.set 63 (.airing 1 0), startOrder := 1 }
    let room := s.onReport fun u => { u with reservation := 2 }
    let sound : ContentDef := { clip with comps := [⟨0x300, .audio⟩] }
    room.RoomKept ∧ room.captured 1 = 0x8000000000000001 ∧ room.alert.entries[0].state = .free ∧
      room.content.entries[0].state = .ready ∧ room.content.entries[0].definition = some clip ∧ room.report.reservation < 72 ∧
      (∀ x ∈ sound.comps, x.role = .audio) ∧
      (room.onContentEntry 0 fun e => { e with definition := some sound }).content.entries[0].definition = some sound := by
  intro s room sound
  have h : ∀ i : Fin 64, ∀ r ∈ room.splice.services[i].current,
    room.splice.records[r].state = .active ∧ room.splice.records[r].service = i := by decide +kernel
  exact ⟨⟨by decide +kernel, by decide +kernel, fun i r k => h i r k, by decide +kernel, by decide +kernel, by decide +kernel⟩,
    by decide +kernel⟩

/-- R115, R121: of two alerts of equal priority the one accepted last is stronger, also over one accepted 2^32 acceptances ago. -/
theorem test_newer_alert :
    let s := ((on.onEntry 0 fun e => { e with state := .active, startOrder := 5 }).onEntry 1 fun e =>
      { e with state := .active, startOrder := 4 }).onAlert fun u => { u with startOrder := 5 }
    s.stronger 1 0 = true ∧ s.stronger 0 1 = false := by decide +kernel

/-- Content 0 held; its region in the INGEST window; the scan queue full; a scan in progress; an idle scanner. -/
theorem meets_ContentDefined :
    let b : DefineBody := ⟨0, 1, 188, 0x100000, 4, 0x2300⟩
    let busy := served.onContent fun u => { u with scan := some ⟨5, 1, 0, 0, [], [], none, none⟩ }
    checkDefine b = some (0, clip) ∧ armed.content.entries[0].useCount = 1 ∧ served.content.entries[0].useCount = 0 ∧
      checkDefine { b with base := 0x10000 } = some (0, { clip with base := 0x10000 }) ∧
      served.regionInWindow { clip with base := 0x10000 } = true ∧ served.regionInWindow clip = false ∧
      (clip.comps.map ContentComponent.pid).Nodup ∧
      8 ≤ (busy.onContent fun u => { u with scanQueue := [1, 2, 3, 4, 5, 6, 7, 8] }).content.scanQueue.length ∧
      busy.content.scan ≠ none ∧ busy.content.entries[0].state ≠ .queued ∧
      (busy.onContentEntry 0 fun e => { e with state := .queued }).content.entries[0].state = .queued ∧
      served.content.scan = none ∧ served.content.scanQueue = [] := by decide +kernel

theorem meets_ContentReleased :
    let s := served.onQueue 5 fun _ => [⟨timeCue, .waiting⟩]
    armed.content.entries[0].useCount = 1 ∧ served.content.entries[0].state ≠ .free ∧
      served.content.entries[0].useCount = 0 ∧ (∀ i : Fin 64, ∀ e ∈ served.cue.queues[i].head?, e.state ≠ .waiting) ∧
      s.cue.queues[5] = [⟨timeCue, .waiting⟩] ∧
      ∀ i : Fin 64, ∀ e ∈ s.cue.queues[i].head?, e.state = .waiting ∧ e.cue.content = 0 → i = 5 := by decide +kernel

theorem meets_ApplyStaged : on.resetHeld = false ∧ on.fault.part = .operating := by decide

theorem meets_AckErrorReleasesTheCapture :
    on.resetHeld = false ∧ on.fault.part ≠ .starting ∧ on.fault.capture = none ∧
      (on.onFault fun u => { u with capture := some ⟨.ccGap, 63, 0, 0, none⟩ }).fault.capture ≠ none := by decide

theorem meets_Resume : on.resetHeld = false ∧ on.fault.part = .operating ∧ on.fault.latch = none ∧
    aside.fault.part = .bypass ∧ aside.fault.pinHold = false ∧ aside.fault.latch = some .cue ∧
    (aside.onFault fun u => { u with pinHold := true }).fault.pinHold = true := by decide

/-- An index of 16, a kind of 5; counts at both ends of their ranges and past them; a table that fits and one that does not; a VIEW
of an INGEST window, of another kind and of a served one; removals. -/
theorem meets_WindowRecordHandled :
    let fits := fun (s : State) (i : Fin 16) (e : WindowEntry) => tableValid (s.path.windows.set i e) s.definedContents
    let bare := mapped.onPath fun p => { p with windows := (Vector.replicate 16 .empty).set 0 (.ingest 0x10000 64 256 38000000) }
    bare.PortQuiet ∧ mapped.PortQuiet ∧ bare.TableHolds ∧ mapped.TableHolds ∧ bare.resetHeld = false ∧ bare.accepts (.cue ref) = true ∧
      16 ≤ (16 : Byte).toNat ∧ 5 ≤ (5 : Byte).toNat ∧ bare.path.windows[15] = .empty ∧ bare.loader.boot = none ∧
      fits bare 15 (.ingest 0x80000 4096 192 620000) = true ∧ fits bare 15 (.ingest 0x10000 64 188 150000000) = false ∧
      fits bare 15 (.view 0x80000 0) = true ∧ fits mapped 15 (.view 0x80000 0) = false ∧
      (∀ b n d x, bare.path.windows[1] ≠ .ingest b n d x) ∧
      fits bare 15 (.cue 0x80000 16) = true ∧ fits bare 15 (.cue 0x80000 256) = true ∧
      fits bare 15 (.report 0x80000 64) = true ∧ fits bare 15 (.report 0x1000000 65536) = true ∧
      served.ingest.services[0] = some service ∧ service.window = 0 ∧ fits mapped 0 .empty = true ∧
      fits mapped 2 .empty = true ∧ fits mapped 3 .empty = true ∧
      (∀ i : Fin 64, mapped.ingest.services[i] = none) ∧ (∀ b : Fin 8, ∀ u ∈ mapped.path.staging[b], u.window ≠ 0) ∧
      ∀ slot < 64, (mapped.slotRecord 0 slot).unplayed = none :=
  ⟨portQuiet (by decide +kernel), portQuiet (by decide +kernel), tableHolds (by decide +kernel), tableHolds (by decide +kernel),
    rfl, rfl, by decide, by decide, rfl, rfl, by decide +kernel,
    by decide +kernel, by decide +kernel, by decide +kernel, nofun, by decide +kernel⟩

/-- Windows that are not EMPTY: a CUE and a REPORT replaced by their like, an INGEST by another and by a CUE, a VIEW by a REPORT; a second
CUE, a REPORT on the CUE, and a window on the boot block that is being snooped. -/
theorem meets_WindowRecordHandled_replaced :
    let fits := fun (s : State) (i : Fin 16) (e : WindowEntry) => tableValid (s.path.windows.set i e) s.definedContents
    let bare := mapped.onPath fun p => { p with windows := (p.windows.set 2 .empty).set 3 .empty }
    let snooped := bare.onLoader fun u => { u with boot := some {} }
    bare.TableHolds ∧ snooped.TableHolds ∧ fits mapped 2 (.cue 0x80000 256) = true ∧ fits mapped 3 (.report 0x80000 65536) = true ∧
      fits mapped 0 (.ingest 0x80000 64 188 620000) = true ∧ fits bare 0 (.cue 0x10000 256) = true ∧
      fits bare 1 (.report 0x20000 64) = true ∧ fits mapped 0 (.cue 0x10000 256) = false ∧
      fits bare 15 (.report 0x10000 64) = false ∧ fits snooped 15 (.cue 0x3FC0 16) = true ∧ snooped.loader.boot ≠ none ∧
      (2 ^ 40 < (0xFFFFFFFFC0 : BitVec 40).toNat + 64 * 256 ∧ bare.path.windows[0] = .ingest 0x10000 64 256 38000000) ∧
      (∀ b : Fin 8, ∀ u ∈ mapped.path.staging[b], u.window ≠ 0) ∧ ∀ slot < 64, (mapped.slotRecord 0 slot).unplayed = none :=
  ⟨tableHolds (by decide +kernel), tableHolds (by decide +kernel), by decide +kernel⟩

/-- Each way to be malformed at its bound; a busy service and one at rest; a PID rule broken and kept; no INGEST window. -/
theorem meets_ServiceRecordHandled :
    let comps : List Component := [⟨0x100, 0x200, .video⟩, ⟨0x101, 0x205, .audio⟩]
    served.resetHeld = false ∧ served.accepts (.cue ref) = true ∧ loading.accepts .eeprom = true ∧ 64 ≤ (64 : Byte).toNat ∧
      8 < (9 : Byte).toNat ∧ (armed.ingest.services[0] ≠ none ∧ armed.splice.services[0].state ≠ .idle) ∧
      (served.splice.services[0].state = .idle ∧ served.alert.overlays[0] = .none ∧ served.cue.queues[0] = []) ∧
      served.path.windows[0] = .ingest 0x10000 64 256 38000000 ∧
      ((comps ++ served.otherComponents 0 0).map Component.source).Nodup ∧
      ¬ ((comps ++ served.otherComponents 0 5).map Component.source).Nodup := by decide +kernel

theorem meets_ServiceRecordHandled_window : ∀ b n d x, served.path.windows[1] ≠ .ingest b n d x :=
  nofun

/-- Station time just before the new expiry of the one armed clock, and at it. -/
theorem meets_SmallRecordsApplied : served.resetHeld = false ∧ served.accepts (.cue ref) = true ∧
    loading.accepts .eeprom = true ∧ (∀ i : Fin 64, ∀ c ∈ loading.timebase.clocks[i], c.silence = none) ∧
    served.timebase.clocks[0] = some clock ∧ clock.silence = some 13500000 ∧ clock.lastSample = some 0 ∧
    served.limits.silence ≠ 50 ∧ (∀ j : Fin 64, j ≠ 0 → ∀ c ∈ served.timebase.clocks[j], c.silence = none) ∧
    2 ^ 47 ≤ ((1349999 : StationTime) - (0 + BitVec.ofNat 48 (50 * 27000))).toNat ∧
    ((1350000 : StationTime) - (0 + BitVec.ofNat 48 (50 * 27000))).toNat < 2 ^ 47 ∧ 8 ≤ (8 : Byte).toNat ∧
    13 < (14 : Byte).toNat := by decide +kernel

/-- The invariants hold where an insertion is ACTIVE, with four windows, a locked clock and a byte in the ring's shadow; and a step
answers a next state there. That its place is kept is `inserting_room`. -/
theorem meets_Invariants :
    let s := inserting.onCue fun u => { u with ring := u.ring.map fun r => { r with shadow := [(5, 7)] } }
    inserting.QueueBounded ∧ inserting.LimitsInRange ∧ inserting.PartFollowsHolds ∧ inserting.AttnRight ∧
      inserting.AccountsBalance ∧ inserting.TableHolds ∧ inserting.ClocksInRange ∧ s.ShadowsCanonical ∧
      inserting.splice.records[3].inserted = 4 ∧ inserting.timebase.clocks[0] = some clock ∧ s.cue.ring ≠ none ∧
      ∃ t, step inserting = .next t := by
  intro s
  have c : ∀ i : Fin 64, ∀ c ∈ inserting.timebase.clocks[i], pLow ≤ c.p ∧ c.p ≤ pHigh := by decide +kernel
  have r : ∀ r ∈ s.cue.ring, r.shadow.wf = true := by decide +kernel
  exact ⟨by decide +kernel, ⟨by decide, by decide, by decide, by decide, by decide, by decide⟩,
    ⟨nofun, fun _ => ⟨rfl, rfl⟩, nofun⟩, by decide +kernel, ⟨by decide +kernel, by decide +kernel⟩, tableHolds (by decide +kernel),
    ⟨by decide +kernel, fun i x k => c i x k⟩, ⟨fun x k => r x k, nofun⟩, rfl, rfl, by decide +kernel, inserting.tick, rfl⟩

end Sys2Proof.Tests
end

section
/-! SUPPORT. The Timebase Unit's network time (02, R43, R44): the rules for `t27` and `t90` by clock state, and the statement about
them. -/

namespace Sys2Proof.Machine

/-! ## The network time of a clock (R43) -/

theorem clock_t27_of_none {c : Clock} (h : c.state = .none) (n : Count32) : c.t27 n = none := by
  unfold Clock.t27
  rw [h]

/-- In ACQUIRE and LOCKED alike, the anchor's value and the ticks of the packets since. -/
theorem clock_t27_of_anchor {c : Clock} {cLast : Nat} {nLast : Count32} (present : c.state ≠ .none)
    (anchor : c.anchor = some (cLast, nLast)) (n : Count32) :
    c.t27 n = some ((cLast + ticksOf c.p (n - nLast).toNat) % clockModulus) := by
  unfold Clock.t27
  rw [anchor]
  cases state : c.state with
  | none => exact absurd state present
  | acquire => rfl
  | locked => rfl

/-! ## The network time of a service -/

theorem t27_of_clock {s : State} {i : Fin 64} {c : Clock} (h : s.timebase.clocks[i] = some c) (n : Count32) :
    s.t27 i n = c.t27 n := by
  unfold State.t27
  rw [h]

theorem t90_of_t27_none {s : State} {i : Fin 64} {n : Count32} (h : s.t27 i n = none) : s.t90 i n = none := by
  unfold State.t90
  rw [h, Option.map_none]

theorem t90_of_t27_some {s : State} {i : Fin 64} {n : Count32} {t : Nat} (h : s.t27 i n = some t) :
    s.t90 i n = some (time90 t) := by
  unfold State.t90
  rw [h, Option.map_some]

/-- The 27 MHz line is 300 times the 90 kHz line, so that a clock-reference value loses no bit in `time90` (R43). -/
theorem clockModulus_eq : clockModulus = 2 ^ 33 * 300 := rfl

theorem div_300_lt_of_lt_clockModulus {t : Nat} (h : t < clockModulus) : t / 300 < 2 ^ 33 :=
  Nat.div_lt_of_lt_mul (by rw [clockModulus_eq] at h; omega)

/-- The half-range test (R44). -/
theorem hasReached_iff (t limit : Time90) : hasReached t limit = true ↔ (t - limit).toNat < 2 ^ 32 :=
  decide_eq_true_iff

end Sys2Proof.Machine

namespace Sys2Proof.Proofs

open Sys2Proof.Machine

/-- Settles O30, by the clock state: NONE has no network time; ACQUIRE and LOCKED extrapolate from the anchor. -/
theorem networkTime : Obligations.NetworkTime := by
  intro s i c n defined
  refine ⟨fun state => ?absent, fun cLast nLast present anchor => ?extrapolated, hasReached_iff⟩
  case absent =>
    have t27 : s.t27 i n = none := (t27_of_clock defined n).trans (clock_t27_of_none state n)
    exact ⟨t27, t90_of_t27_none t27⟩
  case extrapolated =>
    have t27 := (t27_of_clock defined n).trans (clock_t27_of_anchor present anchor n)
    exact ⟨t27, t90_of_t27_some t27, div_300_lt_of_lt_clockModulus (Nat.mod_lt _ (by decide))⟩

end Sys2Proof.Proofs
end

section
/-! SUPPORT. How the head of a cue queue is armed (03, R59; 05, R94, R96): one entry of a table updated twice, the cue test, the
headers it asks for, and that `arm` does what `HeadArmed` says. -/

namespace Sys2Proof.Machine

variable {s : State} {i : Fin 64}

/-! ## One entry of a table updated twice -/

theorem modifyAt_modifyAt {α : Type} {n : Nat} (v : Vector α n) (j : Fin n) (f g : α → α) :
    modifyAt (modifyAt v j f) j g = modifyAt v j (g ∘ f) := by
  simp [modifyAt]

theorem modifyAt_congr {α : Type} {n : Nat} {v : Vector α n} {j : Fin n} {f g : α → α} (h : f v[j] = g v[j]) :
    modifyAt v j f = modifyAt v j g := by
  rw [modifyAt, h, modifyAt]

theorem modifyAt_of_fixed {α : Type} {n : Nat} {v : Vector α n} {j : Fin n} {f : α → α} (h : f v[j] = v[j]) :
    modifyAt v j f = v := by
  unfold modifyAt
  rw [h]
  exact Vector.set_getElem_self _

theorem onFields_onFields (s : State) (i : Fin 64) (f g : SpliceFields → SpliceFields) :
    (s.onFields i f).onFields i g = s.onFields i (g ∘ f) :=
  congrArg (fun v => s.onSplice fun u => { u with services := v }) (modifyAt_modifyAt _ i f g)

theorem onQueue_congr {f g : List QueueEntry → List QueueEntry} (h : f s.cue.queues[i] = g s.cue.queues[i]) :
    s.onQueue i f = s.onQueue i g :=
  congrArg (fun v => s.onCue fun u => { u with queues := v }) (modifyAt_congr h)

theorem onQueue_onQueue (s : State) (i : Fin 64) (f g : List QueueEntry → List QueueEntry) :
    (s.onQueue i f).onQueue i g = s.onQueue i (g ∘ f) :=
  congrArg (fun v => s.onCue fun u => { u with queues := v }) (modifyAt_modifyAt _ i f g)

theorem onQueue_self (s : State) (i : Fin 64) (f : List QueueEntry → List QueueEntry) :
    (s.onQueue i f).cue.queues[i] = f s.cue.queues[i] := by
  simp

theorem onContentEntry_onContentEntry (s : State) (c : Fin 128) (f g : ContentEntry → ContentEntry) :
    (s.onContentEntry c f).onContentEntry c g = s.onContentEntry c (g ∘ f) :=
  congrArg (fun v => s.onContent fun u => { u with entries := v }) (modifyAt_modifyAt _ c f g)

theorem onContentEntry_of_fixed {c : Fin 128} {f : ContentEntry → ContentEntry}
    (h : f s.content.entries[c] = s.content.entries[c]) : s.onContentEntry c f = s :=
  congrArg (fun v => s.onContent fun u => { u with entries := v }) (modifyAt_of_fixed h)

/-- A hold that is released again leaves no trace (R83). -/
theorem releaseHold_hold (s : State) (c : Fin 128) : (s.hold c).releaseHold c = s :=
  (onContentEntry_onContentEntry s c _ _).trans (onContentEntry_of_fixed rfl)

theorem hold_definition (s : State) (c c' : Fin 128) :
    (s.hold c).content.entries[c'].definition = s.content.entries[c'].definition := by
  unfold State.hold
  simp only [State.onContentEntry_content_entries, modifyAt_fin]
  split <;> simp_all

/-! ## The cue test (R96, R100) -/

theorem testBegins_eq (x : SpliceState) : x.testBegins = if x = .idle then .armed else x := by
  cases x <;> rfl

theorem testEnds_eq (x : SpliceState) : x.testEnds = if x = .armed then .idle else x := by
  cases x <;> rfl

theorem endTest_eq (s : State) (i : Fin 64) : s.endTest i = s.onFields i fun f =>
    { f with test := none, standbyQueue := [], state := if f.state = .armed then .idle else f.state } := by
  simp only [State.endTest, testEnds_eq]

theorem armedAt_eq (s : State) (i : Fin 64) : s.armedAt i = s.armTime i := by
  unfold State.armedAt State.armTime State.lastIndex
  cases s.ingest.services[i] with
  | none => rfl
  | some v =>
    dsimp only
    cases s.ingest.assembly[v.window] with
    | none => rfl
    | some a =>
      obtain ⟨mode, lastTake⟩ := a
      cases lastTake <;> rfl

theorem lateOn_eq (s : State) (i : Fin 64) (c : SpliceCue) : s.lateOn i c = c.late (s.armTime i) := by
  unfold State.lateOn SpliceCue.late
  rw [armedAt_eq]
  cases s.armTime i with
  | none => exact Bool.and_false _
  | some t => rfl

/-! ## The headers an arm notice asks for (R94) -/

/-- `n` header reads take the next serial numbers and are requested of the FETCH requester. -/
def State.headersRequested (s : State) (n : Nat) (reads : List MemRead) : State :=
  (s.onSplice fun u => { u with nextHeader := u.nextHeader + n }).onPath fun p =>
    { p with fetchQueue := p.fetchQueue ++ reads }

/-- The standby queue of a service is given `n` headers from packet 0 on, and their reads are requested. -/
def State.standbyAsks (s : State) (i : Fin 64) (n : Nat) (reads : List MemRead) : State :=
  (s.headersRequested n reads).onFields i fun f =>
    { f with standbyQueue := f.standbyQueue ++ headerEntries s.splice.nextHeader n }

theorem standbyAsks_onFields (s : State) (i : Fin 64) (f : SpliceFields → SpliceFields) (n : Nat) (reads : List MemRead) :
    (s.onFields i f).standbyAsks i n reads = (s.headersRequested n reads).onFields i fun x =>
      { f x with standbyQueue := (f x).standbyQueue ++ headerEntries s.splice.nextHeader n } :=
  onFields_onFields (s.headersRequested n reads) i f _

theorem headerEntries_succ (serial n : Nat) :
    headerEntries serial (n + 1) = headerEntries serial n ++ [⟨n, serial + n, .loading⟩] := by
  simp [headerEntries, List.range_succ]

theorem headerReads_succ (i : Fin 64) (serial : Nat) (d : ContentDef) (n : Nat) :
    headerReads i serial d (n + 1) = headerReads i serial d n ++
      [beatsHolding (contentPacketAddress d n) 6 (.header i (serial + n) (contentPacketAddress d n))] := by
  simp [headerReads, List.range_succ]

theorem standbyAsks_zero (s : State) (i : Fin 64) : s.standbyAsks i 0 [] = s := by
  have fields : modifyAt s.splice.services i
      (fun f => { f with standbyQueue := f.standbyQueue ++ headerEntries s.splice.nextHeader 0 }) = s.splice.services :=
    modifyAt_of_fixed (by simp [headerEntries])
  unfold State.standbyAsks State.headersRequested State.onFields State.onSplice State.onPath
  dsimp only
  rw [fields, List.append_nil, Nat.add_zero]

/-- One more packet joins: the next serial number, its read behind the others, its entry behind the others. -/
theorem standbyAsks_joinHeader {c : Fin 128} {d : ContentDef} (defined : s.content.entries[c].definition = some d)
    (n : Nat) :
    (s.standbyAsks i n (headerReads i s.splice.nextHeader d n)).joinHeader i true c n =
      s.standbyAsks i (n + 1) (headerReads i s.splice.nextHeader d (n + 1)) := by
  have address : (s.standbyAsks i n (headerReads i s.splice.nextHeader d n)).contentAddress c n =
      contentPacketAddress d n := by
    unfold State.contentAddress
    rw [show (s.standbyAsks i n _).content = s.content from rfl, defined]
  unfold State.joinHeader
  rw [address]
  simp only [State.standbyAsks, State.headersRequested, headerReads_succ, headerEntries_succ, ← List.append_assoc]
  simp only [State.requestFetch, State.onFields, State.onSplice, State.onPath, modifyAt_modifyAt, if_true, Nat.add_assoc]
  rfl

theorem foldl_joinHeader {c : Fin 128} {d : ContentDef} (defined : s.content.entries[c].definition = some d) (n : Nat) :
    (List.range n).foldl (fun s k => s.joinHeader i true c k) s =
      s.standbyAsks i n (headerReads i s.splice.nextHeader d n) := by
  induction n with
  | zero => exact (standbyAsks_zero s i).symm
  | succ n ih => rw [List.range_succ, List.foldl_append, ih]; exact standbyAsks_joinHeader defined n

theorem fillHeaders_of_defined {c : Fin 128} {d : ContentDef} (defined : s.content.entries[c].definition = some d) :
    s.fillHeaders i true c =
      s.standbyAsks i (min 16 d.packets) (headerReads i s.splice.nextHeader d (min 16 d.packets)) := by
  have count : s.packetCount c = d.packets := by unfold State.packetCount; rw [defined]
  unfold State.fillHeaders
  rw [count]
  exact foldl_joinHeader defined _

theorem fillHeaders_of_undefined {c : Fin 128} (undefined : s.content.entries[c].definition = none) :
    s.fillHeaders i true c = s := by
  have count : s.packetCount c = 0 := by unfold State.packetCount; rw [undefined]
  unfold State.fillHeaders
  rw [count]
  rfl

/-! ## An arm notice (R96) -/

theorem testBegun_of_defined {cue : SpliceCue} {d : ContentDef}
    (defined : s.content.entries[cue.content].definition = some d) :
    s.testBegun i cue = (s.onFields i fun f =>
      { f with test := some (cue.test (s.armTime i)), state := f.state.testBegins }).standbyAsks i (min 16 d.packets)
        (headerReads i s.splice.nextHeader d (min 16 d.packets)) := by
  rw [standbyAsks_onFields]
  unfold State.testBegun
  rw [defined]
  simp only [armedAt_eq, testBegins_eq]
  rfl

theorem testBegun_of_undefined {cue : SpliceCue} (undefined : s.content.entries[cue.content].definition = none) :
    s.testBegun i cue = s.onFields i fun f =>
      { f with test := some (cue.test (s.armTime i)), state := f.state.testBegins } := by
  rw [← standbyAsks_zero (s.onFields i _) i, standbyAsks_onFields]
  unfold State.testBegun
  rw [undefined]
  simp only [armedAt_eq, testBegins_eq]
  rfl

theorem armNotice_eq (s : State) (i : Fin 64) (cue : SpliceCue) : s.armNotice i cue = s.testBegun i cue := by
  unfold State.armNotice
  cases defined : s.content.entries[cue.content].definition with
  | some d => rw [testBegun_of_defined defined]; exact fillHeaders_of_defined defined
  | none => rw [testBegun_of_undefined defined]; exact fillHeaders_of_undefined defined

/-- A test begins alike before and after the content is held and the queue changed. -/
theorem testBegun_held (s : State) (i : Fin 64) (cue : SpliceCue) (q : List QueueEntry) :
    ((s.hold cue.content).onQueue i fun _ => q).testBegun i cue =
      ((s.testBegun i cue).hold cue.content).onQueue i fun _ => q := by
  have kept : ((s.hold cue.content).onQueue i fun _ => q).content.entries[cue.content].definition =
      s.content.entries[cue.content].definition := hold_definition s _ _
  cases defined : s.content.entries[cue.content].definition with
  | some d => rw [testBegun_of_defined defined, testBegun_of_defined (kept.trans defined)]; rfl
  | none => rw [testBegun_of_undefined defined, testBegun_of_undefined (kept.trans defined)]; rfl

/-! ## Arming the head of a queue (R59) -/

/-- A cue that arms late leaves what it asked for standing; its hold, its test and its place are gone (R96, R100). -/
theorem late_head_leaves (s : State) (i : Fin 64) (cue : SpliceCue) (q rest : List QueueEntry) :
    ((((((s.testBegun i cue).hold cue.content).onQueue i fun _ => q).endTest i).onQueue i fun _ => rest).releaseHold
      cue.content) = ((s.testBegun i cue).endTest i).onQueue i fun _ => rest :=
  let ended := (s.testBegun i cue).endTest i
  calc
    _ = (((ended.hold cue.content).releaseHold cue.content).onQueue i fun _ => q).onQueue i fun _ => rest := rfl
    _ = (ended.onQueue i fun _ => q).onQueue i fun _ => rest := by rw [releaseHold_hold]
    _ = _ := onQueue_onQueue ended i _ _

/-- With fuel for every entry of the queue, `armHead` arms the head as R59 says. -/
theorem headArmed_armHead (fuel : Nat) (s : State) (enough : s.cue.queues[i].length ≤ fuel) :
    State.HeadArmed i s (s.armHead fuel i) := by
  induction fuel generalizing s with
  | zero => exact .empty s (List.eq_nil_of_length_eq_zero (Nat.le_zero.mp enough))
  | succ fuel ih =>
    unfold State.armHead
    cases q : s.cue.queues[i] with
    | nil => exact .empty s q
    | cons e rest =>
      have shorter (u : State) : ((u.onQueue i fun _ => rest).cue.queues[i]).length ≤ fuel := by
        rw [q] at enough
        rw [onQueue_self]
        exact Nat.le_of_succ_le_succ enough
      dsimp only
      cases c : s.contentState e.cue.content with
      | queued => exact .waits s e rest q (.inl c)
      | scanning => exact .waits s e rest q (.inr c)
      | failed => exact .gone s _ e rest q (.inl c) (ih _ (shorter s))
      | free => exact .gone s _ e rest q (.inr c) (ih _ (shorter s))
      | ready =>
        dsimp only
        rw [armNotice_eq, testBegun_held, ← lateOn_eq, late_head_leaves]
        split
        case isTrue late =>
          refine .late s _ e rest q c late ?_
          rw [← endTest_eq]
          exact ih _ (shorter _)
        case isFalse late => exact .armed s e rest q c (Bool.eq_false_iff.mpr late)

theorem headArmed_arm (s : State) (i : Fin 64) : State.HeadArmed i s (s.arm i) :=
  headArmed_armHead _ s (Nat.le_refl _)

end Sys2Proof.Machine
end

section
/-! SUPPORT. CANCEL, FLUSH_SERVICE, RETURN_NOW and ACK_ERROR (03, R62 to R64, R69): one equation for each case in which the part
takes the cue and its service is defined, and the statements about them. -/

namespace Sys2Proof.Machine

variable {s u : State} {i : Fin 64} {ref : CueRef} {service : Byte} {cueId : BitVec 32}

/-! ## A cue that is taken (R52, R54) -/

/-- A cue of a part that is not STARTING is handled, and the command ends. -/
theorem takenCue_ends {f : State → State} (out : s.resetHeld = false) (started : s.fault.part ≠ .starting) (e : f s = u) :
    ∃ t, s.when s.takesCues f = .next t ∧ u.EndsAs t :=
  e ▸ when_ends f out (bne_iff_ne.mpr started)

theorem cancel_ends (out : s.resetHeld = false) (started : s.fault.part ≠ .starting)
    (e : s.handleCancel ref service cueId = u) :
    ∃ t, exec (.cancel ref service cueId) s = .next t ∧ u.EndsAs t :=
  takenCue_ends (f := fun s => s.handleCancel ref service cueId) out started e

theorem flushService_ends (out : s.resetHeld = false) (started : s.fault.part ≠ .starting) (e : s.handleFlush ref service = u) :
    ∃ t, exec (.flushService ref service) s = .next t ∧ u.EndsAs t :=
  takenCue_ends (f := fun s => s.handleFlush ref service) out started e

theorem returnNow_ends (out : s.resetHeld = false) (started : s.fault.part ≠ .starting)
    (e : s.handleReturnNow ref service = u) :
    ∃ t, exec (.returnNow ref service) s = .next t ∧ u.EndsAs t :=
  takenCue_ends (f := fun s => s.handleReturnNow ref service) out started e

theorem ackError_ends (out : s.resetHeld = false) (started : s.fault.part ≠ .starting) (e : s.handleAckError ref = u) :
    ∃ t, exec (.ackError ref) s = .next t ∧ u.EndsAs t :=
  takenCue_ends (f := fun s => s.handleAckError ref) out started e

theorem not_bypassed (operating : s.fault.part = .operating) : s.bypassed = false := by
  rw [State.bypassed, operating]
  rfl

theorem not_starting (operating : s.fault.part = .operating) : s.fault.part ≠ .starting := by
  rw [operating]
  exact nofun

theorem serviceIndex_of_toNat (h : service.toNat = i.val) : serviceIndex service = some i := by
  have small : service.toNat < 64 := h ▸ i.isLt
  rw [serviceIndex, dif_pos small]
  exact congrArg some (Fin.ext h)

theorem definedService_of_ne_none (h : s.ingest.services[i] ≠ none) : s.definedService i = true :=
  Option.isSome_iff_ne_none.mpr h

/-! ## A queue entry that is removed (R62, R63) -/

theorem dropEntry_of_armed {e : QueueEntry} (armed : e.state = .armed) :
    s.dropEntry i e = (s.releaseHold e.cue.content).endTest i := if_pos armed

theorem dropEntry_of_not_armed {e : QueueEntry} (unarmed : e.state ≠ .armed) : s.dropEntry i e = s := if_neg unarmed

theorem dropEntry_cue (s : State) (i : Fin 64) (e : QueueEntry) : (s.dropEntry i e).cue = s.cue := by
  unfold State.dropEntry
  split <;> rfl

theorem foldl_dropEntry_of_not_armed {l : List QueueEntry} (unarmed : ∀ e ∈ l, e.state ≠ .armed) :
    l.foldl (fun s e => s.dropEntry i e) s = s := by
  induction l with
  | nil => rfl
  | cons e l ih =>
    rw [List.foldl_cons, dropEntry_of_not_armed (unarmed e (List.mem_cons_self ..))]
    exact ih fun e' mem => unarmed e' (List.mem_cons_of_mem _ mem)

/-- Only the head of a queue is ARMED: of the others nothing is to be undone (R59). -/
theorem flushQueue_cons {e : QueueEntry} {rest : List QueueEntry} (q : s.cue.queues[i] = e :: rest)
    (unarmed : ∀ e' ∈ rest, e'.state ≠ .armed) : s.flushQueue i =
      ((s.dropEntry i e).onQueue i fun _ => [], (e :: rest).map fun e => spliceAnswer i e.cue .flushed none) := by
  unfold State.flushQueue
  rw [q]
  exact congrArg (fun u : State => (u.onQueue i fun _ => [], _)) (foldl_dropEntry_of_not_armed unarmed)

theorem flushQueue_nil (q : s.cue.queues[i] = []) : s.flushQueue i = (s, []) := by
  have unchanged : modifyAt s.cue.queues i (fun _ => []) = s.cue.queues := modifyAt_of_fixed q.symm
  unfold State.flushQueue
  rw [q]
  exact congrArg (fun v => (s.onCue fun u => { u with queues := v }, [])) unchanged

theorem cancelEntry_head {e : QueueEntry} {rest : List QueueEntry} (q : s.cue.queues[i] = e :: rest) :
    s.cancelEntry i 0 e =
      (((s.dropEntry i e).onQueue i fun _ => rest).produce (spliceAnswer i e.cue .cancelled none)).arm i := by
  have left : ((s.dropEntry i e).onQueue i fun q => q.eraseIdx 0) = (s.dropEntry i e).onQueue i fun _ => rest :=
    onQueue_congr (by rw [dropEntry_cue, q]; rfl)
  unfold State.cancelEntry
  rw [left]
  rfl

theorem cancelEntry_behind {e : QueueEntry} {before behind : List QueueEntry}
    (q : s.cue.queues[i] = before ++ e :: behind) (isBehind : before ≠ []) (unarmed : e.state ≠ .armed) :
    s.cancelEntry i before.length e =
      (s.onQueue i fun _ => before ++ behind).produce (spliceAnswer i e.cue .cancelled none) := by
  have left : (s.onQueue i fun q => q.eraseIdx before.length) = s.onQueue i fun _ => before ++ behind :=
    onQueue_congr (by rw [q, List.eraseIdx_append_of_length_le (Nat.le_refl _), Nat.sub_self]; rfl)
  unfold State.cancelEntry
  rw [dropEntry_of_not_armed unarmed, left]
  exact if_neg (List.length_eq_zero_iff.not.mpr isBehind)

/-- The oldest entry with a cue id stands behind those without it. -/
theorem findIdx?_oldest {e : QueueEntry} {before behind : List QueueEntry} (named : e.cue.cueId = cueId)
    (older : ∀ e' ∈ before, e'.cue.cueId ≠ cueId) :
    (before ++ e :: behind).findIdx? (·.cue.cueId == cueId) = some before.length := by
  have none : before.findIdx? (·.cue.cueId == cueId) = none :=
    List.findIdx?_eq_none_iff.mpr fun e' mem => beq_eq_false_iff_ne.mpr (older e' mem)
  simp [List.findIdx?_append, none, List.findIdx?_cons, named]

/-! ## The cues whose service is defined, in OPERATING -/

section

variable (operating : s.fault.part = .operating) (named : service.toNat = i.val)
  (defined : s.ingest.services[i] ≠ none)

include operating named defined

theorem handleCancel_not_found (absent : ∀ e ∈ s.cue.queues[i], e.cue.cueId ≠ cueId) :
    s.handleCancel ref service cueId = s.told [cueAnswer ref 3 (some service) (some cueId) .notFound none] := by
  have search : s.cue.queues[i].findIdx? (·.cue.cueId == cueId) = none :=
    List.findIdx?_eq_none_iff.mpr fun e mem => beq_eq_false_iff_ne.mpr (absent e mem)
  simp only [State.handleCancel, not_bypassed operating, serviceIndex_of_toNat named, definedService_of_ne_none defined,
    search]
  rfl

theorem handleCancel_found {e : QueueEntry} {before behind : List QueueEntry}
    (q : s.cue.queues[i] = before ++ e :: behind) (found : e.cue.cueId = cueId)
    (older : ∀ e' ∈ before, e'.cue.cueId ≠ cueId) :
    s.handleCancel ref service cueId = (s.cancelEntry i before.length e).told
      [cueAnswer ref 3 (some service) (some cueId) .done none] := by
  have search : s.cue.queues[i].findIdx? (·.cue.cueId == cueId) = some before.length := by
    rw [q]
    exact findIdx?_oldest found older
  have entry : s.cue.queues[i][before.length]? = some e := by simp [q]
  simp only [State.handleCancel, not_bypassed operating, serviceIndex_of_toNat named, definedService_of_ne_none defined,
    search, entry]
  rfl

theorem handleFlush_eq : s.handleFlush ref service =
    (((s.flushQueue i).1.told (s.flushQueue i).2).told
      [cueAnswer ref 4 (some service) none .done (some (BitVec.ofNat 8 s.cue.queues[i].length))]) := by
  simp only [State.handleFlush, not_bypassed operating, serviceIndex_of_toNat named, definedService_of_ne_none defined]
  rfl

theorem handleReturnNow_not_found (absent : s.splice.services[i].current = none) :
    s.handleReturnNow ref service = s.told [cueAnswer ref 5 (some service) none .notFound none] := by
  simp only [State.handleReturnNow, not_bypassed operating, serviceIndex_of_toNat named, definedService_of_ne_none defined,
    absent]
  rfl

theorem handleReturnNow_current {r : Fin 68} (current : s.splice.services[i].current = some r) :
    s.handleReturnNow ref service = (s.returnRequest i).told [cueAnswer ref 5 (some service) none .done none] := by
  simp only [State.handleReturnNow, not_bypassed operating, serviceIndex_of_toNat named, definedService_of_ne_none defined,
    current]
  rfl

end

/-! ## A return request (R64, R105) -/

theorem returnRequest_on_air {r : Fin 68} (current : s.splice.services[i].current = some r)
    (onAir : s.splice.services[i].state = .inserting ∨ s.splice.services[i].state = .exhausted) :
    s.returnRequest i = s.enterReturning i r .returnNow := by
  unfold State.returnRequest
  rcases onAir with state | state <;> simp only [state, current]

theorem returnRequest_returning (returning : s.splice.services[i].state = .returning) : s.returnRequest i = s := by
  simp only [State.returnRequest, returning]

/-! ## ACK_ERROR (R69) -/

theorem handleAckError_captured (captured : s.fault.capture ≠ none) : s.handleAckError ref =
    (s.onFault fun u => { u with capture := none }).told [cueAnswer ref 12 none none .done none] :=
  if_pos (Option.isSome_iff_ne_none.mpr captured)

theorem handleAckError_not_found (absent : s.fault.capture = none) :
    s.handleAckError ref = s.told [cueAnswer ref 12 none none .notFound none] := by
  unfold State.handleAckError
  rw [absent]
  rfl

end Sys2Proof.Machine

namespace Sys2Proof.Proofs

open Sys2Proof.Machine

/-- Settles O44. CANCEL by where the oldest entry with the id stands: nowhere, behind the head, at the head, which leaves
the next to be armed (`headArmed_arm`); FLUSH_SERVICE by whether the queue is empty. -/
theorem cancelAndFlush : Obligations.CancelAndFlush := by
  intro s ref service i cueId out operating named defined done untested
  have started := not_starting operating
  have dropped (e : QueueEntry) :
      s.dropEntry i e = if e.state = .armed then untested s e.cue.content else s := by
    split
    case isTrue armed => exact (dropEntry_of_armed armed).trans (endTest_eq _ i)
    case isFalse unarmed => exact dropEntry_of_not_armed unarmed
  refine ⟨fun absent => ?cancelAbsent, fun before behind e q isBehind found older unarmed => ?cancelBehind,
    fun e rest q found => ?cancelHead, fun e rest q unarmed => ?flush, fun q => ?flushEmpty⟩
  case cancelAbsent => exact cancel_ends out started (handleCancel_not_found operating named defined absent)
  case cancelBehind =>
    refine cancel_ends out started ((handleCancel_found operating named defined q found older).trans ?_)
    rw [cancelEntry_behind q isBehind unarmed]
    rfl
  case cancelHead =>
    have handled := handleCancel_found (ref := ref) (before := []) operating named defined q found nofun
    obtain ⟨t, next, ends⟩ := cancel_ends out started handled
    refine ⟨t, _, next, ?_, ends⟩
    rw [← dropped, List.length_nil, cancelEntry_head q]
    exact headArmed_arm _ i
  case flush =>
    refine flushService_ends out started ((handleFlush_eq operating named defined).trans ?_)
    rw [flushQueue_cons q unarmed, q, dropped]
    rfl
  case flushEmpty =>
    refine flushService_ends out started ((handleFlush_eq operating named defined).trans ?_)
    rw [flushQueue_nil q, q]
    rfl

/-- Settles O45, by whether an insertion is ACTIVE on the service, and by its splice state. -/
theorem returnNowReturns : Obligations.ReturnNowReturns := by
  intro s ref service i out operating named defined done
  have started := not_starting operating
  refine ⟨fun r current onAir => ?onAir, fun r current returning => ?returning, fun absent => ?absent⟩
  case onAir =>
    refine returnNow_ends out started ((handleReturnNow_current operating named defined current).trans ?_)
    rw [returnRequest_on_air current onAir]
    rfl
  case returning =>
    refine returnNow_ends out started ((handleReturnNow_current operating named defined current).trans ?_)
    rw [returnRequest_returning returning]
  case absent => exact returnNow_ends out started (handleReturnNow_not_found operating named defined absent)

/-- Settles O50, by whether a capture is held. -/
theorem ackErrorReleasesTheCapture : Obligations.AckErrorReleasesTheCapture := by
  intro s ref out started
  exact ⟨fun captured => ackError_ends out started (handleAckError_captured captured),
    fun absent => ackError_ends out started (handleAckError_not_found absent)⟩

end Sys2Proof.Proofs
end

section
/-! SUPPORT. The places kept for as-run records and the bound of the pending queue (09, R166, R167): every move keeps them, and
with the moves every step. -/

namespace Sys2Proof.Machine

variable {s t : State} {n m : Nat}

/-! ## Counting over a table one of whose entries changes -/

theorem countP_set {α : Type} {k : Nat} (v : Vector α k) (i : Fin k) (x : α) (p : α → Bool) :
    (v.set i x).toList.countP p + (if p v[i] then 1 else 0) = v.toList.countP p + (if p x then 1 else 0) := by
  have here : (if p v[i] then 1 else 0) ≤ v.toList.countP p := by
    simpa using List.boole_getElem_le_countP (p := p) (l := v.toList) (i := i.val) (by simp)
  rw [Vector.toList_set, List.countP_set (by simp)]
  simp only [Vector.getElem_toList]
  change _ - (if p v[i] then 1 else 0) + _ + _ = _
  omega

theorem inUse_onRecord (s : State) (i : Fin 68) (f : InsertionRecord → InsertionRecord) :
    (s.onRecord i f).splice.inUse + (if s.splice.records[i].state != .free then 1 else 0) =
      s.splice.inUse + (if (f s.splice.records[i]).state != .free then 1 else 0) :=
  countP_set s.splice.records i (f s.splice.records[i]) fun r => r.state != .free

theorem inUse_onEntry (s : State) (i : Fin 4) (f : AlertEntry → AlertEntry) :
    (s.onEntry i f).alert.inUse + (if s.alert.entries[i].state != .free then 1 else 0) =
      s.alert.inUse + (if (f s.alert.entries[i]).state != .free then 1 else 0) :=
  countP_set s.alert.entries i (f s.alert.entries[i]) fun e => e.state != .free

/-! ## What the room rests on -/

/-- The pending queue is bounded and the reservation count is the places in use (R166, R167). -/
structure State.RoomBounded (s : State) (owed : Nat) : Prop where
  bounded : s.QueueBounded
  room : s.RoomFor owed

/-- The room rests on the Splice Engine's records and current records, the alert entries, the queue and the reservation count. -/
theorem State.RoomBounded.congr (h : s.RoomBounded n) (records : t.splice.records = s.splice.records)
    (current : ∀ (i : Fin 64) (r : Fin 68), t.splice.services[i].current = some r → s.splice.services[i].current = some r)
    (entries : t.alert.entries = s.alert.entries) (queue : t.report.queue = s.report.queue)
    (reservation : t.report.reservation = s.report.reservation) : t.RoomBounded n := by
  obtain ⟨bounded, ⟨balance, bound, hasRecord, closing, entryClosing, entryActive⟩⟩ := h
  refine ⟨by rwa [State.QueueBounded, queue], ⟨?_, reservation ▸ bound, ?_, ?_, ?_, ?_⟩⟩
  · rw [reservation, queue, SpliceEngine.inUse, AlertUnit.inUse, records, entries]; exact balance
  · rw [records]; exact fun i r e => hasRecord i r (current i r e)
  · rw [records]; exact closing
  · rw [entries]; exact entryClosing
  · rw [entries]; exact entryActive

theorem State.RoomBounded.same (h : s.RoomBounded n) (splice : t.splice = s.splice) (alert : t.alert = s.alert)
    (queue : t.report.queue = s.report.queue) (reservation : t.report.reservation = s.report.reservation) :
    t.RoomBounded n :=
  h.congr (by rw [splice]) (by rw [splice]; exact fun _ _ e => e) (by rw [alert]) queue reservation

/-! ## Insertion records -/

/-- A record is updated: what it takes up, and what a current record and an expiry ask of it. -/
theorem State.RoomBounded.onRecord (h : s.RoomBounded n) (i : Fin 68) (f : InsertionRecord → InsertionRecord)
    (places : m + (if (f s.splice.records[i]).state != .free then 1 else 0) =
      n + (if s.splice.records[i].state != .free then 1 else 0))
    (current : ∀ j : Fin 64, s.splice.services[j].current = some i →
      (f s.splice.records[i]).state = .active ∧ (f s.splice.records[i]).service = j)
    (closing : (f s.splice.records[i]).closeExpiry.isSome → (f s.splice.records[i]).state = .closing) :
    (s.onRecord i f).RoomBounded m := by
  obtain ⟨bounded, ⟨balance, bound, hasRecord, closed, entryClosing, entryActive⟩⟩ := h
  have used := inUse_onRecord s i f
  refine ⟨bounded, ⟨?_, bound, fun j r e => ?_, fun r => ?_, entryClosing, entryActive⟩⟩
  · change s.report.reservation = (s.onRecord i f).splice.inUse + s.alert.inUse + queuedAsRuns s.report.queue + m
    omega
  · simp only [State.onRecord_splice_records, modifyAt_fin]
    split
    · next same => subst same; exact current j e
    · exact hasRecord j r e
  · simp only [State.onRecord_splice_records, modifyAt_fin]
    split
    · next same => subst same; exact closing
    · exact closed r

/-- A record keeps its state, its service and its close expiry. -/
theorem State.RoomBounded.record_kept (h : s.RoomBounded n) (i : Fin 68) (f : InsertionRecord → InsertionRecord)
    (state : (f s.splice.records[i]).state = s.splice.records[i].state)
    (service : (f s.splice.records[i]).service = s.splice.records[i].service)
    (expiry : (f s.splice.records[i]).closeExpiry = s.splice.records[i].closeExpiry) : (s.onRecord i f).RoomBounded n :=
  h.onRecord i f (by rw [state]) (fun j e => by rw [state, service]; exact h.room.current j i e)
    (by rw [state, expiry]; exact h.room.closing i)

/-- No service's current record is in another state than ACTIVE. -/
theorem State.RoomBounded.not_current (h : s.RoomBounded n) {i : Fin 68} (state : s.splice.records[i].state ≠ .active)
    (j : Fin 64) : s.splice.services[j].current ≠ some i :=
  fun e => state (h.room.current j i e).1

theorem State.RoomBounded.record_starts (h : s.RoomBounded (n + 1)) (i : Fin 68) (f : InsertionRecord → InsertionRecord)
    (isFree : s.splice.records[i].state = .free) (state : (f s.splice.records[i]).state = .active)
    (expiry : (f s.splice.records[i]).closeExpiry = none) : (s.onRecord i f).RoomBounded n :=
  h.onRecord i f (by rw [isFree, state]; rfl) (fun j e => absurd e (h.not_current (by rw [isFree]; nofun) j))
    (by rw [expiry]; nofun)

theorem State.RoomBounded.record_frees (h : s.RoomBounded n) (i : Fin 68) (unconfirmed : Count32)
    (left : s.splice.records[i].state = .closing ∨ s.splice.records[i].closeExpiry.isSome) :
    (s.onRecord i fun x => { x with unconfirmed := unconfirmed }.freed).RoomBounded (n + 1) := by
  have state : s.splice.records[i].state = .closing := left.elim id (h.room.closing i)
  exact h.onRecord i _ (by rw [state]; rfl) (fun j e => absurd e (h.not_current (by rw [state]; nofun) j)) nofun

/-- A service's current record goes CLOSING, and the service has none then (R110). -/
theorem State.RoomBounded.record_leaves (h : s.RoomBounded n) (i : Fin 64) (r : Fin 68) (now expiry : StationTime)
    (tReturn : Option Time90) (current : s.splice.services[i].current = some r) :
    ((s.onRecord r fun x => x.closing now expiry tReturn).onFields s.splice.records[r].service
      SpliceFields.left).RoomBounded n := by
  obtain ⟨active, service⟩ := h.room.current i r current
  -- the fields are changed first here, so that no service has the record when it goes CLOSING
  have off : (s.onFields i SpliceFields.left).RoomBounded n := by
    refine h.congr rfl (fun j q e => ?_) rfl rfl rfl
    simp only [State.onFields_splice_services, modifyAt_fin] at e
    split at e
    · exact absurd e nofun
    · exact e
  have kept : ((s.onFields i SpliceFields.left).onRecord r fun x => x.closing now expiry tReturn).RoomBounded n := by
    refine off.onRecord r _ ?_ (fun j e => ?_) fun _ => rfl
    · change n + 1 = n + if s.splice.records[r].state != .free then 1 else 0
      rw [active]; rfl
    · simp only [State.onFields_splice_services, modifyAt_fin] at e
      split at e
      · exact absurd e nofun
      · next other => exact absurd (service.symm.trans (h.room.current j r e).2) other
  rw [service]
  exact kept

theorem State.RoomBounded.takes_current (h : s.RoomBounded n) (i : Fin 64) (r : Fin 68) (f : SpliceFields → SpliceFields)
    (state : s.splice.records[r].state = .active) (service : s.splice.records[r].service = i)
    (current : (f s.splice.services[i]).current = some r) : (s.onFields i f).RoomBounded n := by
  obtain ⟨bounded, ⟨balance, bound, hasRecord, closing, entryClosing, entryActive⟩⟩ := h
  refine ⟨bounded, ⟨balance, bound, fun j q e => ?_, closing, entryClosing, entryActive⟩⟩
  simp only [State.onFields_splice_services, modifyAt_fin] at e
  split at e
  · next same => subst same; rw [current] at e; cases e; exact ⟨state, service⟩
  · exact hasRecord j q e

/-! ## Alert entries -/

theorem State.RoomBounded.onEntry (h : s.RoomBounded n) (i : Fin 4) (f : AlertEntry → AlertEntry)
    (places : m + (if (f s.alert.entries[i]).state != .free then 1 else 0) =
      n + (if s.alert.entries[i].state != .free then 1 else 0))
    (closing : (f s.alert.entries[i]).closeExpiry.isSome → (f s.alert.entries[i]).state = .closing)
    (active : (f s.alert.entries[i]).durationExpiry.isSome → (f s.alert.entries[i]).state = .active) :
    (s.onEntry i f).RoomBounded m := by
  obtain ⟨bounded, ⟨balance, bound, hasRecord, closed, entryClosing, entryActive⟩⟩ := h
  have used := inUse_onEntry s i f
  refine ⟨bounded, ⟨?_, bound, hasRecord, closed, fun j => ?_, fun j => ?_⟩⟩
  · change s.report.reservation = s.splice.inUse + (s.onEntry i f).alert.inUse + queuedAsRuns s.report.queue + m
    omega
  · simp only [State.onEntry_alert_entries, modifyAt_fin]
    split
    · next same => subst same; exact closing
    · exact entryClosing j
  · simp only [State.onEntry_alert_entries, modifyAt_fin]
    split
    · next same => subst same; exact active
    · exact entryActive j

/-- An entry keeps its state and its expiries. -/
theorem State.RoomBounded.entry_kept (h : s.RoomBounded n) (i : Fin 4) (f : AlertEntry → AlertEntry)
    (state : (f s.alert.entries[i]).state = s.alert.entries[i].state)
    (close : (f s.alert.entries[i]).closeExpiry = s.alert.entries[i].closeExpiry)
    (duration : (f s.alert.entries[i]).durationExpiry = s.alert.entries[i].durationExpiry) :
    (s.onEntry i f).RoomBounded n :=
  h.onEntry i f (by rw [state]) (by rw [state, close]; exact h.room.entryClosing i)
    (by rw [state, duration]; exact h.room.entryActive i)

theorem State.RoomBounded.entry_starts (h : s.RoomBounded (n + 1)) (i : Fin 4) (f : AlertEntry → AlertEntry)
    (isFree : s.alert.entries[i].state = .free) (state : (f s.alert.entries[i]).state = .active)
    (expiry : (f s.alert.entries[i]).closeExpiry = none) : (s.onEntry i f).RoomBounded n :=
  h.onEntry i f (by rw [isFree, state]; rfl) (by rw [expiry]; nofun) fun _ => state

theorem State.RoomBounded.entry_ends (h : s.RoomBounded n) (i : Fin 4) (reason : AlertEnd)
    (on : s.alert.entries[i].state = .active ∨ s.alert.entries[i].durationExpiry.isSome) :
    (s.onEntry i fun e => { e with state := .ending, endReason := some reason, durationExpiry := none }).RoomBounded n := by
  have state : s.alert.entries[i].state = .active := on.elim id (h.room.entryActive i)
  refine h.onEntry i _ (by rw [state]; rfl) (fun armed => ?_) nofun
  exact absurd (h.room.entryClosing i armed) (by rw [state]; nofun)

theorem State.RoomBounded.entry_leaves (h : s.RoomBounded n) (i : Fin 4) (now expiry : StationTime)
    (on : s.alert.entries[i].state = .active ∨ s.alert.entries[i].state = .ending) :
    (s.onEntry i fun e => e.closing now expiry).RoomBounded n :=
  h.onEntry i _ (by rcases on with state | state <;> rw [state] <;> rfl) (fun _ => rfl) nofun

theorem State.RoomBounded.entry_frees (h : s.RoomBounded n) (i : Fin 4) (unconfirmed : Count32)
    (left : s.alert.entries[i].state = .closing ∨ s.alert.entries[i].closeExpiry.isSome) :
    (s.onEntry i fun x => { x with unconfirmed := unconfirmed }.freed).RoomBounded (n + 1) := by
  have state : s.alert.entries[i].state = .closing := left.elim id (h.room.entryClosing i)
  exact h.onEntry i _ (by rw [state]; rfl) nofun nofun

/-! ## The Report Unit -/

/-- The Report Unit is updated: the queue stays bounded and the reservation count is what it was with the places that have moved. -/
theorem State.RoomBounded.onReport (h : s.RoomBounded n) (f : ReportUnit → ReportUnit)
    (bounded : generalCount (f s.report).queue ≤ Config.generalLimit)
    (balance : (f s.report).reservation + queuedAsRuns s.report.queue + n =
      s.report.reservation + queuedAsRuns (f s.report).queue + m)
    (bound : (f s.report).reservation ≤ Config.alertRoom) : (s.onReport f).RoomBounded m := by
  obtain ⟨-, ⟨before, -, hasRecord, closing, entryClosing, entryActive⟩⟩ := h
  refine ⟨bounded, ⟨?_, bound, hasRecord, closing, entryClosing, entryActive⟩⟩
  change (f s.report).reservation = s.splice.inUse + s.alert.inUse + queuedAsRuns (f s.report).queue + m
  omega

theorem generalCount_append (q : List ReportRecord) (r : ReportRecord) :
    generalCount (q ++ [r]) = generalCount q + if r.body.isAsRun then 0 else 1 := by
  cases h : r.body.isAsRun <;> simp [generalCount, h]

theorem queuedAsRuns_append (q : List ReportRecord) (r : ReportRecord) :
    queuedAsRuns (q ++ [r]) = queuedAsRuns q + if r.body.isAsRun then 1 else 0 := by
  cases h : r.body.isAsRun <;> simp [queuedAsRuns, h]

theorem State.RoomBounded.produces_general (h : s.RoomBounded n) (b : ReportBody) (general : b.isAsRun = false) :
    (s.produce b).RoomBounded n := by
  have bounded := h.bounded
  have bound := h.room.bound
  refine h.onReport _ ?_ ?_ ?_ <;> unfold ReportUnit.produce <;> dsimp only <;> split
  · next room =>
    have below : generalCount s.report.queue < Config.generalLimit := by simpa [general] using room
    rw [generalCount_append, if_neg (by simp [general])]
    exact below
  · exact bounded
  · rw [queuedAsRuns_append, if_neg (by simp [general])]; rfl
  · rfl
  · exact bound
  · exact bound

theorem State.RoomBounded.produces_as_run (h : s.RoomBounded (n + 1)) (b : ReportBody) (asRun : b.isAsRun = true) :
    (s.produce b).RoomBounded n := by
  have bounded := h.bounded
  have bound := h.room.bound
  have appended : s.report.produce b s.clock = { s.report with
      production := s.report.production + 1, queue := s.report.queue ++ [⟨b, s.report.production, s.clock⟩] } := by
    simp [ReportUnit.produce, asRun]
  refine h.onReport _ ?_ ?_ ?_ <;> rw [appended]
  · rw [generalCount_append, if_pos (by simp [asRun])]; exact bounded
  · rw [queuedAsRuns_append, if_pos (by simp [asRun])]; dsimp only; omega
  · exact bound

/-- An as-run record that waits has a place, so that the reservation count is not 0 while one does. -/
theorem State.RoomBounded.record_written (h : s.RoomBounded n) (ring : ReportRing) (dropped : Nat) :
    (s.onReport fun u => u.recordWritten ring dropped).RoomBounded n := by
  have bounded := h.bounded
  have balance := h.room.balance
  have bound := h.room.bound
  cases q : s.report.queue with
  | nil =>
    have unchanged : s.report.recordWritten ring dropped = { s.report with ring := some { ring with outstanding := none } } := by
      simp [ReportUnit.recordWritten, q]
    exact h.onReport _ (by rw [unchanged]; exact bounded) (by rw [unchanged])
      (by rw [unchanged]; exact bound)
  | cons head rest =>
    have queue : (s.report.recordWritten ring dropped).queue = rest := by simp [ReportUnit.recordWritten, q]
    have reservation : (s.report.recordWritten ring dropped).reservation =
        if head.body.isAsRun then s.report.reservation - 1 else s.report.reservation := by
      simp [ReportUnit.recordWritten, q]
    rw [State.QueueBounded, q] at bounded
    rw [q] at balance
    have runs : queuedAsRuns (head :: rest) = queuedAsRuns rest + if head.body.isAsRun then 1 else 0 := List.countP_cons ..
    have generals : generalCount (head :: rest) = generalCount rest + if !head.body.isAsRun then 1 else 0 := List.countP_cons ..
    refine h.onReport _ ?_ ?_ ?_
    · rw [queue]; omega
    · rw [queue, reservation, q]
      cases run : head.body.isAsRun <;> simp only [run, if_true, Bool.false_eq_true, if_false] at runs ⊢ <;> omega
    · rw [reservation]; split <;> omega

/-! ## Every move -/

theorem Moves.keeps_room {s t : State} {n m : Nat} (mv : Moves s n t m) : s.RoomBounded n → t.RoomBounded m := by
  induction mv with
  | refl s n => exact id
  | trans _ _ ih1 ih2 => exact ih2 ∘ ih1
  | splice s n f records current => exact fun h => h.congr records current rfl rfl rfl
  | record s n i f h => exact fun b => b.record_kept i f h.state h.service h.closeExpiry
  | recordWritten s n i => exact fun b => b.record_kept i _ rfl rfl rfl
  | recordNoticed s n i aired =>
    exact fun b => b.record_kept i (·.noticed aired) (by cases aired <;> rfl) (by cases aired <;> rfl)
      (by cases aired <;> rfl)
  | recordStarts s n i f isFree state expiry _ => exact fun b => b.record_starts i f isFree state expiry
  | takesCurrent s n i r f state service current => exact fun b => b.takes_current i r f state service current
  | recordLeaves s n i r now expiry tReturn current => exact fun b => b.record_leaves i r now expiry tReturn current
  | recordFrees s n r unconfirmed h => exact fun b => b.record_frees r unconfirmed h
  | alert s n f h => exact fun b => b.congr rfl (fun _ _ e => e) h rfl rfl
  | entry s n i f h => exact fun b => b.entry_kept i f h.state h.closeExpiry h.durationExpiry
  | entryWritten s n i => exact fun b => b.entry_kept i _ rfl rfl rfl
  | entryNoticed s n i service aired =>
    exact fun b => b.entry_kept i (·.noticed service aired) (by cases aired <;> rfl) (by cases aired <;> rfl)
      (by cases aired <;> rfl)
  | entryStarts s n i f isFree state expiry _ => exact fun b => b.entry_starts i f isFree state expiry
  | entryEnds s n i reason h => exact fun b => b.entry_ends i reason h
  | entryLeaves s n i now expiry h => exact fun b => b.entry_leaves i now expiry h
  | entryFrees s n i unconfirmed h => exact fun b => b.entry_frees i unconfirmed h
  | report s n f queue reservation => exact fun b => b.same rfl rfl queue reservation
  | reserves s n h =>
    exact fun b => b.onReport _ b.bounded (by dsimp only; omega) h
  | unreserves s n =>
    refine fun b => b.onReport _ b.bounded ?_ (Nat.le_trans (Nat.sub_le ..) b.room.bound)
    have balance := b.room.balance
    dsimp only
    omega
  | producesGeneral s n body h => exact fun b => b.produces_general body h
  | producesAsRun s n body h => exact fun b => b.produces_as_run body h
  | recordWriteEnds s n ring dropped => exact fun b => b.record_written ring dropped
  | pinCleared s n _ => unfold State.returnIfClear; split <;> exact fun h => h.same rfl rfl rfl rfl
  | resumed s n _ => unfold State.returnIfClear; split <;> exact fun h => h.same rfl rfl rfl rfl
  | _ => exact fun h => h.same rfl rfl rfl rfl

/-- Nothing is in use at reset. -/
theorem reset_room : State.reset.RoomBounded 0 where
  bounded := by decide
  room :=
    { balance := by decide
      bound := by decide
      current := fun i r e => by simp [State.reset] at e
      closing := fun r e => by simp [State.reset] at e
      entryClosing := fun r e => by simp [State.reset] at e
      entryActive := fun r e => by simp [State.reset] at e }

end Sys2Proof.Machine

namespace Sys2Proof.Proofs

open Sys2Proof.Machine

/-- Settles O55: each move keeps the room, counting the places that are between two owners (`Moves.keeps_room`). -/
theorem reportRoomIsKept : Obligations.ReportRoomIsKept := by
  intro s t bounded room next
  have kept := step_keeps State.RoomBounded (fun s n t m mv => mv.keeps_room)
    (fun _ => reset_room.same rfl rfl rfl rfl) s t next ⟨bounded, room⟩
  exact ⟨kept.bounded, kept.room⟩

end Sys2Proof.Proofs
end

section
/-! SUPPORT. What else every move keeps: the as-run accounts (05, R111; 06, R116), the part state and its holds (10, R183), the
Window Table (08, R156), the ranges of clocks and limits (02, R29; 11, R194) and the form of the shadows. -/

namespace Sys2Proof.Machine

variable {s t : State} {n m : Nat}

/-! ## The as-run accounts (R111, R116) -/

theorem State.AccountsBalance.onRecord (h : s.AccountsBalance) (i : Fin 68) (f : InsertionRecord → InsertionRecord)
    (balanced : (f s.splice.records[i]).Balanced) : (s.onRecord i f).AccountsBalance := by
  refine ⟨fun r => ?_, h.entries⟩
  simp only [State.onRecord_splice_records, modifyAt_fin]
  split
  · next same => subst same; exact balanced
  · exact h.records r

theorem State.AccountsBalance.onEntry (h : s.AccountsBalance) (i : Fin 4) (f : AlertEntry → AlertEntry)
    (balanced : (f s.alert.entries[i]).Balanced) : (s.onEntry i f).AccountsBalance := by
  refine ⟨h.records, fun j => ?_⟩
  simp only [State.onEntry_alert_entries, modifyAt_fin]
  split
  · next same => subst same; exact balanced
  · exact h.entries j

theorem State.AccountsBalance.same (h : s.AccountsBalance) (records : t.splice.records = s.splice.records)
    (entries : t.alert.entries = s.alert.entries) : t.AccountsBalance :=
  ⟨records ▸ h.records, entries ▸ h.entries⟩

/-- An aired or a lost notice moves one disposition from outstanding to its count (R111). -/
theorem InsertionRecord.Balanced.noticed {r : InsertionRecord} (h : r.Balanced) (aired : Bool) : (r.noticed aired).Balanced := by
  unfold InsertionRecord.Balanced at h ⊢
  cases aired
  · change r.aired + (r.lost + 1) + (r.outstanding - 1) = r.inserted
    rw [← h]; bv_omega
  · change r.aired + 1 + r.lost + (r.outstanding - 1) = r.inserted
    rw [← h]; bv_omega

theorem InsertionRecord.Balanced.written {r : InsertionRecord} (h : r.Balanced) :
    ({ r with inserted := r.inserted + 1, outstanding := r.outstanding + 1 } : InsertionRecord).Balanced := by
  unfold InsertionRecord.Balanced at h ⊢
  dsimp only
  rw [← h]; bv_omega

theorem foldl_add (l : List Count32) (a : Count32) : l.foldl (· + ·) a = a + l.sum := by
  induction l generalizing a with
  | nil => exact (BitVec.add_zero a).symm
  | cons x l ih => rw [List.foldl_cons, ih, List.sum_cons, BitVec.add_assoc]

/-- One count of the 64 goes up by 1, and the total with it. -/
theorem totalOf_counted (v : Vector Count32 64) (i : Fin 64) : totalOf (modifyAt v i (· + 1)) = totalOf v + 1 := by
  have split (l : List Count32) (k : Nat) (h : k < l.length) : (l.set k (l[k] + 1)).sum = l.sum + 1 := by
    induction l generalizing k with
    | nil => exact absurd h (Nat.not_lt_zero _)
    | cons x l ih =>
      cases k with
      | zero => simp only [List.set_cons_zero, List.getElem_cons_zero, List.sum_cons]; bv_omega
      | succ k =>
        simp only [List.set_cons_succ, List.getElem_cons_succ, List.sum_cons]
        rw [ih k (Nat.lt_of_succ_lt_succ h), BitVec.add_assoc]
  have sum := split v.toList i.val (by simp)
  unfold totalOf modifyAt
  rw [foldl_add, foldl_add, Vector.toList_set, BitVec.add_assoc]
  rw [Vector.getElem_toList] at sum
  exact congrArg (0 + ·) sum

theorem AlertEntry.Balanced.noticed {e : AlertEntry} (h : e.Balanced) (service : Fin 64) (aired : Bool) :
    (e.noticed service aired).Balanced := by
  unfold AlertEntry.Balanced at h ⊢
  cases aired
  · change totalOf e.aired + totalOf (modifyAt e.lost service (· + 1)) + (e.outstanding - 1) = e.inserted
    rw [totalOf_counted, ← h]; bv_omega
  · change totalOf (modifyAt e.aired service (· + 1)) + totalOf e.lost + (e.outstanding - 1) = e.inserted
    rw [totalOf_counted, ← h]; bv_omega

theorem AlertEntry.Balanced.written {e : AlertEntry} (h : e.Balanced) :
    ({ e with inserted := e.inserted + 1, outstanding := e.outstanding + 1 } : AlertEntry).Balanced := by
  unfold AlertEntry.Balanced at h ⊢
  dsimp only
  rw [← h]; bv_omega

theorem Moves.keeps_accounts {s t : State} {n m : Nat} (mv : Moves s n t m) : s.AccountsBalance → t.AccountsBalance := by
  induction mv with
  | refl s n => exact id
  | trans _ _ ih1 ih2 => exact ih2 ∘ ih1
  | splice s n f records _ => exact fun h => h.same records rfl
  | record s n i f a =>
    refine fun h => h.onRecord i f ?_
    rw [InsertionRecord.Balanced, a.aired, a.lost, a.outstanding, a.inserted]
    exact h.records i
  | recordWritten s n i => exact fun h => h.onRecord i _ (h.records i).written
  | recordNoticed s n i aired => exact fun h => h.onRecord i _ ((h.records i).noticed aired)
  | recordStarts s n i f _ _ _ balanced => exact fun h => h.onRecord i f balanced
  | recordLeaves s n i r now expiry tReturn _ =>
    exact fun h => (h.onRecord r (·.closing now expiry tReturn) (h.records r)).same rfl rfl
  | recordFrees s n r unconfirmed _ => exact fun h => h.onRecord r _ (h.records r)
  | alert s n f entries => exact fun h => h.same rfl entries
  | entry s n i f a =>
    refine fun h => h.onEntry i f ?_
    rw [AlertEntry.Balanced, a.aired, a.lost, a.outstanding, a.inserted]
    exact h.entries i
  | entryWritten s n i => exact fun h => h.onEntry i _ (h.entries i).written
  | entryNoticed s n i service aired => exact fun h => h.onEntry i _ ((h.entries i).noticed service aired)
  | entryStarts s n i f _ _ _ balanced => exact fun h => h.onEntry i f balanced
  | entryEnds s n i reason _ => exact fun h => h.onEntry i _ (h.entries i)
  | entryLeaves s n i now expiry _ => exact fun h => h.onEntry i _ (h.entries i)
  | entryFrees s n i unconfirmed _ => exact fun h => h.onEntry i _ (h.entries i)
  | pinCleared s n _ => unfold State.returnIfClear; split <;> exact fun h => h.same rfl rfl
  | resumed s n _ => unfold State.returnIfClear; split <;> exact fun h => h.same rfl rfl
  | _ => exact fun h => h.same rfl rfl

theorem reset_accounts : State.reset.AccountsBalance where
  records r := by simp [State.reset]
  entries i := by
    have zero : totalOf (Vector.replicate 64 0#32) + totalOf (Vector.replicate 64 0#32) = 0#32 := by decide +kernel
    simpa [State.reset, AlertEntry.Balanced] using zero

/-! ## The part state and its holds (R183, R189) -/

theorem State.PartFollowsHolds.same (h : s.PartFollowsHolds) (reset : t.resetHeld = s.resetHeld)
    (part : t.fault.part = s.fault.part) (pin : t.fault.pinHold = s.fault.pinHold)
    (latch : t.fault.latch = s.fault.latch) : t.PartFollowsHolds :=
  ⟨by rw [reset, part]; exact h.reset, by rw [part, pin, latch]; exact h.operating, by rw [part, pin, latch]; exact h.bypass⟩

/-- A part in BYPASS with both holds clear is in OPERATING afterwards (R186). -/
theorem returnIfClear_follows (out : s.resetHeld = false)
    (operating : s.fault.part = .operating → s.fault.pinHold = false ∧ s.fault.latch = none) :
    s.returnIfClear.PartFollowsHolds := by
  unfold State.returnIfClear
  split
  · next clear =>
    obtain ⟨-, pin, latch⟩ := clear
    exact ⟨fun held => absurd (out.symm.trans held) nofun, fun _ => ⟨pin, latch⟩, nofun⟩
  · next kept =>
    refine ⟨fun held => absurd (out.symm.trans held) nofun, operating, fun bypass => ?_⟩
    by_contra none
    obtain ⟨pin, latch⟩ := not_or.mp none
    exact kept ⟨bypass, by simpa using pin, by simpa using latch⟩

/-- A hold is set outside OPERATING: the part state stays. -/
theorem State.PartFollowsHolds.holds (h : s.PartFollowsHolds) (f : FaultUnit → FaultUnit)
    (part : (f s.fault).part = s.fault.part) (aside : s.fault.part ≠ .operating)
    (held : (f s.fault).pinHold = true ∨ (f s.fault).latch.isSome) : (s.onFault f).PartFollowsHolds :=
  ⟨fun reset => part.trans (h.reset reset), fun operating => absurd (part.symm.trans operating) aside, fun _ => held⟩

/-- The part enters BYPASS with a hold set. -/
theorem follows_of_bypass (out : s.resetHeld = false) (bypass : s.fault.part = .bypass)
    (held : s.fault.pinHold = true ∨ s.fault.latch.isSome) : s.PartFollowsHolds :=
  ⟨fun reset => absurd (out.symm.trans reset) nofun, fun operating => absurd (bypass.symm.trans operating) nofun, fun _ => held⟩

theorem enters_follows (s : State) (out : s.resetHeld = false) :
    (s.onFault fun u => { u with part := u.enters }).PartFollowsHolds := by
  refine ⟨fun held => absurd (out.symm.trans held) nofun, fun operating => ?_, fun bypass => ?_⟩
  · have clear : s.fault.enters = .operating := operating
    unfold FaultUnit.enters at clear
    split at clear
    · cases clear
    · next holds => simpa using holds
  · have held : s.fault.enters = .bypass := bypass
    unfold FaultUnit.enters at held
    split at held
    · next holds => simpa using holds
    · cases held

theorem Moves.keeps_part {s t : State} {n m : Nat} (mv : Moves s n t m) : s.PartFollowsHolds → t.PartFollowsHolds := by
  induction mv with
  | refl s n => exact id
  | trans _ _ ih1 ih2 => exact ih2 ∘ ih1
  | fault s n f part pin latch => exact fun h => h.same rfl part pin latch
  | latched s n cause aside => exact fun h => h.holds _ rfl aside (.inr rfl)
  | latchedOut s n cause out => exact fun _ => follows_of_bypass out rfl (.inr rfl)
  | pinOut s n out => exact fun _ => follows_of_bypass out rfl (.inl rfl)
  | pinKept s n aside => exact fun h => h.holds _ rfl aside (.inl rfl)
  | pinInReset s n level held =>
    intro h
    have starting : s.fault.part = .starting := h.reset held
    exact ⟨fun _ => starting, fun operating => absurd (starting.symm.trans operating) nofun,
      fun bypass => absurd (starting.symm.trans bypass) nofun⟩
  | pinCleared s n out => exact fun h => returnIfClear_follows out fun operating => ⟨rfl, (h.operating operating).2⟩
  | resumed s n out =>
    intro h
    have kept : s.fault.resumeLatch.part = s.fault.part ∧ s.fault.resumeLatch.pinHold = s.fault.pinHold := by
      unfold FaultUnit.resumeLatch; split <;> exact ⟨rfl, rfl⟩
    refine returnIfClear_follows out fun operating => ?_
    obtain ⟨pin, latch⟩ := h.operating (kept.1.symm.trans operating)
    exact ⟨kept.2.trans pin, by simp [FaultUnit.resumeLatch, latch]⟩
  | starts s n out => exact fun _ => enters_follows s out
  | released s n => exact fun h => ⟨nofun, h.operating, h.bypass⟩
  | releasedAside s n mode held =>
    intro h
    have starting : s.fault.part = .starting := h.reset held
    exact ⟨nofun, fun operating => absurd (starting.symm.trans operating) nofun, fun _ => .inr rfl⟩
  | _ => exact fun h => h.same rfl rfl rfl rfl

/-! ## The Window Table (R156) -/

/-- The conditions of R156 one by one: no two windows share a byte, one CUE, one REPORT, one VIEW to a source, 16384 slots in all, no
window shares a byte with a content. -/
theorem tableValid_iff (v : Vector WindowEntry 16) (contents : List ContentDef) : tableValid v contents = true ↔
    (∀ i j : Fin 16, i ≠ j → shareByte v[i].base (windowSize v v[i]) v[j].base (windowSize v v[j]) = false) ∧
    ((List.finRange 16).countP fun i => v[i].kindCode == 3) ≤ 1 ∧
    ((List.finRange 16).countP fun i => v[i].kindCode == 4) ≤ 1 ∧
    (∀ i : Fin 16, ((List.finRange 16).countP fun j => v[j].source? == some i) ≤ 1) ∧
    ((List.finRange 16).map fun i => slotCount v[i]).sum ≤ Config.slotTotal ∧
    ∀ (i : Fin 16), ∀ d ∈ contents,
      shareByte v[i].base (windowSize v v[i]) d.base (d.packets * d.stride) = false := by
  simp only [tableValid, Bool.and_eq_true, List.all_eq_true, List.mem_finRange, true_implies, decide_eq_true_eq,
    Bool.or_eq_true, beq_iff_eq, Bool.not_eq_true', and_assoc, or_iff_not_imp_left, ne_eq]

theorem shareByte_of_empty {b1 n1 b2 n2 : Nat} (h : n1 = 0 ∨ n2 = 0) : shareByte b1 n1 b2 n2 = false := by
  simp only [shareByte, decide_eq_false_iff_not]
  omega

theorem mem_definedContents {s : State} {d : ContentDef} :
    d ∈ s.definedContents ↔ ∃ c : Fin 128, s.content.entries[c].definition = some d := by
  simp only [State.definedContents, List.mem_filterMap, Vector.mem_toList_iff, Vector.mem_iff_getElem]
  constructor
  · rintro ⟨e, ⟨k, h, rfl⟩, defined⟩; exact ⟨⟨k, h⟩, defined⟩
  · rintro ⟨c, defined⟩; exact ⟨_, ⟨c.val, c.isLt, rfl⟩, defined⟩

/-- The table stays, and no content is defined that does not keep off the windows. -/
theorem State.TableHolds.contents (h : s.TableHolds) (windows : t.path.windows = s.path.windows)
    (apart : ∀ d ∈ t.definedContents, d ∈ s.definedContents ∨ s.regionInWindow d = false) : t.TableHolds := by
  obtain ⟨ranges, valid⟩ := h
  obtain ⟨windowsApart, oneCue, oneReport, oneView, slots, contentsApart⟩ := (tableValid_iff _ _).mp valid
  refine ⟨windows ▸ ranges, windows ▸ (tableValid_iff _ _).mpr
    ⟨windowsApart, oneCue, oneReport, oneView, slots, fun i d mem => ?_⟩⟩
  rcases apart d mem with old | off
  · exact contentsApart i d old
  · simp only [State.regionInWindow, List.any_eq_false, Vector.mem_toList_iff] at off
    have off := off _ (Vector.getElem_mem i.isLt)
    simp only [shareByte, decide_eq_true_eq, decide_eq_false_iff_not] at off ⊢
    intro meet
    obtain ⟨nonempty, other, low, high⟩ := meet
    exact off ⟨other, nonempty, high, low⟩

theorem State.TableHolds.same (h : s.TableHolds) (windows : t.path.windows = s.path.windows)
    (definition : ∀ c : Fin 128, t.content.entries[c].definition = s.content.entries[c].definition) : t.TableHolds := by
  refine h.contents windows fun d mem => .inl ?_
  obtain ⟨c, defined⟩ := mem_definedContents.mp mem
  exact mem_definedContents.mpr ⟨c, (definition c).symm.trans defined⟩

/-- A window that is set has passed check 5 of R157. -/
theorem tableValid_of_accepted {i : Fin 16} {e : WindowEntry} {known : Bool} (accepted : s.windowRefusal i e known = none) :
    tableValid (s.path.windows.set i e) s.definedContents = true := by
  unfold State.windowRefusal at accepted
  dsimp only at accepted
  repeat' split at accepted
  case isFalse.isFalse.isFalse.isFalse.isFalse.isFalse valid _ => simpa using valid
  all_goals cases accepted

theorem State.TableHolds.windowSet (h : s.TableHolds) (i : Fin 16) (e : WindowEntry) (known : Bool) (range : e.InRange)
    (accepted : s.windowRefusal i e known = none) :
    (s.onPath fun p => { p with windows := p.windows.set i e }).TableHolds := by
  refine ⟨fun j => ?_, tableValid_of_accepted accepted⟩
  change ((s.path.windows.set i e)[j]).InRange
  rw [set_fin]
  split
  · exact range
  · exact h.ranges j

/-- A table with some of its VIEW entries emptied. -/
structure ViewsEmptied (v v' : Vector WindowEntry 16) : Prop where
  entry : ∀ i : Fin 16, v'[i] = v[i] ∨ (v'[i] = .empty ∧ ∃ b w, v[i] = .view b w)

/-- An INGEST entry is no VIEW, so that the size of a VIEW that stays stays. -/
theorem ViewsEmptied.size {v v' : Vector WindowEntry 16} (h : ViewsEmptied v v') (i : Fin 16) :
    windowSize v' v'[i] = 0 ∨ v'[i] = v[i] ∧ windowSize v' v'[i] = windowSize v v[i] := by
  rcases h.entry i with same | ⟨empty, -⟩
  · refine .inr ⟨same, ?_⟩
    rw [same]
    cases e : v[i] with
    | view b w =>
      simp only [windowSize]
      rcases h.entry w with sameSource | ⟨emptySource, b', w', view⟩
      · rw [sameSource]
      · rw [emptySource, view]
    | _ => rfl
  · exact .inl (by rw [empty]; rfl)

theorem ViewsEmptied.kind {v v' : Vector WindowEntry 16} (h : ViewsEmptied v v') (k : Nat) (nonempty : k ≠ 0) (i : Fin 16)
    (named : (v'[i].kindCode == k) = true) : (v[i].kindCode == k) = true := by
  rcases h.entry i with same | ⟨empty, -⟩
  · exact same ▸ named
  · rw [empty, beq_iff_eq] at named
    exact absurd named.symm nonempty

theorem ViewsEmptied.countKind {v v' : Vector WindowEntry 16} (h : ViewsEmptied v v') (k : Nat) (nonempty : k ≠ 0) :
    ((List.finRange 16).countP fun i => v'[i].kindCode == k) ≤ ((List.finRange 16).countP fun i => v[i].kindCode == k) :=
  List.countP_mono_left fun i _ => h.kind k nonempty i

theorem ViewsEmptied.countViews {v v' : Vector WindowEntry 16} (h : ViewsEmptied v v') (i : Fin 16) :
    ((List.finRange 16).countP fun j => v'[j].source? == some i) ≤ ((List.finRange 16).countP fun j => v[j].source? == some i) := by
  refine List.countP_mono_left fun j _ named => ?_
  rcases h.entry j with same | ⟨empty, -⟩
  · exact same ▸ named
  · rw [empty] at named
    exact absurd named (by simp [WindowEntry.source?])

theorem ViewsEmptied.slots {v v' : Vector WindowEntry 16} (h : ViewsEmptied v v') :
    ((List.finRange 16).map fun i => slotCount v'[i]) = (List.finRange 16).map fun i => slotCount v[i] := by
  refine List.map_congr_left fun i _ => ?_
  rcases h.entry i with same | ⟨empty, b, w, view⟩
  · rw [same]
  · rw [empty, view]; rfl

theorem ViewsEmptied.valid {v v' : Vector WindowEntry 16} (h : ViewsEmptied v v') {contents : List ContentDef}
    (valid : tableValid v contents = true) : tableValid v' contents = true := by
  obtain ⟨apart, oneCue, oneReport, oneView, slots, contentsApart⟩ := (tableValid_iff _ _).mp valid
  refine (tableValid_iff _ _).mpr ⟨fun i j ne => ?_, ?_, ?_, fun i => ?_, ?_, fun i d mem => ?_⟩
  · rcases h.size i with empty | ⟨iSame, iSize⟩
    · exact shareByte_of_empty (.inl empty)
    · rcases h.size j with empty | ⟨jSame, jSize⟩
      · exact shareByte_of_empty (.inr empty)
      · rw [iSize, jSize, iSame, jSame]; exact apart i j ne
  · exact Nat.le_trans (h.countKind 3 (by decide)) oneCue
  · exact Nat.le_trans (h.countKind 4 (by decide)) oneReport
  · exact Nat.le_trans (h.countViews i) (oneView i)
  · exact h.slots ▸ slots
  · rcases h.size i with empty | ⟨same, size⟩
    · exact shareByte_of_empty (.inl empty)
    · rw [size, same]; exact contentsApart i d mem

theorem State.TableHolds.viewsDropped (h : s.TableHolds) (i : Fin 16) :
    (s.onPath fun p => { p with windows := p.windows.map fun e => if e.source? = some i then .empty else e }).TableHolds := by
  have emptied : ViewsEmptied s.path.windows (s.path.windows.map fun e => if e.source? = some i then .empty else e) := by
    refine ⟨fun j => ?_⟩
    rw [Fin.getElem_fin, Vector.getElem_map]
    split
    · next named =>
      refine .inr ⟨rfl, ?_⟩
      cases e : s.path.windows[j.val] with
      | view b w => exact ⟨b, w, rfl⟩
      | _ => rw [e] at named; exact absurd named nofun
    · exact .inl rfl
  refine ⟨fun j => ?_, emptied.valid h.valid⟩
  rcases emptied.entry j with same | ⟨empty, -⟩
  · exact same ▸ h.ranges j
  · change ((s.path.windows.map fun e => if e.source? = some i then .empty else e)[j]).InRange
    rw [empty]; trivial

theorem Moves.keeps_table {s t : State} {n m : Nat} (mv : Moves s n t m) : s.TableHolds → t.TableHolds := by
  induction mv with
  | refl s n => exact id
  | trans _ _ ih1 ih2 => exact ih2 ∘ ih1
  | path s n f windows => exact fun h => h.same windows fun _ => rfl
  | windowSet s n i e known range accepted => exact fun h => h.windowSet i e known range accepted
  | viewsDropped s n i => exact fun h => h.viewsDropped i
  | content s n f definition => exact fun h => h.same rfl definition
  | contentDefined s n c d queue off =>
    refine fun h => h.contents rfl fun d' mem => ?_
    obtain ⟨c', defined⟩ := mem_definedContents.mp mem
    simp only [State.onContent_content, set_fin] at defined
    split at defined
    · cases defined; exact .inr off
    · exact .inl (mem_definedContents.mpr ⟨c', defined⟩)
  | contentFreed s n c queue =>
    refine fun h => h.contents rfl fun d' mem => .inl ?_
    obtain ⟨c', defined⟩ := mem_definedContents.mp mem
    simp only [State.onContent_content, set_fin] at defined
    split at defined
    · cases defined
    · exact mem_definedContents.mpr ⟨c', defined⟩
  | pinCleared s n _ => unfold State.returnIfClear; split <;> exact fun h => h.same rfl fun _ => rfl
  | resumed s n _ => unfold State.returnIfClear; split <;> exact fun h => h.same rfl fun _ => rfl
  | _ => exact fun h => h.same rfl fun _ => rfl

theorem reset_table : State.reset.TableHolds where
  ranges i := by simp [State.reset, WindowEntry.InRange]
  valid := by
    have none : State.reset.definedContents = [] := by decide +kernel
    rw [none]
    decide +kernel

/-! ## Clocks, limits, shadows (R29, R194) -/

/-- What O59 says of a state. -/
structure State.InRanges (s : State) : Prop where
  clocks : s.ClocksInRange
  limits : s.LimitsInRange
  shadows : s.ShadowsCanonical

theorem State.ClocksInRange.same (h : s.ClocksInRange) (windows : t.path.windows = s.path.windows)
    (clocks : t.timebase = s.timebase) : t.ClocksInRange :=
  ⟨windows ▸ h.rates, clocks ▸ h.clocks⟩

theorem State.LimitsInRange.same (h : s.LimitsInRange) (limits : t.limits = s.limits) : t.LimitsInRange :=
  ⟨limits ▸ h.silence, limits ▸ h.tolerance, limits ▸ h.close, limits ▸ h.fetch, limits ▸ h.holdoff, limits ▸ h.threshold⟩

theorem State.ShadowsCanonical.same (h : s.ShadowsCanonical) (ring : t.cue.ring = s.cue.ring)
    (boot : t.loader.boot = s.loader.boot) : t.ShadowsCanonical :=
  ⟨ring ▸ h.ring, boot ▸ h.boot⟩

theorem State.InRanges.same (h : s.InRanges) (windows : t.path.windows = s.path.windows) (clocks : t.timebase = s.timebase)
    (limits : t.limits = s.limits) (ring : t.cue.ring.map CueRing.shadow = s.cue.ring.map CueRing.shadow)
    (boot : ∀ b, t.loader.boot = some b → ∃ b', s.loader.boot = some b' ∧ b.shadow = b'.shadow) : t.InRanges := by
  obtain ⟨inClocks, inLimits, ⟨ringForm, bootForm⟩⟩ := h
  refine ⟨inClocks.same windows clocks, inLimits.same limits, ⟨fun r e => ?_, fun b e => ?_⟩⟩
  · rw [e] at ring
    obtain ⟨r', present, same⟩ := Option.map_eq_some_iff.mp ring.symm
    exact same ▸ ringForm r' present
  · obtain ⟨b', present, same⟩ := boot b e
    exact same ▸ bootForm b' present

theorem State.InRanges.windows (h : s.InRanges) (f : Vector WindowEntry 16 → Vector WindowEntry 16)
    (rates : ∀ i : Fin 16, Config.rateLow ≤ rateOf (f s.path.windows)[i] ∧ rateOf (f s.path.windows)[i] ≤ Config.rateHigh) :
    (s.onPath fun p => { p with windows := f p.windows }).InRanges :=
  ⟨⟨rates, h.clocks.clocks⟩, h.limits.same rfl, h.shadows.same rfl rfl⟩

theorem State.InRanges.setClock (h : s.InRanges) (i : Fin 64) (c : Option Clock)
    (range : ∀ k, c = some k → pLow ≤ k.p ∧ k.p ≤ pHigh) : (s.setClock i c).InRanges := by
  refine ⟨⟨h.clocks.rates, fun j k e => ?_⟩, h.limits.same rfl, h.shadows.same rfl rfl⟩
  have e : (s.timebase.clocks.set i c)[j] = some k := e
  rw [set_fin] at e
  split at e
  · exact range k e
  · exact h.clocks.clocks j k e

theorem rateOf_range {e : WindowEntry} (range : e.InRange) : Config.rateLow ≤ rateOf e ∧ rateOf e ≤ Config.rateHigh := by
  cases e with
  | ingest base slots stride rate =>
    obtain ⟨-, -, -, -, -, low, high⟩ := range
    exact ⟨low, high⟩
  | _ => exact ⟨le_refl _, by change Config.rateLow ≤ Config.rateHigh; decide⟩

theorem startP_range {rate : Nat} (low : Config.rateLow ≤ rate) (high : rate ≤ Config.rateHigh) :
    pLow ≤ startP rate ∧ startP rate ≤ pHigh := by
  have positive : 0 < rate := Nat.lt_of_lt_of_le (by decide) low
  constructor
  · exact Nat.le_trans (by decide) (Nat.div_le_div_left high positive)
  · exact Nat.le_trans (Nat.div_le_div_left low (by decide)) (by decide)

theorem limitField_range {flag : Bool} {range : Config.Range} {v : BitVec 32} {old : Nat} (ordered : range.low ≤ range.high)
    (h : rangeHolds range old) : rangeHolds range (limitField flag range v old) := by
  unfold limitField
  split
  · exact clampTo_range _ ordered
  · exact h

theorem State.LimitsInRange.apply (h : s.LimitsInRange) (r : LimitsRec) : (s.onLimits fun l => l.apply r).LimitsInRange :=
  ⟨limitField_range (by decide) h.silence, limitField_range (by decide) h.tolerance, limitField_range (by decide) h.close,
    limitField_range (by decide) h.fetch, limitField_range (by decide) h.holdoff, limitField_range (by decide) h.threshold⟩

theorem Moves.keeps_ranges {s t : State} {n m : Nat} (mv : Moves s n t m) : s.InRanges → t.InRanges := by
  induction mv with
  | refl s n => exact id
  | trans _ _ ih1 ih2 => exact ih2 ∘ ih1
  | path s n f windows => exact fun h => h.same windows rfl rfl rfl fun b e => ⟨b, e, rfl⟩
  | windowSet s n i e known range accepted =>
    refine fun h => h.windows (·.set i e) fun j => ?_
    rw [set_fin]
    split
    · exact rateOf_range range
    · exact h.clocks.rates j
  | viewsDropped s n i =>
    refine fun h => h.windows (·.map fun e => if e.source? = some i then .empty else e) fun j => ?_
    rw [Fin.getElem_fin, Vector.getElem_map]
    split
    · exact ⟨le_refl _, by change Config.rateLow ≤ Config.rateHigh; decide⟩
    · exact h.clocks.rates j
  | clockKept s n i old c present p =>
    refine fun h => h.setClock i _ fun k e => ?_
    cases e
    rcases p with same | range
    · rw [same]; exact h.clocks.clocks i old present
    · exact range
  | clockStarts s n i w =>
    refine fun h => h.setClock i _ fun k e => ?_
    cases e
    exact startP_range (h.clocks.rates w).1 (h.clocks.rates w).2
  | clockEnds s n i => exact fun h => h.setClock i _ nofun
  | cue s n f ring => exact fun h => h.same rfl rfl rfl ring fun b e => ⟨b, e, rfl⟩
  | ringWritten s n offset data enables =>
    refine fun h => ⟨h.clocks.same rfl rfl, h.limits.same rfl, ⟨fun r e => ?_, h.shadows.boot⟩⟩
    obtain ⟨old, present, rfl⟩ := Option.map_eq_some_iff.mp e
    exact Memory.writeLanes_wf _ _ _ (h.shadows.ring old present)
  | ringSetUp s n r empty =>
    refine fun h => ⟨h.clocks.same rfl rfl, h.limits.same rfl, ⟨fun r' e => ?_, h.shadows.boot⟩⟩
    cases e
    rw [empty]; rfl
  | ringDropped s n => exact fun h => ⟨h.clocks.same rfl rfl, h.limits.same rfl, ⟨nofun, h.shadows.boot⟩⟩
  | limits s n r => exact fun h => ⟨h.clocks.same rfl rfl, h.limits.apply r, ⟨h.shadows.ring, h.shadows.boot⟩⟩
  | loader s n f boot => exact fun h => h.same rfl rfl rfl rfl boot
  | bootWritten s n address data enables =>
    refine fun h => ⟨h.clocks.same rfl rfl, h.limits.same rfl, ⟨h.shadows.ring, fun b e => ?_⟩⟩
    obtain ⟨old, present, rfl⟩ := Option.map_eq_some_iff.mp e
    exact Memory.writeLanes_wf _ _ _ (h.shadows.boot old present)
  | bootStarts s n f boot =>
    refine fun h => ⟨h.clocks.same rfl rfl, h.limits.same rfl, ⟨h.shadows.ring, fun b e => ?_⟩⟩
    cases boot.symm.trans e
    rfl
  | pinCleared s n _ =>
    unfold State.returnIfClear; split <;> exact fun h => h.same rfl rfl rfl rfl fun b e => ⟨b, e, rfl⟩
  | resumed s n _ =>
    unfold State.returnIfClear; split <;> exact fun h => h.same rfl rfl rfl rfl fun b e => ⟨b, e, rfl⟩
  | _ => exact fun h => h.same rfl rfl rfl rfl fun b e => ⟨b, e, rfl⟩

theorem reset_ranges : State.reset.InRanges where
  clocks :=
    { rates := fun i => by simp [State.reset, rateOf, Config.rateLow, Config.rateHigh]
      clocks := fun i c e => by simp [State.reset] at e }
  limits := ⟨by decide, by decide, by decide, by decide, by decide, by decide⟩
  shadows := ⟨nofun, nofun⟩

end Sys2Proof.Machine

namespace Sys2Proof.Proofs

open Sys2Proof.Machine

/-- Settles O56: the counts wrap at 2^32, so that a move keeps each sum in every state (`Moves.keeps_accounts`). -/
theorem accountsBalanceIsKept : Obligations.AccountsBalanceIsKept :=
  fun s t balance next => step_keeps (fun s _ => s.AccountsBalance) (fun _ _ _ _ mv => mv.keeps_accounts)
    (fun _ => reset_accounts.same rfl rfl) s t next balance

/-- Settles O58: a window is set where the new table has passed its checks, a content is defined where it keeps off the
windows (`Moves.keeps_table`). -/
theorem windowTableIsKept : Obligations.WindowTableIsKept :=
  fun s t table next => step_keeps (fun s _ => s.TableHolds) (fun _ _ _ _ mv => mv.keeps_table)
    (fun _ => reset_table.same rfl fun _ => rfl) s t next table

/-- Settles O59 (`Moves.keeps_ranges`). -/
theorem rangesAreKept : Obligations.RangesAreKept := by
  intro s t clocks limits shadows next
  have kept := step_keeps (fun s _ => s.InRanges) (fun _ _ _ _ mv => mv.keeps_ranges)
    (fun _ => reset_ranges.same rfl rfl rfl rfl nofun) s t next ⟨clocks, limits, shadows⟩
  exact ⟨kept.clocks, kept.limits, kept.shadows⟩

end Sys2Proof.Proofs
end

section
/-! SUPPORT. How a command is answered, once for all commands but those of the two pins: it has its effect where it occurs, and it is
refused exactly where its operands break the protocol of the ports. -/

namespace Sys2Proof.Machine

/-- The answer of a command whose operands break the port protocol exactly where `off` says. -/
inductive State.Answers (s : State) (off : Prop) : Result → Prop
  | idle (never : ¬ off) : Answers s off (.next s)
  | when (occurs : Bool) (f : State → State) (never : ¬ off) : Answers s off (s.when occurs f)
  | onPort (occurs fits : Bool) (f : State → State)
      (breaks : off ↔ s.resetHeld = false ∧ occurs = true ∧ fits = false) : Answers s off (s.onPort occurs fits f)

/-- A command of one of the two pins (R185, R189). -/
def ofPins : Instr → Bool
  | .resetNAssert | .resetNRelease _ _ | .bypassNAssert | .bypassNRelease => true
  | _ => false

theorem wrongCount_iff {s : State} {tag : Fin 32} {beats : List MemBeat} {test : ReadUse → Bool} {u : TagUse}
    (present : s.path.tags[tag] = some u) :
    s.WrongCount tag beats test ↔ test u.read.use = true ∧ beats.length ≠ u.read.count := by
  constructor
  · rintro ⟨u', present', named, wrong⟩
    cases present.symm.trans present'
    exact ⟨named, wrong⟩
  · rintro ⟨named, wrong⟩
    exact ⟨u, present, named, wrong⟩

/-- The data of a read that the tag is in use for are refused where their count is wrong. -/
theorem answers_data {s : State} {tag : Fin 32} {beats : List MemBeat} {test : ReadUse → Bool} {u : TagUse}
    (f : State → State) (present : s.path.tags[tag] = some u) (named : test u.read.use = true) :
    s.Answers (s.resetHeld = false ∧ s.WrongCount tag beats test) (s.onPort true (beats.length == u.read.count) f) :=
  .onPort _ _ _ (by rw [wrongCount_iff present, named, beq_eq_false_iff_ne])

/-- Data that no such read is out for have no effect. -/
theorem answers_noData {s : State} {tag : Fin 32} {beats : List MemBeat} {test : ReadUse → Bool}
    (none : ∀ u, s.path.tags[tag] = some u → test u.read.use = false) :
    s.Answers (s.resetHeld = false ∧ s.WrongCount tag beats test) (.next s) := by
  refine .idle ?_
  rintro ⟨-, u, present, named, -⟩
  exact absurd (none u present) (by rw [named]; decide)

theorem offProtocol_write {s : State} (beat : BeatAddr) :
    (∃ next count, s.path.presented = some (next, count) ∧ (beat.toNat ≠ next ∨ 16 ≤ count)) ↔
      presentedNext s.path.presented beat.toNat = false := by
  cases s.path.presented with
  | none => simp [presentedNext]
  | some p =>
    obtain ⟨next, count⟩ := p
    simp only [presentedNext, Option.some.injEq, Prod.mk.injEq, Bool.and_eq_false_iff, beq_eq_false_iff_ne,
      decide_eq_false_iff_not, Nat.not_lt]
    constructor
    · rintro ⟨_, _, ⟨rfl, rfl⟩, off⟩; exact off
    · exact fun off => ⟨_, _, ⟨rfl, rfl⟩, off⟩

theorem burstFits_eq_false (beat : BeatAddr) (more : Fin 16) :
    burstFits beat more = false ↔ 2 ^ 36 < beat.toNat + more.val + 1 := by
  simp only [burstFits, decide_eq_false_iff_not, Nat.not_le]

theorem exec_answers (c : Instr) (s : State) (other : ofPins c = false) : s.Answers (s.OffProtocol c) (exec c s) := by
  cases c with
  | resetNAssert | resetNRelease _ _ | bypassNAssert | bypassNRelease => cases other
  | processorWriteBeat beat data enables last =>
    dsimp only [exec]
    exact .onPort (s := s) _ _ _ (and_congr_right fun _ => (offProtocol_write beat).trans (and_iff_right rfl).symm)
  | passThroughRead tag beat more | viewRead tag beat more =>
    dsimp only [exec]
    exact .onPort (s := s) _ _ _ (and_congr_right fun _ => (burstFits_eq_false beat more).symm.trans (and_iff_right rfl).symm)
  | passThroughReadData tag data ok =>
    change s.Answers _ (execPassThroughReadData tag data ok s)
    unfold execPassThroughReadData
    split
    · exact .when _ _ And.right
    · exact .idle And.right
  | viewPrefixReadData tag data ok =>
    change s.Answers _ (execViewPrefixReadData tag data ok s)
    unfold execViewPrefixReadData
    split
    · exact .when _ _ And.right
    · exact .idle And.right
  | stagingSlotReadData tag beats =>
    change s.Answers _ (execStagingSlotReadData tag beats s)
    unfold execStagingSlotReadData
    split
    · next present => exact answers_data _ present rfl
    · next none =>
      refine answers_noData fun ⟨⟨_, _, use⟩, _⟩ present => ?_
      cases use with
      | staging b claim => exact absurd present (none _ _ _ _ _)
      | _ => rfl
  | prefetchDataArrival tag beats =>
    change s.Answers _ (execPrefetchDataArrival tag beats s)
    unfold execPrefetchDataArrival
    split
    · next present => exact answers_data _ present rfl
    · next none =>
      refine answers_noData fun ⟨⟨_, _, use⟩, _⟩ present => ?_
      cases use with
      | prefetch b => exact absurd present (none _ _ _ _)
      | _ => rfl
  | demandDataArrival tag beats =>
    change s.Answers _ (execDemandDataArrival tag beats s)
    unfold execDemandDataArrival
    split
    · next present => exact answers_data _ present rfl
    · next none =>
      refine answers_noData fun ⟨⟨_, _, use⟩, _⟩ present => ?_
      cases use with
      | demand d => exact absurd present (none _ _ _ _)
      | _ => rfl
  | headerReadData tag beats =>
    change s.Answers _ (execHeaderReadData tag beats s)
    unfold execHeaderReadData
    split
    · next present => exact answers_data _ present rfl
    · next none =>
      refine answers_noData fun ⟨⟨_, _, use⟩, _⟩ present => ?_
      cases use with
      | header i serial a => exact absurd present (none _ _ _ _ _ _)
      | _ => rfl
  | scanReadData tag beats =>
    change s.Answers _ (execScanReadData tag beats s)
    unfold execScanReadData
    split
    · next present => exact answers_data _ present rfl
    · next none =>
      refine answers_noData fun ⟨⟨_, _, use⟩, _⟩ present => ?_
      cases use with
      | scan serial k => exact absurd present (none _ _ _ _ _)
      | _ => rfl
  | reportRecordWriteResponse write ok =>
    change s.Answers _ (execReportRecordWriteResponse write ok s)
    unfold execReportRecordWriteResponse
    split
    · exact .when _ _ And.right
    · exact .idle And.right
  | reportHeaderWriteResponse write ok =>
    change s.Answers _ (execReportHeaderWriteResponse write ok s)
    unfold execReportHeaderWriteResponse
    split
    · exact .when _ _ And.right
    · exact .idle And.right
  | arbiterGrant tag =>
    change s.Answers _ (execArbiterGrant tag s)
    unfold execArbiterGrant
    split
    · exact .when _ _ And.right
    · exact .idle And.right
  | eepromRecordRead result =>
    change s.Answers _ (execEepromRecordRead result s)
    unfold execEepromRecordRead
    cases result with
    | record bytes =>
      split
      · next k stage => exact .onPort _ _ _ (by simp [State.OffProtocol, stage, EepromRead.wellFormed])
      all_goals next stage => exact .idle (by simp [State.OffProtocol, stage])
    | unreadable step =>
      split
      · exact .onPort _ _ _ (by simp [State.OffProtocol, EepromRead.wellFormed])
      all_goals exact .idle And.right
  | _ =>
    dsimp only [exec]
    exact .when _ _ And.right

/-- A command of the ports is refused where it occurs and its operands do not fit. -/
theorem onPort_eq_refused {s : State} {b k : Bool} {f : State → State} {r : Refusal} :
    s.onPort b k f = .refused r ↔ r = .portProtocol ∧ s.resetHeld = false ∧ b = true ∧ k = false := by
  unfold State.onPort State.did
  cases s.resetHeld <;> cases b <;> cases k <;> simp [eq_comm]

theorem State.Answers.refused_iff {s : State} {off : Prop} {res : Result} (h : s.Answers off res) (r : Refusal) :
    res = .refused r ↔ r = .portProtocol ∧ off := by
  cases h with
  | idle never => exact ⟨nofun, fun h => absurd h.2 never⟩
  | when occurs f never =>
    obtain ⟨t, answered⟩ := when_next s occurs f
    rw [answered]
    exact ⟨nofun, fun h => absurd h.2 never⟩
  | onPort occurs fits f breaks => rw [onPort_eq_refused, breaks]

/-- While RESET_N is asserted the command has no effect. -/
theorem State.Answers.inReset {s : State} {off : Prop} {res : Result} (h : s.Answers off res) (held : s.resetHeld = true) :
    res = .next s := by
  cases h with
  | idle => rfl
  | when occurs f => exact when_idle f (.inl held)
  | onPort occurs fits f => simp [State.onPort, held]

theorem epilogue_attnRight (s : State) : s.epilogue.AttnRight := (epilogue_ends s).attn

theorem when_keeps_attn {s t : State} {b : Bool} {f : State → State} (right : s.AttnRight) (h : s.when b f = .next t) :
    t.AttnRight := by
  unfold State.when at h
  split at h
  · cases h; exact epilogue_attnRight _
  · cases h; exact right

/-- ATTN is set by what ends every command, and stays where a command has no effect (R174). -/
theorem State.Answers.keeps_attn {s t : State} {off : Prop} {res : Result} (h : s.Answers off res) (right : s.AttnRight)
    (e : res = .next t) : t.AttnRight := by
  cases h with
  | idle => cases e; exact right
  | when occurs f => exact when_keeps_attn right e
  | onPort occurs fits f =>
    unfold State.onPort at e
    split at e
    · split at e
      · cases e; exact epilogue_attnRight _
      · cases e
    · cases e; exact right

/-- A pin in reset, and a release of RESET_N outside reset, move no cause of ATTN; every other pin command ends as every command. -/
theorem pins_keep_attn {c : Instr} {s t : State} (pins : ofPins c = true) (right : s.AttnRight) (e : exec c s = .next t) :
    t.AttnRight := by
  cases c with
  | resetNAssert => cases e; rfl
  | resetNRelease a b =>
    change execResetNRelease a b s = _ at e
    unfold execResetNRelease at e
    split at e
    · cases e; exact epilogue_attnRight _
    · cases e; exact right
  | bypassNAssert =>
    change execBypassNAssert s = _ at e
    unfold execBypassNAssert at e
    split at e
    · cases e; exact right
    · exact when_keeps_attn right e
  | bypassNRelease =>
    change execBypassNRelease s = _ at e
    unfold execBypassNRelease at e
    split at e
    · cases e; exact right
    · exact when_keeps_attn right e
  | _ => cases pins

/-- A command of the pins is never refused. -/
theorem pins_next {c : Instr} (pins : ofPins c = true) (s : State) : ∃ t, exec c s = .next t := by
  cases c with
  | resetNAssert => exact ⟨_, rfl⟩
  | resetNRelease a b =>
    change ∃ t, execResetNRelease a b s = .next t
    unfold execResetNRelease
    split <;> exact ⟨_, rfl⟩
  | bypassNAssert =>
    change ∃ t, execBypassNAssert s = .next t
    unfold execBypassNAssert
    split
    · exact ⟨_, rfl⟩
    · exact when_next _ _ _
  | bypassNRelease =>
    change ∃ t, execBypassNRelease s = .next t
    unfold execBypassNRelease
    split
    · exact ⟨_, rfl⟩
    · exact when_next _ _ _
  | _ => cases pins

theorem exec_keeps_attn (c : Instr) (s t : State) (right : s.AttnRight) (e : exec c s = .next t) : t.AttnRight := by
  cases pins : ofPins c with
  | true => exact pins_keep_attn pins right e
  | false => exact (exec_answers c s pins).keeps_attn right e

theorem step_keeps_attn (s t : State) (right : s.AttnRight) (e : step s = .next t) : t.AttnRight := by
  unfold step at e
  split at e
  · next rest _ => exact exec_keeps_attn _ (s.withPending rest) t right e
  · split at e
    · cases e; exact right
    · cases e; exact right

theorem reset_part (s : State) : s.resetFrom.PartFollowsHolds := ⟨fun _ => rfl, nofun, nofun⟩

end Sys2Proof.Machine

namespace Sys2Proof.Proofs

open Sys2Proof.Machine

/-- Settles O57: the part state by the moves, ATTN by what ends every command. -/
theorem partAndAttnAreKept : Obligations.PartAndAttnAreKept := fun s t part attn next =>
  ⟨step_keeps (fun s _ => s.PartFollowsHolds) (fun _ _ _ _ mv => mv.keeps_part) reset_part s t next part,
    step_keeps_attn s t attn next⟩

/-- Settles O60, by what O55 to O59 prove of the state at reset. -/
theorem invariantsHoldAtReset : Obligations.InvariantsHoldAtReset :=
  ⟨reset_room.bounded, reset_room.room, reset_accounts, reset_part State.reset, rfl, reset_table, reset_ranges.clocks,
    reset_ranges.limits, reset_ranges.shadows⟩

/-- Settles O1. -/
theorem stepRunsTheFrontCommand : Obligations.StepRunsTheFrontCommand := by
  intro s c rest front
  unfold step
  rw [front]
  rfl

/-- Settles O3: the commands of the pins are never refused, the others are as `exec_answers` says. -/
theorem refusedExactlyOffProtocol : Obligations.RefusedExactlyOffProtocol := by
  refine fun c s => ⟨nofun, fun r => ?_⟩
  cases pins : ofPins c with
  | false => exact (exec_answers c s pins).refused_iff r
  | true =>
    obtain ⟨t, answered⟩ := pins_next pins s
    rw [answered]
    refine ⟨nofun, fun off => ?_⟩
    cases c with
    | resetNAssert | resetNRelease _ _ | bypassNAssert | bypassNRelease => exact off.2.2.elim
    | _ => cases pins

/-- Settles O4. -/
theorem inResetOnlyThePinsAct : Obligations.InResetOnlyThePinsAct := by
  intro c s held assert release pinAsserted pinReleased
  have other : ofPins c = false := by
    cases c with
    | resetNAssert => exact absurd rfl assert
    | resetNRelease a b => exact absurd rfl (release a b)
    | bypassNAssert => exact absurd rfl pinAsserted
    | bypassNRelease => exact absurd rfl pinReleased
    | _ => rfl
  exact (exec_answers c s other).inReset held

end Sys2Proof.Proofs
end

section
/-! SUPPORT. The output counter, the mark and the packet that passes (05, R93, R109); a record that is handed over (09, R166); the
values of RESET_N (11, R189). -/

namespace Sys2Proof.Machine

variable {s : State} {i : Fin 64}

/-! ## Updates that leave a block as it is -/

theorem onFields_of_fixed {f : SpliceFields → SpliceFields} (fixed : f s.splice.services[i] = s.splice.services[i]) :
    s.onFields i f = s :=
  congrArg (fun v => s.onSplice fun u => { u with services := v }) (modifyAt_of_fixed fixed)

theorem onFields_congr {f g : SpliceFields → SpliceFields} (same : f s.splice.services[i] = g s.splice.services[i]) :
    s.onFields i f = s.onFields i g :=
  congrArg (fun v => s.onSplice fun u => { u with services := v }) (modifyAt_congr same)

theorem onRecord_congr {r : Fin 68} {f g : InsertionRecord → InsertionRecord}
    (same : f s.splice.records[r] = g s.splice.records[r]) : s.onRecord r f = s.onRecord r g :=
  congrArg (fun v => s.onSplice fun u => { u with records := v }) (modifyAt_congr same)

theorem onRecord_onRecord (s : State) (r : Fin 68) (f g : InsertionRecord → InsertionRecord) :
    (s.onRecord r f).onRecord r g = s.onRecord r (g ∘ f) :=
  congrArg (fun v => s.onSplice fun u => { u with records := v }) (modifyAt_modifyAt _ r f g)

theorem onRecord_of_fixed {r : Fin 68} {f : InsertionRecord → InsertionRecord}
    (fixed : f s.splice.records[r] = s.splice.records[r]) : s.onRecord r f = s :=
  congrArg (fun v => s.onSplice fun u => { u with records := v }) (modifyAt_of_fixed fixed)

theorem onEntry_congr {e : Fin 4} {f g : AlertEntry → AlertEntry}
    (same : f s.alert.entries[e] = g s.alert.entries[e]) : s.onEntry e f = s.onEntry e g :=
  congrArg (fun v => s.onAlert fun u => { u with entries := v }) (modifyAt_congr same)

theorem onEntry_onEntry (s : State) (e : Fin 4) (f g : AlertEntry → AlertEntry) :
    (s.onEntry e f).onEntry e g = s.onEntry e (g ∘ f) :=
  congrArg (fun v => s.onAlert fun u => { u with entries := v }) (modifyAt_modifyAt _ e f g)

theorem onContentEntry_congr {c : Fin 128} {f g : ContentEntry → ContentEntry}
    (same : f s.content.entries[c] = g s.content.entries[c]) : s.onContentEntry c f = s.onContentEntry c g :=
  congrArg (fun v => s.onContent fun u => { u with entries := v }) (modifyAt_congr same)

/-! ## Output continuity (R93) -/

theorem give_without_payload (o : OutputCC) (insert : Bool) (cc : CC) :
    o.give insert cc false = (o.last.getD (cc + if insert then o.contentDelta.getD 0 else o.passDelta), o) := by
  unfold OutputCC.give
  cases o.last <;> rfl

theorem give_first {o : OutputCC} (insert : Bool) (cc : CC) (none : o.last = none) :
    o.give insert cc true = (cc + (if insert then o.contentDelta.getD 0 else o.passDelta),
      { o with last := some (cc + if insert then o.contentDelta.getD 0 else o.passDelta) }) := by
  simp only [OutputCC.give, none]

/-- With payload the counter is one more than the last one; the PASS delta is the one that gives it from the source's counter. -/
theorem give_next_pass {o : OutputCC} {last : CC} (cc : CC) (present : o.last = some last) :
    o.give false cc true = (last + 1, { o with last := some (last + 1), passDelta := last + 1 - cc }) := by
  simp only [OutputCC.give, present, Bool.false_eq_true, if_false]
  split
  · next same =>
    have delta : o.passDelta = last + 1 - cc := by rw [← same]; bv_omega
    rw [← delta]
  · rfl

/-- The same of the content delta, which stays absent where it is absent and already gives the counter. -/
theorem give_next_insert {o : OutputCC} {last : CC} (cc : CC) (present : o.last = some last) :
    o.give true cc true = (last + 1,
      { o with
        last := some (last + 1)
        contentDelta := if cc + o.contentDelta.getD 0 = last + 1 then o.contentDelta else some (last + 1 - cc) }) := by
  simp only [OutputCC.give, present, if_true]
  split <;> rfl

/-! ## A packet that passes (R92, R93, R109) -/

/-- The mark is owed to the packet that is given the clock PID with a clock reference (R109). -/
def State.marks (s : State) (i : Fin 64) (d : Service) (comp : Nat) (clockReference : Bool) : Bool :=
  s.splice.services[i].markPending && clockReference && comp == d.clock

theorem takeMark_eq (s : State) (i : Fin 64) (d : Service) (comp : Nat) (clockReference : Bool) :
    s.takeMark i d comp clockReference =
      (s.onFields i fun f => { f with markPending := f.markPending && !s.marks i d comp clockReference },
        s.marks i d comp clockReference) := by
  unfold State.takeMark
  change (if s.marks i d comp clockReference then _ else _) = _
  cases owed : s.marks i d comp clockReference with
  | true => simp
  | false =>
    have kept : s.onFields i (fun f => { f with markPending := f.markPending && !false }) = s :=
      onFields_of_fixed (congrArg (fun m => { s.splice.services[i] with markPending := m }) (Bool.and_true _))
    rw [kept]
    rfl

theorem outputPid_of_component {d : Service} {comp : Nat} {c : Component} (present : d.comps[comp]? = some c) :
    d.outputPid comp = c.output := by
  unfold Service.outputPid
  rw [present]

theorem passRewrite_eq (s : State) (d : Service) (x : TakeNotice) : s.passRewrite d x =
    let given := (s.splice.services[x.service].outputCC.getD x.comp {}).give false x.cc x.payload
    (s.onFields x.service fun f =>
        { f with
          outputCC := f.outputCC.set x.comp given.2
          markPending := f.markPending && !s.marks x.service d x.comp x.clockReference },
      .pass (some ⟨d.outputPid x.comp, given.1, s.marks x.service d x.comp x.clockReference⟩)) := by
  unfold State.passRewrite State.giveCC
  dsimp only
  rw [takeMark_eq, onFields_onFields]
  simp [State.marks, Function.comp_def]

theorem testPacket_of_untested {d : Service} {x : TakeNotice} (untested : s.splice.services[x.service].test = none)
    (recording : Bool) (reason : Option MissReason) : s.testPacket d x recording reason = s := by
  unfold State.testPacket
  rw [untested]

theorem onFields_at (s : State) (i : Fin 64) (f : SpliceFields → SpliceFields) :
    (s.onFields i f).splice.services[i] = f s.splice.services[i] := by
  simp

theorem passRewrite_test (s : State) (d : Service) (x : TakeNotice) :
    (s.passRewrite d x).1.splice.services[x.service].test = s.splice.services[x.service].test := by
  rw [passRewrite_eq]
  dsimp only
  rw [onFields_at]

theorem networkPacket_of_untested {d : Service} {x : TakeNotice} (untested : s.splice.services[x.service].test = none) :
    s.networkPacket d x = ⟨(s.passRewrite d x).1, (s.passRewrite d x).2, []⟩ := by
  unfold State.networkPacket
  rw [untested]
  dsimp only [Option.filter]
  rw [testPacket_of_untested ((passRewrite_test s d x).trans untested)]

/-- Without an overlay the service's state decides (R93). -/
theorem decidePacket_of_no_overlay {d : Service} {x : TakeNotice} (clear : s.alert.overlays[x.service] = .none) :
    s.decidePacket d x = ((s.splicePacket d x).errors.foldl (fun s e => s.raise e.kind e.index e.address none)
      (s.splicePacket d x).state, (s.splicePacket d x).action) := by
  unfold State.decidePacket
  rw [if_pos clear]

/-! ## A record is handed over (R166) -/

theorem told_one (s : State) (b : ReportBody) : s.told [b] = s.produce b := rfl

theorem told_append (s : State) (l m : List ReportBody) : s.told (l ++ m) = (s.told l).told m := by
  simp [State.told, State.produceAll]

end Sys2Proof.Machine

namespace Sys2Proof.Proofs

open Sys2Proof.Machine

/-- Settles O31, by whether the packet has payload and whether there is a last counter. -/
theorem outputCounterContinues : Obligations.OutputCounterContinues := by
  intro o insert cc
  refine ⟨give_without_payload o insert cc, give_first insert cc, fun last present => ?_⟩
  cases insert with
  | false =>
    rw [give_next_pass cc present]
    exact ⟨rfl, rfl, fun _ => ⟨rfl, rfl⟩, nofun⟩
  | true =>
    rw [give_next_insert cc present]
    exact ⟨rfl, rfl, nofun, fun _ => ⟨rfl, rfl⟩⟩

/-- Settles O32: without a cue under test a packet of an IDLE service is none but `passRewrite`. -/
theorem networkPacketPasses : Obligations.NetworkPacketPasses := by
  intro s d x c clear idle untested present
  have handled : s.splicePacket d x = s.networkPacket d x := by
    unfold State.splicePacket
    simp only [idle]
  rw [decidePacket_of_no_overlay clear, handled, networkPacket_of_untested untested, passRewrite_eq,
    outputPid_of_component present]
  rfl

/-- Settles O36, by whether the record is an as-run record or finds room. -/
theorem recordProduced : Obligations.RecordProduced := by
  intro s b
  rw [told_one]
  unfold State.produce ReportUnit.produce
  simp only [Bool.or_eq_true, decide_eq_true_eq]
  rfl

/-- Settles O5: what RESET_N leaves is a closed state, whose tables are of one value each. -/
theorem resetLeavesTheSpecsValues : Obligations.ResetLeavesTheSpecsValues := by
  refine ⟨fun s => rfl, rfl, rfl, fun i => ?_, fun b => ?_, fun g => ?_, rfl, rfl, rfl, rfl, by decide, fun i => ?_, rfl, rfl,
    fun c => ?_, rfl, rfl, rfl, fun b => ?_, fun d => ?_, fun r => ?_, fun e => ?_, rfl, fun g => ?_, rfl, rfl, rfl, rfl, rfl, rfl,
    rfl, rfl, fun h => ?_, ?policy, rfl, rfl, rfl⟩
  case policy => intro k; cases k <;> rfl
  all_goals simp [State.reset]

end Sys2Proof.Proofs
end

section
/-! SUPPORT. One REFCLK cycle: which expiries then wait (11, R188). What the expiries do (02, R39; 05, R105, R112; 06, R131, R133; 09,
R175). The pins (10, R185). -/

namespace Sys2Proof.Machine

variable {s u : State}

/-! ## The commands that wait after a tick (R188) -/

theorem mem_commandsOf {n : Nat} {test : Fin n → Bool} {f : Fin n → Instr} {c : Instr} :
    c ∈ commandsOf test f ↔ ∃ i, test i = true ∧ f i = c := by
  simp [commandsOf]

theorem nodup_commandsOf {n : Nat} (test : Fin n → Bool) {f : Fin n → Instr}
    (inj : ∀ i j, f i = f j → i = j := by intro i j e; cases e; rfl) : (commandsOf test f).Nodup :=
  ((List.nodup_finRange n).filter _).map fun i j => inj i j

theorem due_iff {now : StationTime} {x : Option StationTime} : due now x = true ↔ ∃ y, x = some y ∧ Reached now y := by
  cases x with
  | none => simp [due]
  | some y => simp [due, reached, Reached]

theorem bound_due_iff {now : StationTime} {b : Bound} : b.due now = true ↔ ∃ y, b = .armed y ∧ Reached now y := by
  cases b with
  | armed y => simp [Bound.due, reached, Reached]
  | _ => simp [Bound.due]

theorem silenceDue_iff {i : Fin 64} : s.silenceDue i = true ↔
    ∃ c x, s.timebase.clocks[i] = some c ∧ c.silence = some x ∧ Reached s.clock x := by
  unfold State.silenceDue
  cases s.timebase.clocks[i] with
  | none => simp
  | some c => simp [due_iff]

theorem runBoundDue_iff {i : Fin 64} : s.runBoundDue i = true ↔
    ∃ r x, s.splice.services[i].run = some r ∧ r.bound = .armed x ∧ Reached s.clock x := by
  unfold State.runBoundDue
  cases s.splice.services[i].run with
  | none => simp
  | some r => simp [bound_due_iff]

theorem fetchDue_iff {b : Fin 8} : s.fetchDue b = true ↔
    ∃ u x, s.path.staging[b] = some u ∧ u.deadline = some x ∧ Reached s.clock x := by
  unfold State.fetchDue
  cases s.path.staging[b] with
  | none => simp
  | some u => simp [due_iff]

theorem holdoffDue_iff {k : ErrorKind} {i : Nat} : s.holdoffDue k i = true ↔
    i < k.scopeSize ∧ ∃ n x, s.report.holdoff[holdoffIndex k i] = .holding n x ∧ Reached s.clock x := by
  unfold State.holdoffDue
  cases s.report.holdoff[holdoffIndex k i] with
  | holding n x => simp [reached, Reached]
  | _ => simp

theorem mem_allKinds (k : ErrorKind) : k ∈ allKinds := by cases k <;> decide

/-- Exactly the expiries that are armed and reached wait. -/
theorem mem_dueCommands (c : Instr) : c ∈ s.dueCommands ↔ s.Due c := by
  simp only [State.dueCommands, List.mem_append, List.mem_flatMap, mem_commandsOf, silenceDue_iff, runBoundDue_iff, fetchDue_iff,
    holdoffDue_iff, due_iff, bound_due_iff]
  cases c with
  | holdoffExpiry k i => simp [State.Due, mem_allKinds]
  | _ => simp [State.Due]

/-- None of them waits twice: each list names each index once, and two lists name different commands. -/
theorem nodup_dueCommands (s : State) : s.dueCommands.Nodup := by
  have holdoffs : (allKinds.flatMap fun k => commandsOf (fun i : Fin 64 => s.holdoffDue k i.val) (.holdoffExpiry k)).Nodup := by
    refine List.nodup_flatMap.mpr ⟨fun k _ => nodup_commandsOf _, ?_⟩
    have kinds : allKinds.Pairwise (· ≠ ·) := by decide
    refine kinds.imp fun {k l} ne => ?_
    intro c inK inL
    obtain ⟨i, -, rfl⟩ := mem_commandsOf.mp inK
    obtain ⟨j, -, e⟩ := mem_commandsOf.mp inL
    cases e
    exact ne rfl
  unfold State.dueCommands
  simp only [List.nodup_append]
  refine ⟨⟨⟨⟨⟨⟨⟨nodup_commandsOf _, nodup_commandsOf _, ?_⟩, nodup_commandsOf _, ?_⟩, nodup_commandsOf _, ?_⟩,
    nodup_commandsOf _, ?_⟩, nodup_commandsOf _, ?_⟩, nodup_commandsOf _, ?_⟩, holdoffs, ?holdoff⟩
  case holdoff =>
    rintro a inOthers b inHoldoffs rfl
    obtain ⟨k, -, inK⟩ := List.mem_flatMap.mp inHoldoffs
    obtain ⟨j, -, rfl⟩ := mem_commandsOf.mp inK
    simp [mem_commandsOf] at inOthers
  all_goals simp +contextual [mem_commandsOf, or_imp, forall_and]

theorem tick_pending_perm (s : State) : s.tick.pending.Perm ({ s with clock := s.clock + 1 } : State).dueCommands := by
  have all (l : List Instr) : (l.map fun c => [c]).flatten = l := by simp [← List.flatMap_def]
  have enough (l : List Instr) : ((l.map fun c => [c]).map List.length).sum ≤ l.length := by simp [Function.comp_def]
  have perm := interleave_perm _ s.free _ (enough ({ s with clock := s.clock + 1 } : State).dueCommands)
  rw [all] at perm
  exact perm

/-! ## A command that occurs ends -/

theorem occurs_ends {b : Bool} {f : State → State} (out : s.resetHeld = false) (occurs : b = true) (e : f s = u) :
    ∃ t, s.when b f = .next t ∧ u.EndsAs t :=
  e ▸ when_ends f out occurs

theorem due_of_armed {now x : StationTime} {e : Option StationTime} (armed : e = some x) (passed : (now - x).toNat < 2 ^ 47) :
    due now e = true :=
  due_iff.mpr ⟨x, armed, passed⟩

theorem bound_due_of_armed {now x : StationTime} {b : Bound} (armed : b = .armed x) (passed : (now - x).toNat < 2 ^ 47) :
    b.due now = true :=
  bound_due_iff.mpr ⟨x, armed, passed⟩

theorem silenceOccurs_eq {i : Fin 64} {c : Clock} (present : s.timebase.clocks[i] = some c) :
    s.silenceOccurs i = (s.setClock i (some c.silenced)).told
      [.clockEvent ⟨i, .silent, none, c.state, none, none, c.silenced⟩] := by
  unfold State.silenceOccurs
  rw [present]
  rfl

theorem onRun_eq {i : Fin 64} {r : AlertRun} (present : s.splice.services[i].run = some r) (f : AlertRun → AlertRun) :
    s.onRun i f = s.onFields i fun x => { x with run := some (f r) } := by
  unfold State.onRun
  exact onFields_congr (by rw [present]; rfl)

/-- A part that is not OPERATING changes only its pin hold where the pin is asserted. -/
theorem pinAsserted_aside (aside : s.fault.part ≠ .operating) :
    s.pinAsserted = s.onFault fun u => { u with pinHold := true } := by
  unfold State.pinAsserted
  rw [beq_eq_false_iff_ne.mpr aside]
  rfl

theorem returnIfClear_eq (s : State) : s.returnIfClear = s.onFault fun u =>
    { u with part := if u.part = .bypass ∧ u.pinHold = false ∧ u.latch = none then .operating else u.part } := by
  unfold State.returnIfClear
  split
  · next clear => simp only [State.onFault, if_pos clear]
  · next other => simp only [State.onFault, if_neg other]

end Sys2Proof.Machine

namespace Sys2Proof.Proofs

open Sys2Proof.Machine

/-- Settles O2. -/
theorem idleStepIsOneTick : Obligations.IdleStepIsOneTick := by
  intro s none
  have idle : step s = if s.resetHeld then .next s else .next s.tick := by
    unfold step
    rw [none]
  rw [idle]
  refine ⟨fun held => by rw [held]; rfl, fun out => ?_⟩
  rw [out]
  refine ⟨s.tick, rfl, congrArg (fun held => { s.tick with resetHeld := held }) out, (tick_pending_perm s).nodup_iff.mpr (nodup_dueCommands _), fun c => ?_⟩
  exact (tick_pending_perm s).mem_iff.trans (mem_dueCommands c)

/-- Settles O38, the record and the entry. -/
theorem closeLimitCloses : Obligations.CloseLimitCloses := by
  refine ⟨fun s r x out armed passed => ?record, fun s i x out armed passed => ?entry⟩
  case record =>
    exact occurs_ends (f := fun s => State.producing (s.closeRecord r s.splice.records[r].outstanding)) out
      (due_of_armed armed passed) rfl
  case entry =>
    exact occurs_ends (f := fun s => State.producing (s.closeEntry i s.alert.entries[i].outstanding)) out
      (due_of_armed armed passed) rfl

/-- Settles O39, expiry by expiry. -/
theorem expiriesPass : Obligations.ExpiriesPass := by
  refine fun s x out passed => ⟨fun i c present armed => ?silence, fun r armed => ?insertion, fun i run present armed => ?alert,
    fun k i n scope holding => ?holdoff⟩
  case silence =>
    exact occurs_ends (f := fun s => s.silenceOccurs i) out (silenceDue_iff.mpr ⟨c, x, present, armed, passed⟩)
      (silenceOccurs_eq present)
  case insertion =>
    exact occurs_ends (f := fun s => s.onRecord r fun y => { y with bound := .passed }) out (bound_due_of_armed armed passed) rfl
  case alert =>
    exact occurs_ends (f := fun s => s.onRun i fun y => { y with bound := .passed }) out
      (runBoundDue_iff.mpr ⟨run, x, present, armed, passed⟩) (onRun_eq present _)
  case holdoff =>
    refine occurs_ends
      (f := fun s => s.onReport fun u => { u with holdoff := modifyAt u.holdoff (holdoffIndex k i.val) Holdoff.expire }) out
      (holdoffDue_iff.mpr ⟨scope, n, x, holding, passed⟩) ?_
    unfold State.onReport modifyAt
    dsimp only
    rw [holding]
    rfl

/-- Settles O7, by where the pin moves: in reset, asserted outside OPERATING, released. -/
theorem pinMovesTheHold : Obligations.PinMovesTheHold := by
  refine fun s => ⟨fun held => ⟨if_pos held, if_pos held⟩, fun out aside clear => ?asserted, fun out set => ?released⟩
  case asserted =>
    have here : exec .bypassNAssert s = s.when (!s.fault.pinHold) State.pinAsserted := if_neg (by rw [out]; decide)
    rw [here]
    exact occurs_ends out (by rw [clear]; rfl) (pinAsserted_aside aside)
  case released =>
    have here : exec .bypassNRelease s =
        s.when s.fault.pinHold fun s => (s.onFault fun u => { u with pinHold := false }).returnIfClear :=
      if_neg (by rw [out]; decide)
    rw [here]
    refine occurs_ends out set ?_
    rw [returnIfClear_eq]
    simp [State.onFault]

end Sys2Proof.Proofs
end

section
/-! SUPPORT. The checks of a taken cue (03, R54, R55), the splice cues that join a queue (R57 to R59), APPLY_STAGED (R68) and RESUME
(R71). -/

namespace Sys2Proof.Machine

variable {s u : State} {i : Fin 64} {c : Fin 128} {ref : CueRef} {service content : Byte} {cueId : BitVec 32}

/-! ## Indexes and codes of fields -/

theorem serviceIndex_none (big : 64 ≤ service.toNat) : serviceIndex service = none := dif_neg (Nat.not_lt.mpr big)

theorem contentIndex_none (big : 128 ≤ content.toNat) : contentIndex content = none := dif_neg (Nat.not_lt.mpr big)

theorem contentIndex_of_toNat (h : content.toNat = c.val) : contentIndex content = some c := by
  have small : content.toNat < 128 := h ▸ c.isLt
  rw [contentIndex, dif_pos small]
  exact congrArg some (Fin.ext h)

theorem modeOf_none {code : Nat} (notFull : code ≠ 0) (notAudio : code ≠ 1) : modeOf code = none := by
  unfold modeOf
  split
  · exact absurd rfl notFull
  · exact absurd rfl notAudio
  · rfl

theorem definedService_of_none (h : s.ingest.services[i] = none) : s.definedService i = false := by
  rw [State.definedService, h]
  rfl

theorem contentFree_iff : s.contentFree c = true ↔ s.content.entries[c].state = .free := beq_iff_eq

theorem bypassed_of (h : s.fault.part = .bypass) : s.bypassed = true := beq_iff_eq.mpr h

/-! ## Splice cues (R58) -/

/-- A splice cue of good form, as it joins its queue. -/
def queuedCue (mark : Bool) (ref : CueRef) (b : SpliceBody) (c : Fin 128) : SpliceCue :=
  ⟨ref, mark, b.cueId, c, if mark then 0 else b.t.setWidth 33, min b.w.toNat (2 ^ 24 - 1), min b.d.toNat (2 ^ 31), b.endAtContent⟩

theorem checkSplice_some {mark : Bool} {b : SpliceBody} (service : b.service.toNat = i.val) (content : b.content.toNat = c.val)
    (time : mark = true ∨ b.t.toNat < 2 ^ 33) : checkSplice mark ref b = some (i, queuedCue mark ref b c) := by
  unfold checkSplice
  rw [serviceIndex_of_toNat service, contentIndex_of_toNat content]
  exact if_pos (by simpa using time)

theorem checkSplice_none {mark : Bool} {b : SpliceBody}
    (bad : 64 ≤ b.service.toNat ∨ 128 ≤ b.content.toNat ∨ (mark = false ∧ 2 ^ 33 ≤ b.t.toNat)) :
    checkSplice mark ref b = none := by
  unfold checkSplice
  rcases bad with service | content | ⟨rfl, time⟩
  · rw [serviceIndex_none service]
  · rw [contentIndex_none content]
    cases serviceIndex b.service <;> rfl
  · split
    · exact if_neg (by simpa using time)
    · rfl

/-- The instruction of a splice cue. -/
def spliceInstr (mark : Bool) (ref : CueRef) (b : SpliceBody) : Instr :=
  if mark then .spliceAtMark ref b else .spliceAtTime ref b

theorem splice_ends {mark : Bool} {b : SpliceBody} (out : s.resetHeld = false) (started : s.fault.part ≠ .starting)
    (e : s.handleSplice mark ref b = u) : ∃ t, exec (spliceInstr mark ref b) s = .next t ∧ u.EndsAs t := by
  cases mark with
  | true => exact takenCue_ends (f := fun s => s.handleSplice true ref b) out started e
  | false => exact takenCue_ends (f := fun s => s.handleSplice false ref b) out started e

section

variable {mark : Bool} {b : SpliceBody} (operating : s.fault.part = .operating)

include operating

theorem handleSplice_malformed
    (bad : 64 ≤ b.service.toNat ∨ 128 ≤ b.content.toNat ∨ (mark = false ∧ 2 ^ 33 ≤ b.t.toNat)) :
    s.handleSplice mark ref b =
      s.told [cueAnswer ref (if mark then 2 else 1) (some b.service) (some b.cueId) .refusedMalformed none] := by
  simp only [State.handleSplice, not_bypassed operating, checkSplice_none bad]
  rfl

theorem handleSplice_undefined (service : b.service.toNat = i.val) (content : b.content.toNat = c.val)
    (time : mark = true ∨ b.t.toNat < 2 ^ 33) (absent : s.ingest.services[i] = none ∨ s.content.entries[c].state = .free) :
    s.handleSplice mark ref b =
      s.told [cueAnswer ref (if mark then 2 else 1) (some b.service) (some b.cueId) .undefined none] := by
  have refused : (!s.definedService i || s.contentFree (queuedCue mark ref b c).content) = true := by
    rcases absent with service | content
    · rw [definedService_of_none service]; rfl
    · rw [Bool.or_eq_true]; exact .inr (contentFree_iff.mpr content)
  simp only [State.handleSplice, not_bypassed operating, checkSplice_some service content time, refused]
  rfl

theorem handleSplice_checked (service : b.service.toNat = i.val) (content : b.content.toNat = c.val)
    (time : mark = true ∨ b.t.toNat < 2 ^ 33) (defined : s.ingest.services[i] ≠ none)
    (present : s.content.entries[c].state ≠ .free) :
    s.handleSplice mark ref b = s.enqueue i (queuedCue mark ref b c) := by
  have taken : (!s.definedService i || s.contentFree (queuedCue mark ref b c).content) = false := by
    rw [definedService_of_ne_none defined]
    exact Bool.eq_false_iff.mpr fun free => present (contentFree_iff.mp free)
  simp only [State.handleSplice, not_bypassed operating, checkSplice_some service content time, taken]
  rfl

end

/-! ## Joining a queue (R57, R58) -/

theorem enqueue_full {q : SpliceCue} (full : 8 ≤ s.cue.queues[i].length ∨ 256 ≤ (s.cue.queues.toList.map List.length).sum) :
    s.enqueue i q = s.told [spliceAnswer i q .queueFull none] :=
  if_pos full

theorem enqueue_behind {q : SpliceCue} (room : s.cue.queues[i].length < 8)
    (total : (s.cue.queues.toList.map List.length).sum < 256) (behind : s.cue.queues[i] ≠ []) :
    s.enqueue i q = s.onQueue i fun l => l ++ [⟨q, .queued⟩] := by
  have free : ¬ (Config.queueDepth ≤ s.cue.queues[i].length ∨ Config.queueTotal ≤ s.queuedCues) := by
    rintro (full | full)
    · exact absurd room (Nat.not_lt.mpr full)
    · exact absurd total (Nat.not_lt.mpr full)
  unfold State.enqueue
  rw [if_neg free]
  exact if_neg (by simpa using behind)

theorem enqueue_head {q : SpliceCue} (head : s.cue.queues[i] = []) (total : (s.cue.queues.toList.map List.length).sum < 256) :
    s.enqueue i q = (s.onQueue i fun _ => [⟨q, .queued⟩]).armHead 1 i := by
  have free : ¬ (Config.queueDepth ≤ s.cue.queues[i].length ∨ Config.queueTotal ≤ s.queuedCues) := by
    rintro (full | full)
    · rw [head] at full; exact absurd full (by decide)
    · exact absurd total (Nat.not_lt.mpr full)
  have joined : (s.onQueue i fun l => l ++ [⟨q, .queued⟩]) = s.onQueue i fun _ => [⟨q, .queued⟩] :=
    onQueue_congr (by rw [head]; rfl)
  unfold State.enqueue
  rw [if_neg free]
  dsimp only
  rw [joined, head]
  unfold State.arm
  rw [onQueue_self]
  rfl

theorem onQueue_const (s : State) (i : Fin 64) (l l' : List QueueEntry) :
    ((s.onQueue i fun _ => l).onQueue i fun _ => l') = s.onQueue i fun _ => l' := onQueue_onQueue s i _ _

theorem onQueue_contentState (s : State) (i : Fin 64) (f : List QueueEntry → List QueueEntry) (c : Fin 128) :
    (s.onQueue i f).contentState c = s.content.entries[c].state := rfl

/-- A head whose content is being scanned waits on it (R59). -/
theorem armHead_waits {e : QueueEntry} {rest : List QueueEntry} (n : Nat) (q : s.cue.queues[i] = e :: rest)
    (scanned : s.content.entries[e.cue.content].state = .queued ∨ s.content.entries[e.cue.content].state = .scanning) :
    s.armHead (n + 1) i = s.onQueue i fun _ => { e with state := .waiting } :: rest := by
  unfold State.armHead
  rw [q]
  rcases scanned with state | state <;> simp only [State.contentState, state]

/-- A head whose content is FAILED or FREE misses (R59). -/
theorem armHead_misses {e : QueueEntry} {rest : List QueueEntry} (n : Nat) (q : s.cue.queues[i] = e :: rest)
    (gone : s.content.entries[e.cue.content].state = .failed ∨ s.content.entries[e.cue.content].state = .free) :
    s.armHead (n + 1) i = ((s.onQueue i fun _ => rest).told [spliceAnswer i e.cue .missedContent none]).armHead n i := by
  conv_lhs => unfold State.armHead
  rw [q]
  rcases gone with state | state <;> simp only [State.contentState, state] <;> rfl

theorem onQueue_of_fixed {f : List QueueEntry → List QueueEntry} (fixed : f s.cue.queues[i] = s.cue.queues[i]) :
    s.onQueue i f = s :=
  congrArg (fun v => s.onCue fun u => { u with queues := v }) (modifyAt_of_fixed fixed)

/-! ## A head that is armed (R59, R96) -/

/-- A head on READY content is armed, or is late and misses (R59, R96). -/
theorem armHead_ready {e : QueueEntry} {rest : List QueueEntry} (n : Nat) (q : s.cue.queues[i] = e :: rest)
    (ready : s.content.entries[e.cue.content].state = .ready) : s.armHead (n + 1) i =
      if s.lateOn i e.cue then
        ((((s.testBegun i e.cue).endTest i).onQueue i fun _ => rest).told [spliceAnswer i e.cue .missedLate none]).armHead n i
      else ((s.testBegun i e.cue).hold e.cue.content).onQueue i fun _ => { e with state := .armed } :: rest := by
  conv_lhs => unfold State.armHead
  rw [q]
  simp only [State.contentState, ready]
  rw [armNotice_eq, testBegun_held, ← lateOn_eq, late_head_leaves]
  rfl

theorem lateOn_iff (s : State) (i : Fin 64) (cue : SpliceCue) : s.lateOn i cue = true ↔
    cue.mark = false ∧ ((s.armedAt i).any fun t => hasReached t (cue.t + BitVec.ofNat 33 cue.w)) = true := by
  simp [State.lateOn]

/-- What an arm notice asks of the FETCH requester. -/
theorem testBegun_eq {cue : SpliceCue} {d : ContentDef} (defined : s.content.entries[cue.content].definition = some d) :
    s.testBegun i cue =
      (s.headersRequested (min 16 d.packets) (headerReads i s.splice.nextHeader d (min 16 d.packets))).onFields i fun f =>
        { f with
          test := some ⟨cue, if cue.mark then (s.armedAt i).map (· + BitVec.ofNat 33 cue.w)
            else some (cue.t + BitVec.ofNat 33 cue.w), none, false⟩
          state := if f.state = .idle then .armed else f.state
          standbyQueue := f.standbyQueue ++ headerEntries s.splice.nextHeader (min 16 d.packets) } := by
  unfold State.testBegun
  rw [defined]
  rfl

theorem testBegun_onQueue {cue : SpliceCue} {d : ContentDef} (defined : s.content.entries[cue.content].definition = some d)
    (f : List QueueEntry → List QueueEntry) : (s.onQueue i f).testBegun i cue = (s.testBegun i cue).onQueue i f := by
  rw [testBegun_eq defined, testBegun_eq (s := s.onQueue i f) defined]
  rfl

theorem idle_begun_ended (x : SpliceState) :
    (if (if x = .idle then .armed else x) = SpliceState.armed then SpliceState.idle else if x = .idle then .armed else x) =
      if x = .armed then .idle else x := by
  cases x <;> rfl

/-- A test that has begun and ended leaves an ARMED or IDLE service IDLE (R96, R100). -/
theorem testBegun_endTest {cue : SpliceCue} {d : ContentDef} (defined : s.content.entries[cue.content].definition = some d) :
    (s.testBegun i cue).endTest i =
      (s.headersRequested (min 16 d.packets) (headerReads i s.splice.nextHeader d (min 16 d.packets))).onFields i fun f =>
        { f with test := none, standbyQueue := [], state := if f.state = .armed then .idle else f.state } := by
  rw [testBegun_eq defined, endTest_eq, onFields_onFields]
  refine onFields_congr ?_
  dsimp only [Function.comp]
  congr 1
  exact idle_begun_ended _

/-! ## A cue that becomes the head at once (R58, R59) -/

section

variable {q : SpliceCue} {d : ContentDef} (head : s.cue.queues[i] = [])
  (total : (s.cue.queues.toList.map List.length).sum < 256)

include head total

theorem enqueue_waits
    (scanned : s.content.entries[q.content].state = .queued ∨ s.content.entries[q.content].state = .scanning) :
    s.enqueue i q = s.onQueue i fun _ => [⟨q, .waiting⟩] := by
  have queued : (s.onQueue i fun _ => [⟨q, .queued⟩]).cue.queues[i] = [⟨q, .queued⟩] := onQueue_self ..
  rw [enqueue_head head total, armHead_waits 0 queued scanned, onQueue_const]

theorem enqueue_misses (failed : s.content.entries[q.content].state = .failed) :
    s.enqueue i q = s.told [spliceAnswer i q .missedContent none] := by
  have queued : (s.onQueue i fun _ => [⟨q, .queued⟩]).cue.queues[i] = [⟨q, .queued⟩] := onQueue_self ..
  rw [enqueue_head head total, armHead_misses 0 queued (.inl failed), onQueue_const, onQueue_of_fixed head.symm]
  rfl

theorem enqueue_armed (ready : s.content.entries[q.content].state = .ready)
    (definition : s.content.entries[q.content].definition = some d) (timely : s.lateOn i q = false) :
    s.enqueue i q = ((s.testBegun i q).hold q.content).onQueue i fun _ => [⟨q, .armed⟩] := by
  have queued : (s.onQueue i fun _ => [⟨q, .queued⟩]).cue.queues[i] = [⟨q, .queued⟩] := onQueue_self ..
  refine (enqueue_head head total).trans ((armHead_ready 0 queued ready).trans
    ((if_neg (Bool.eq_false_iff.mp timely)).trans ?_))
  rw [testBegun_onQueue definition]
  exact onQueue_const ((s.testBegun i q).hold q.content) i _ _

theorem enqueue_late (ready : s.content.entries[q.content].state = .ready)
    (definition : s.content.entries[q.content].definition = some d) (late : s.lateOn i q = true) :
    s.enqueue i q = ((s.testBegun i q).endTest i).told [spliceAnswer i q .missedLate none] := by
  have queued : (s.onQueue i fun _ => [⟨q, .queued⟩]).cue.queues[i] = [⟨q, .queued⟩] := onQueue_self ..
  have unqueued : ((s.testBegun i q).endTest i).onQueue i (fun _ => []) = (s.testBegun i q).endTest i :=
    onQueue_of_fixed (by rw [testBegun_endTest definition]; exact head.symm)
  refine (enqueue_head head total).trans ((armHead_ready 0 queued ready).trans ((if_pos late).trans ?_))
  rw [testBegun_onQueue definition]
  exact congrArg (fun x : State => x.told [spliceAnswer i q .missedLate none])
    ((onQueue_const ((s.testBegun i q).endTest i) i _ _).trans unqueued)

end

/-! ## APPLY_STAGED and RESUME (R68, R71) -/

theorem applyStaged_ends {groups arbiter : Bool} (out : s.resetHeld = false) (started : s.fault.part ≠ .starting)
    (e : s.handleApplyStaged ref groups arbiter = u) : ∃ t, exec (.applyStaged ref groups arbiter) s = .next t ∧ u.EndsAs t :=
  takenCue_ends (f := fun s => s.handleApplyStaged ref groups arbiter) out started e

theorem resume_ends (out : s.resetHeld = false) (started : s.fault.part ≠ .starting) (e : s.handleResume ref = u) :
    ∃ t, exec (.resume ref) s = .next t ∧ u.EndsAs t :=
  takenCue_ends (f := fun s => s.handleResume ref) out started e

theorem onFault_congr {f g : FaultUnit → FaultUnit} (same : f s.fault = g s.fault) : s.onFault f = s.onFault g :=
  congrArg (fun v => { s with fault := v }) same

theorem onFault_onFault (s : State) (f g : FaultUnit → FaultUnit) : (s.onFault f).onFault g = s.onFault (g ∘ f) := rfl

/-- What RESUME leaves of the Fault Unit: the latch cleared, the part in OPERATING where both holds are clear (R183, R186). -/
def FaultUnit.resumed (u : FaultUnit) : FaultUnit :=
  { u.resumeLatch with
    part := if u.resumeLatch.part = .bypass ∧ u.resumeLatch.pinHold = false ∧ u.resumeLatch.latch = none then .operating
      else u.resumeLatch.part }

theorem handleResume_eq (s : State) (ref : CueRef) : s.handleResume ref =
    ((s.onReport fun u => { u with halted := false }).onFault FaultUnit.resumed).told
      [cueAnswer ref 14 none none s.resumeOutcome none] := by
  unfold State.handleResume
  dsimp only
  rw [returnIfClear_eq]
  rfl

theorem resumeLatch_eq {u : FaultUnit} (clears : u.latch ≠ some .transparent) : u.resumeLatch = { u with latch := none } := by
  unfold FaultUnit.resumeLatch
  split
  · next set => exact absurd set clears
  all_goals rfl

theorem resumed_eq {u : FaultUnit} (clears : u.latch ≠ some .transparent) : u.resumed =
    { u with latch := none, part := if u.part = .bypass ∧ u.pinHold = false then .operating else u.part } := by
  unfold FaultUnit.resumed
  rw [resumeLatch_eq clears]
  simp only [and_true]

theorem onFault_of_fixed {f : FaultUnit → FaultUnit} (fixed : f s.fault = s.fault) : s.onFault f = s :=
  congrArg (fun v => { s with fault := v }) fixed

end Sys2Proof.Machine

namespace Sys2Proof.Proofs

open Sys2Proof.Machine

/-- Settles O42, by where the cue finds its queue. -/
theorem spliceCueQueued : Obligations.SpliceCueQueued := by
  intro s mark ref b i c out operating service content time defined present
  have started := not_starting operating
  have handled := handleSplice_checked (ref := ref) operating service content time defined present
  refine ⟨fun full => ?full, fun room total behind => ?behind, fun head total scanned => ?waits, fun head total failed => ?misses⟩
  case full => exact splice_ends out started (handled.trans (enqueue_full full))
  case behind => exact splice_ends out started (handled.trans (enqueue_behind room total behind))
  case waits => exact splice_ends out started (handled.trans (enqueue_waits head total scanned))
  case misses => exact splice_ends out started (handled.trans (enqueue_misses head total failed))

/-- Settles O43: the cue becomes the head at once, and is late or not. -/
theorem spliceCueArmed : Obligations.SpliceCueArmed := by
  intro s mark ref b i c d v out operating service content time defined ready definition head total
  have started := not_starting operating
  have handled := handleSplice_checked (ref := ref) operating service content time (by rw [defined]; exact nofun)
    (by rw [ready]; exact nofun)
  intro w cue arm n late test asked ends
  have armed : arm = s.armedAt i := by
    unfold State.armedAt
    rw [defined] <;> rfl
  clear_value arm
  subst armed
  refine ⟨fun timely => ?armed, fun late => ?late⟩
  case armed =>
    have timely := Bool.eq_false_iff.mpr fun l => timely ((lateOn_iff s i (queuedCue mark ref b c)).mp l)
    have asks := testBegun_eq (i := i) (cue := queuedCue mark ref b c) definition
    refine splice_ends out started ((handled.trans (enqueue_armed head total ready definition timely)).trans ?_)
    rw [asks]
    rfl
  case late =>
    have late := (lateOn_iff s i (queuedCue mark ref b c)).mpr late
    have asks := testBegun_endTest (i := i) (cue := queuedCue mark ref b c) definition
    refine splice_ends out started ((handled.trans (enqueue_late head total ready definition late)).trans ?_)
    rw [asks]
    rfl

/-- Settles O49, by the two flags. -/
theorem applyStaged : Obligations.ApplyStaged := by
  intro s ref out operating
  have started := not_starting operating
  have taken := not_bypassed operating
  refine ⟨applyStaged_ends out started ?_, applyStaged_ends out started ?_, applyStaged_ends out started ?_,
    applyStaged_ends out started ?_⟩
  all_goals
    unfold State.handleApplyStaged
    rw [taken]
    rfl

/-- Settles O51, by the part state and the latch. -/
theorem resume : Obligations.Resume := by
  refine fun s ref out => ⟨fun operating clear => ?operating, fun cause bypass pin latch kept => ?clears, fun bypass pin kept => ?held⟩
  case operating =>
    have same : s.fault.resumed = s.fault := by
      rw [resumed_eq (by rw [clear]; exact nofun), operating]
      simp only [reduceCtorEq, false_and, if_false]
      rw [← operating, ← clear]
    refine resume_ends out (not_starting operating) ((handleResume_eq s ref).trans ?_)
    rw [onFault_of_fixed (s := s.onReport _) same]
    unfold State.resumeOutcome
    rw [operating]
  case clears =>
    have left : s.fault.resumed = { s.fault with latch := none, part := .operating } := by
      rw [resumed_eq (by rw [latch]; exact fun e => kept (Option.some.inj e)), if_pos ⟨bypass, pin⟩]
    have outcome : s.resumeOutcome = .done := by
      unfold State.resumeOutcome
      rw [bypass, pin, latch]
      exact if_neg fun e => kept (Option.some.inj e)
    refine resume_ends out (by rw [bypass]; exact nofun) ((handleResume_eq s ref).trans ?_)
    rw [outcome]
    exact congrArg (fun u => (State.told { s with report := _, fault := u } _)) left
  case held =>
    have left : s.fault.resumed = { s.fault with latch := none } := by
      rw [resumed_eq kept, if_neg (by rw [pin]; exact fun e => absurd e.2 nofun)]
    have outcome : s.resumeOutcome = .pinHeld := by
      unfold State.resumeOutcome
      rw [bypass, pin]
      rfl
    refine resume_ends out (by rw [bypass]; exact nofun) ((handleResume_eq s ref).trans ?_)
    rw [outcome]
    exact congrArg (fun u => (State.told { s with report := _, fault := u } _)) left

end Sys2Proof.Proofs
end

section
/-! SUPPORT. The refusals of cues by the part state, by form and by name (03, 3.2); CONTENT_DEFINE and CONTENT_RELEASE (04, 4.2). -/

namespace Sys2Proof.Machine

variable {s u : State} {i : Fin 64} {c : Fin 128} {ref : CueRef} {service content : Byte} {cueId : BitVec 32}

theorem contentDefine_ends {b : DefineBody} (out : s.resetHeld = false) (started : s.fault.part ≠ .starting)
    (e : s.handleContentDefine ref b = u) : ∃ t, exec (.contentDefine ref b) s = .next t ∧ u.EndsAs t :=
  takenCue_ends (f := fun s => s.handleContentDefine ref b) out started e

theorem contentRelease_ends (out : s.resetHeld = false) (started : s.fault.part ≠ .starting)
    (e : s.handleContentRelease ref content = u) : ∃ t, exec (.contentRelease ref content) s = .next t ∧ u.EndsAs t :=
  takenCue_ends (f := fun s => s.handleContentRelease ref content) out started e

theorem alertStart_ends {b : AlertBody} (out : s.resetHeld = false) (started : s.fault.part ≠ .starting)
    (e : s.handleAlertStart ref b = u) : ∃ t, exec (.alertStart ref b) s = .next t ∧ u.EndsAs t :=
  takenCue_ends (f := fun s => s.handleAlertStart ref b) out started e

/-! ## Form (R55) -/

theorem checkAlert_none {b : AlertBody}
    (bad : 4 ≤ b.priority.toNat ∨ (b.mode ≠ 0 ∧ b.mode ≠ 1) ∨ b.groups = 0 ∨ 128 ≤ b.content.toNat) : checkAlert b = none := by
  unfold checkAlert
  split
  · next mode c modes contents =>
    rcases bad with priority | ⟨notFull, notAudio⟩ | groups | content
    · exact dif_neg (Nat.not_lt.mpr priority)
    · have none : modeOf b.mode.toNat = none :=
        modeOf_none (fun e => notFull (BitVec.eq_of_toNat_eq e)) (fun e => notAudio (BitVec.eq_of_toNat_eq e))
      exact absurd (none.symm.trans modes) nofun
    · simp only [if_pos groups, dite_eq_ite, ite_self]
    · exact absurd ((contentIndex_none content).symm.trans contents) nofun
  · rfl

/-- An ALERT_START cue of good form. -/
theorem checkAlert_some {b : AlertBody} (priority : b.priority.toNat < 4) (mode : b.mode = 0 ∨ b.mode = 1) (groups : b.groups ≠ 0)
    (content : b.content.toNat = c.val) : checkAlert b =
      some ⟨b.alertId, b.groups, ⟨b.priority.toNat, priority⟩, if b.mode = 0 then .full else .audioOnly, c, b.duration⟩ := by
  have named : modeOf b.mode.toNat = some (if b.mode = 0 then .full else .audioOnly) := by
    rcases mode with e | e <;> rw [e] <;> rfl
  unfold checkAlert
  rw [named, contentIndex_of_toNat content]
  exact (dif_pos priority).trans (if_neg groups)

theorem mapM_none {α β : Type} {f : α → Option β} {l : List α} {a : α} (mem : a ∈ l) (fails : f a = none) :
    l.mapM f = none := by
  induction l with
  | nil => cases mem
  | cons x l ih =>
    rw [List.mapM_cons]
    rcases List.mem_cons.mp mem with rfl | mem
    · rw [fails]; rfl
    · rw [ih mem]
      cases f x <;> rfl

theorem defineComponent_none {b : DefineBody} {k : Nat}
    (bad : b.comps.extractLsb' (16 * k + 13) 2 = 0 ∨ b.comps.extractLsb' (16 * k) 13 = 8191) : defineComponent b k = none := by
  unfold defineComponent
  rcases bad with role | pid
  · rw [role]; rfl
  · split
    · exact if_pos pid
    · rfl

/-- A CONTENT_DEFINE cue that passes its checks is of good form. -/
theorem checkDefine_form {b : DefineBody} {d : ContentDef} (h : checkDefine b = some (c, d)) :
    b.content.toNat < 128 ∧ strideValid b.stride.toNat = true ∧ (1 ≤ b.packets.toNat ∧ b.packets.toNat ≤ 16777215) ∧
      b.base.toNat % 4 = 0 ∧ b.base.toNat + b.packets.toNat * b.stride.toNat ≤ addressLimit ∧
      (1 ≤ b.count.toNat ∧ b.count.toNat ≤ 8) ∧ ∀ k < b.count.toNat, defineComponent b k ≠ none := by
  unfold checkDefine at h
  split at h
  · cases h
  · next c' index =>
    have small : b.content.toNat < 128 := by
      by_contra big
      exact absurd ((contentIndex_none (Nat.not_lt.mp big)).symm.trans index) nofun
    dsimp only at h
    split at h
    · next ranges =>
      simp only [Bool.and_eq_true, decide_eq_true_eq, beq_iff_eq] at ranges
      obtain ⟨⟨⟨⟨stride, packets⟩, base⟩, limit⟩, count⟩ := ranges
      split at h
      · next comps formed =>
        refine ⟨small, stride, packets, base, limit, count, fun k below fails => ?_⟩
        exact absurd ((mapM_none (List.mem_range.mpr below) fails).symm.trans formed) nofun
      · cases h
    · cases h

theorem checkDefine_none {b : DefineBody}
    (bad : 128 ≤ b.content.toNat ∨ (b.stride.toNat ≠ 188 ∧ b.stride.toNat ≠ 192 ∧ b.stride.toNat ≠ 256) ∨ b.packets.toNat = 0 ∨
      16777215 < b.packets.toNat ∨ b.base.toNat % 4 ≠ 0 ∨ 2 ^ 40 < b.base.toNat + b.packets.toNat * b.stride.toNat ∨
      b.count.toNat = 0 ∨ 8 < b.count.toNat ∨
      (∃ k, k < b.count.toNat ∧ k < 8 ∧ ((b.comps.extractLsb' (16 * k + 13) 2 = 0) ∨ b.comps.extractLsb' (16 * k) 13 = 8191))) :
    checkDefine b = none := by
  by_contra some
  obtain ⟨⟨c, d⟩, checked⟩ := Option.ne_none_iff_exists'.mp some
  obtain ⟨index, stride, packets, base, limit, count, comps⟩ := checkDefine_form checked
  simp only [strideValid, Bool.or_eq_true, beq_iff_eq] at stride
  rw [show addressLimit = 2 ^ 40 from rfl] at limit
  rcases bad with e | ⟨e1, e2, e3⟩ | e | e | e | e | e | e | ⟨k, below, -, e⟩
  case inr.inr.inr.inr.inr.inr.inr.inr => exact comps k below (defineComponent_none e)
  all_goals omega

/-! ## CONTENT_DEFINE (R75, R77) -/

theorem handleContentDefine_refused {b : DefineBody} {d : ContentDef} {o : CueOutcome} (operating : s.fault.part = .operating)
    (formed : checkDefine b = some (c, d)) (refused : s.defineRefusal c d = some o) :
    s.handleContentDefine ref b = s.told [cueAnswer ref 8 none none o none] := by
  simp only [State.handleContentDefine, not_bypassed operating, formed, refused]
  rfl

theorem handleContentDefine_accepted {b : DefineBody} {d : ContentDef} (operating : s.fault.part = .operating)
    (formed : checkDefine b = some (c, d)) (accepted : s.defineRefusal c d = none) :
    s.handleContentDefine ref b = (s.defineContent c d).told [cueAnswer ref 8 none none .done none] := by
  simp only [State.handleContentDefine, not_bypassed operating, formed, accepted]
  rfl

/-- The region of a definition meets a window where some byte lies in both. -/
theorem regionInWindow_iff {d : ContentDef} : s.regionInWindow d = true ↔
    ∃ w : Fin 16, ∃ a, s.path.windows[w].base ≤ a ∧ a < s.path.windows[w].base + windowSize s.path.windows s.path.windows[w] ∧
      d.base ≤ a ∧ a < d.base + d.packets * d.stride := by
  simp only [State.regionInWindow, List.any_eq_true, Vector.mem_toList_iff, Vector.mem_iff_getElem, shareByte, decide_eq_true_eq]
  constructor
  · rintro ⟨e, ⟨w, small, rfl⟩, meets⟩
    refine ⟨⟨w, small⟩, max d.base s.path.windows[w].base, ?_⟩
    simp only [Fin.getElem_fin]
    omega
  · rintro ⟨w, a, meets⟩
    refine ⟨_, ⟨w.val, w.isLt, rfl⟩, ?_⟩
    simp only [Fin.getElem_fin] at meets
    omega

theorem dedup_length_iff {l : List Pid} : l.dedup.length = l.length ↔ l.Nodup :=
  ⟨fun same => List.dedup_eq_self.mp ((List.dedup_sublist l).eq_of_length same), fun nodup => by rw [List.dedup_eq_self.mpr nodup]⟩

theorem defineRefusal_eq {d : ContentDef} (free : s.content.entries[c].useCount = 0) : s.defineRefusal c d =
    if s.regionInWindow d = true ∨ ¬ (d.comps.map ContentComponent.pid).Nodup then some .conflict
    else if s.content.entries[c].state ≠ .queued ∧ 8 ≤ s.content.scanQueue.length then some .queueFull else none := by
  have distinct : (d.comps.map ContentComponent.pid).dedup.length ≠ d.comps.length ↔
      ¬ (d.comps.map ContentComponent.pid).Nodup := by
    rw [← dedup_length_iff, List.length_map]
  unfold State.defineRefusal
  rw [if_neg (by rw [free]; decide)]
  simp only [distinct]
  split
  · next meets => rw [if_pos (.inl meets)]
  · next off =>
    split
    · next double => rw [if_pos (.inr double)]
    · next single => rw [if_neg (not_or.mpr ⟨off, single⟩)]; rfl

/-- A scan in progress goes on (R77). -/
theorem startScan_busy {u : ContentUnit} (busy : u.scan ≠ none) : u.startScan = u := by
  unfold ContentUnit.startScan
  split
  · next idle _ => exact absurd idle busy
  · rfl

theorem startScan_idle {u : ContentUnit} (idle : u.scan = none) (queue : u.scanQueue = []) : u.startScan = u := by
  unfold ContentUnit.startScan
  rw [idle, queue]

/-- A definition behind a scan in progress waits, in its place or behind the others. -/
theorem defineContent_busy {d : ContentDef} (busy : s.content.scan ≠ none) : s.defineContent c d = s.onContent fun u =>
    { u with
      scanQueue := if u.entries[c].state = .queued then u.scanQueue else u.scanQueue ++ [c]
      entries := u.entries.set c { state := .queued, definition := some d } } := by
  unfold State.defineContent State.startScan State.onContent
  dsimp only
  rw [startScan_busy]
  exact busy

/-- An idle scanner starts the scan at once, with its hold. -/
theorem defineContent_idle {d : ContentDef} (idle : s.content.scan = none) (queue : s.content.scanQueue = [])
    (unqueued : s.content.entries[c].state ≠ .queued) : s.defineContent c d = s.onContent fun u =>
      { u with
        entries := u.entries.set c { state := .scanning, definition := some d, useCount := 1 }
        scan := some ⟨c, u.nextScan, 0, 0, [], List.replicate d.comps.length none, none, none⟩
        nextScan := u.nextScan + 1 } := by
  have queued : (if s.content.entries[c].state = .queued then s.content.scanQueue else s.content.scanQueue ++ [c]) = [c] := by
    rw [if_neg unqueued, queue]; rfl
  unfold State.defineContent State.startScan ContentUnit.startScan State.onContent
  dsimp only
  rw [queued, idle]
  simp [modifyAt, queue]

/-! ## A content notice (R60) and CONTENT_RELEASE (R76) -/

/-- The head of a service's queue waits on a content. -/
def State.waitsOn (s : State) (c : Fin 128) (i : Fin 64) : Prop :=
  ∃ e, s.cue.queues[i].head? = some e ∧ e.state = .waiting ∧ e.cue.content = c

/-- A content notice for one service: its head is armed where it waits on the content (R60). -/
def State.noticeAt (c : Fin 128) (s : State) (i : Fin 64) : State :=
  match s.cue.queues[i] with
  | e :: _ => if e.state = .waiting ∧ e.cue.content = c then s.arm i else s
  | [] => s

theorem contentNotice_eq (s : State) (c : Fin 128) : s.contentNotice c = (List.finRange 64).foldl (State.noticeAt c) s := rfl

theorem noticeAt_of_not_waiting (idle : ¬ s.waitsOn c i) : s.noticeAt c i = s := by
  unfold State.noticeAt
  split
  · next e rest q => exact if_neg fun waits => idle ⟨e, by rw [q]; rfl, waits⟩
  · rfl

theorem noticeAt_waiting {e : QueueEntry} {rest : List QueueEntry} (q : s.cue.queues[i] = e :: rest)
    (waiting : e.state = .waiting) (named : e.cue.content = c) : s.noticeAt c i = s.arm i := by
  unfold State.noticeAt
  rw [q]
  exact if_pos ⟨waiting, named⟩

theorem notices_of_none_waiting (l : List (Fin 64)) (idle : ∀ i ∈ l, ¬ s.waitsOn c i) : l.foldl (State.noticeAt c) s = s := by
  induction l with
  | nil => rfl
  | cons i l ih =>
    rw [List.foldl_cons, noticeAt_of_not_waiting (idle i (List.mem_cons_self ..))]
    exact ih fun j mem => idle j (List.mem_cons_of_mem _ mem)

theorem contentNotice_of_none_waiting (idle : ∀ i, ¬ s.waitsOn c i) : s.contentNotice c = s :=
  notices_of_none_waiting _ fun i _ => idle i

/-- Where one service alone waits, and no longer does after its head has been armed, the notice is that arming. -/
theorem contentNotice_of_one_waiting (only : ∀ j, s.waitsOn c j → j = i) (settled : ∀ j, ¬ (s.noticeAt c i).waitsOn c j) :
    s.contentNotice c = s.noticeAt c i := by
  obtain ⟨before, behind, split⟩ := List.append_of_mem (List.mem_finRange i)
  have once : i ∉ before := by
    have nodup := List.nodup_finRange 64
    rw [split] at nodup
    exact fun mem => (List.nodup_append.mp nodup).2.2 i mem i (List.mem_cons_self ..) rfl
  rw [contentNotice_eq, split, List.foldl_append, List.foldl_cons,
    notices_of_none_waiting before fun j mem waits => once (only j waits ▸ mem)]
  exact notices_of_none_waiting behind fun j _ => settled j

theorem handleContentRelease_held (operating : s.fault.part = .operating) (index : content.toNat = c.val)
    (present : s.content.entries[c].state ≠ .free) (held : 0 < s.content.entries[c].useCount) :
    s.handleContentRelease ref content = s.told [cueAnswer ref 9 none none .inUse none] := by
  have known : s.contentFree c = false := Bool.eq_false_iff.mpr fun free => present (contentFree_iff.mp free)
  simp only [State.handleContentRelease, not_bypassed operating, contentIndex_of_toNat index, known, if_pos held]
  rfl

theorem handleContentRelease_accepted (operating : s.fault.part = .operating) (index : content.toNat = c.val)
    (present : s.content.entries[c].state ≠ .free) (free : s.content.entries[c].useCount = 0) :
    s.handleContentRelease ref content = (s.releaseContent c).told [cueAnswer ref 9 none none .done none] := by
  have known : s.contentFree c = false := Bool.eq_false_iff.mpr fun free => present (contentFree_iff.mp free)
  have unheld : ¬ 0 < s.content.entries[c].useCount := by rw [free]; decide
  simp only [State.handleContentRelease, not_bypassed operating, contentIndex_of_toNat index, known, if_neg unheld]
  rfl

end Sys2Proof.Machine

namespace Sys2Proof.Proofs

open Sys2Proof.Machine

/-- Settles O41, check by check: the part state, the form, the names. -/
theorem cuesRefusedUnhandled : Obligations.CuesRefusedUnhandled := by
  refine ⟨?bypass, ?services, ?others⟩
  case bypass =>
    intro s ref body service content cueId alert alertId define groups arbiter out bypass c k svc id mem
    have started : s.fault.part ≠ .starting := by rw [bypass]; exact nofun
    have refused := bypassed_of bypass
    simp only [List.mem_cons, Prod.mk.injEq, List.not_mem_nil, or_false] at mem
    rcases mem with ⟨rfl, rfl, rfl, rfl⟩ | ⟨rfl, rfl, rfl, rfl⟩ | ⟨rfl, rfl, rfl, rfl⟩ | ⟨rfl, rfl, rfl, rfl⟩ |
      ⟨rfl, rfl, rfl, rfl⟩ | ⟨rfl, rfl, rfl, rfl⟩ | ⟨rfl, rfl, rfl, rfl⟩ | ⟨rfl, rfl, rfl, rfl⟩ | ⟨rfl, rfl, rfl, rfl⟩ |
      ⟨rfl, rfl, rfl, rfl⟩ | ⟨rfl, rfl, rfl, rfl⟩
    · exact splice_ends (mark := false) out started (if_pos refused)
    · exact splice_ends (mark := true) out started (if_pos refused)
    · exact cancel_ends out started (if_pos refused)
    · exact flushService_ends out started (if_pos refused)
    · exact returnNow_ends out started (if_pos refused)
    · exact alertStart_ends out started (if_pos refused)
    · exact takenCue_ends (f := fun s => s.handleAlertEnd ref alertId) out started (if_pos refused)
    · exact contentDefine_ends out started (if_pos refused)
    · exact contentRelease_ends out started (if_pos refused)
    · exact applyStaged_ends out started (if_pos refused)
    · exact takenCue_ends (f := fun s => s.handleBypass ref) out started (if_pos refused)
  case services =>
    intro s ref body service cueId out operating
    have started := not_starting operating
    have taken := not_bypassed operating
    refine ⟨fun mark bad => splice_ends out started (handleSplice_malformed operating bad),
      fun mark i c service content time absent =>
        splice_ends out started (handleSplice_undefined operating service content time absent), fun c k id mem => ?_⟩
    simp only [List.mem_cons, Prod.mk.injEq, List.not_mem_nil, or_false] at mem
    rcases mem with ⟨rfl, rfl, rfl⟩ | ⟨rfl, rfl, rfl⟩ | ⟨rfl, rfl, rfl⟩
    · refine ⟨fun big => cancel_ends out started ?_, fun i index undefined => cancel_ends out started ?_⟩
      · simp only [State.handleCancel, taken, serviceIndex_none big]; rfl
      · simp only [State.handleCancel, taken, serviceIndex_of_toNat index, definedService_of_none undefined]; rfl
    · refine ⟨fun big => flushService_ends out started ?_, fun i index undefined => flushService_ends out started ?_⟩
      · simp only [State.handleFlush, taken, serviceIndex_none big]; rfl
      · simp only [State.handleFlush, taken, serviceIndex_of_toNat index, definedService_of_none undefined]; rfl
    · refine ⟨fun big => returnNow_ends out started ?_, fun i index undefined => returnNow_ends out started ?_⟩
      · simp only [State.handleReturnNow, taken, serviceIndex_none big]; rfl
      · simp only [State.handleReturnNow, taken, serviceIndex_of_toNat index, definedService_of_none undefined]; rfl
  case others =>
    intro s ref out operating
    have started := not_starting operating
    have taken := not_bypassed operating
    refine ⟨fun b => ⟨fun bad => alertStart_ends out started ?_, fun c priority mode groups content free =>
        alertStart_ends out started ?_⟩, fun b bad => contentDefine_ends out started ?_,
      fun content => ⟨fun big => contentRelease_ends out started ?_, fun c index free => contentRelease_ends out started ?_⟩⟩
    · simp only [State.handleAlertStart, taken, checkAlert_none bad]; rfl
    · simp only [State.handleAlertStart, taken, checkAlert_some priority mode groups content, contentFree_iff.mpr free]; rfl
    · simp only [State.handleContentDefine, taken, checkDefine_none bad]; rfl
    · simp only [State.handleContentRelease, taken, contentIndex_none big]; rfl
    · simp only [State.handleContentRelease, taken, contentIndex_of_toNat index, contentFree_iff.mpr free]; rfl

/-- Settles O47, by the refusals in order and by what the scanner does. -/
theorem contentDefined : Obligations.ContentDefined := by
  intro s ref b c d out operating formed
  have started := not_starting operating
  intro told meets queued fresh
  have refuse (o : CueOutcome) (refused : s.defineRefusal c d = some o) : told s o :=
    contentDefine_ends out started (handleContentDefine_refused operating formed refused)
  have accept (x : State) (accepted : s.defineRefusal c d = none) (defined : s.defineContent c d = x) : told x .done :=
    contentDefine_ends out started (defined ▸ handleContentDefine_accepted operating formed accepted)
  refine ⟨fun held => refuse .inUse (if_pos held), fun free conflict => refuse .conflict ?_, fun free off distinct => ?_⟩
  · rw [defineRefusal_eq free, if_pos (conflict.imp regionInWindow_iff.mpr id)]
  · have keeps : ¬ (s.regionInWindow d = true ∨ ¬ (d.comps.map ContentComponent.pid).Nodup) :=
      not_or.mpr ⟨fun meets => off (regionInWindow_iff.mp meets), not_not.mpr distinct⟩
    have refusal := (defineRefusal_eq (d := d) free).trans (if_neg keeps)
    refine ⟨fun unqueued full => refuse .queueFull (refusal.trans (if_pos ⟨unqueued, full⟩)), fun busy isQueued => ?_,
      fun busy unqueued room => ?_, fun idle empty unqueued => ?_⟩
    · refine accept _ (refusal.trans (if_neg fun full => full.1 isQueued)) ((defineContent_busy busy).trans ?_)
      unfold State.onContent
      dsimp only
      rw [if_pos isQueued]
    · refine accept _ (refusal.trans (if_neg fun full => Nat.not_lt.mpr full.2 room)) ((defineContent_busy busy).trans ?_)
      unfold State.onContent
      dsimp only
      rw [if_neg unqueued]
    · exact accept _ (refusal.trans (if_neg fun full => absurd full.2 (by rw [empty]; decide)))
        (defineContent_idle idle empty unqueued)

/-- Settles O48, by whether a head waits on the content. -/
theorem contentReleased : Obligations.ContentReleased := by
  intro s ref content c out operating index present done freed waits
  have started := not_starting operating
  refine ⟨fun held => ?held, fun free none => ?none, fun i e free single waiting only => ?one⟩
  case held => exact contentRelease_ends out started (handleContentRelease_held operating index present held)
  case none =>
    refine contentRelease_ends out started ((handleContentRelease_accepted operating index present free).trans ?_)
    have released : s.releaseContent c = freed :=
      contentNotice_of_none_waiting fun i ⟨e, waits⟩ => none i e waits
    rw [released]
  case one =>
    refine contentRelease_ends out started ((handleContentRelease_accepted operating index present free).trans ?_)
    have armed : freed.noticeAt c i = (freed.onQueue i fun _ => []).told [spliceAnswer i e.cue .missedContent none] := by
      have q : freed.cue.queues[i] = [e] := single
      have isFree : freed.content.entries[e.cue.content].state = .free := by
        simp only [freed, State.onContent_content, set_fin, if_pos waiting.2.2.symm]
      rw [noticeAt_waiting q waiting.2.1 waiting.2.2]
      unfold State.arm
      rw [q]
      exact armHead_misses 0 q (.inr isFree)
    have released : s.releaseContent c = freed.noticeAt c i := by
      refine contentNotice_of_one_waiting (fun j ⟨e', waits⟩ => only j e' waits) fun j ⟨e', waits⟩ => ?_
      rw [armed] at waits
      have left : (modifyAt s.cue.queues i fun _ => [])[j].head? = some e' := waits.1
      rw [modifyAt_fin] at left
      split at left
      · cases left
      · next other => exact other (only j e' ⟨left, waits.2⟩).symm
    rw [released, armed]
    rfl

end Sys2Proof.Proofs
end

section
/-! SUPPORT. Configuration records (11, R192): how one is told, the four small kinds (06, R117; 08, R161; 11, R194; 10, R179) and SERVICE
records (01, R20 to R22). -/

namespace Sys2Proof.Machine

variable {s u : State} {i : Fin 64} {origin : Origin}

/-! ## A record from its source (R67, R192) -/

theorem count_eeprom (u : StartLoader) (o : CueOutcome) : u.count false (o == .done) =
    if o = .done then { u with eepromLoaded := u.eepromLoaded + 1 } else { u with eepromRefused := u.eepromRefused + 1 } := by
  cases o <;> rfl

theorem count_boot (u : StartLoader) (o : CueOutcome) : u.count true (o == .done) =
    if o = .done then { u with bootLoaded := u.bootLoaded + 1 } else { u with bootRefused := u.bootRefused + 1 } := by
  cases o <;> rfl

theorem handleRecord_eq {r : ConfigRecord} {x : State} {o : CueOutcome} (h : s.configure (loadedAtStart origin) r = (x, o)) :
    s.handleRecord origin r = x.answered origin r.code o := by
  cases origin with
  | cue ref =>
    have h : s.configure false r = (x, o) := h
    simp only [State.handleRecord, State.handleConfigure, h]
    rfl
  | eeprom =>
    have h : s.configure true r = (x, o) := h
    simp only [State.handleRecord, State.loadRecord, h, count_eeprom]
    rfl
  | boot =>
    have h : s.configure true r = (x, o) := h
    simp only [State.handleRecord, State.loadRecord, h, count_boot]
    rfl

/-- A record that is handled ends its command with its outcome told. -/
theorem record_ends {r : ConfigRecord} {x : State} {o : CueOutcome} (out : s.resetHeld = false) (accepted : s.accepts origin = true)
    (h : s.configure (loadedAtStart origin) r = (x, o)) :
    ∃ t, (s.when (s.accepts origin) fun s => s.handleRecord origin r) = .next t ∧ (x.answered origin r.code o).EndsAs t :=
  occurs_ends out accepted (handleRecord_eq h)

/-! ## One index of a table alone acts -/

/-- A pass over a table in which one index alone acts is that index's act. -/
theorem foldl_finRange_one {n : Nat} {α : Type} (f : α → Fin n → α) (a : α) (i : Fin n) (before : ∀ j, j ≠ i → f a j = a)
    (behind : ∀ j, j ≠ i → f (f a i) j = f a i) : (List.finRange n).foldl f a = f a i := by
  have skip (b : α) (l : List (Fin n)) (idle : ∀ j ∈ l, f b j = b) : l.foldl f b = b := by
    induction l with
    | nil => rfl
    | cons j l ih =>
      rw [List.foldl_cons, idle j (List.mem_cons_self ..)]
      exact ih fun k mem => idle k (List.mem_cons_of_mem _ mem)
  obtain ⟨front, back, split⟩ := List.append_of_mem (List.mem_finRange i)
  have nodup := List.nodup_finRange n
  rw [split] at nodup
  obtain ⟨-, nodupBack, apart⟩ := List.nodup_append.mp nodup
  rw [split, List.foldl_append, List.foldl_cons,
    skip a front fun j mem => before j fun e => apart j mem i (List.mem_cons_self ..) e]
  exact skip _ back fun j mem => behind j fun e => (List.nodup_cons.mp nodupBack).1 (e ▸ mem)

theorem foldl_finRange_none {n : Nat} {α : Type} (f : α → Fin n → α) (a : α) (idle : ∀ j, f a j = a) :
    (List.finRange n).foldl f a = a := by
  generalize List.finRange n = l
  induction l with
  | nil => rfl
  | cons j l ih => rw [List.foldl_cons, idle j]; exact ih

/-! ## LIMITS (R40, R194) -/

theorem rearmSilence_unarmed (unarmed : ∀ c, s.timebase.clocks[i] = some c → c.silence = none) : s.rearmSilence i = s := by
  unfold State.rearmSilence
  split
  · rfl
  · next c present => rw [unarmed c present]

theorem rearmAll_unarmed (unarmed : ∀ (i : Fin 64) c, s.timebase.clocks[i] = some c → c.silence = none) : s.rearmAll = s :=
  foldl_finRange_none _ s fun i => rearmSilence_unarmed (unarmed i)

/-- A silence expiry is re-armed at the last sample plus the timeout, and occurs at once where that has passed (R40). -/
theorem rearmSilence_armed {c : Clock} {x last : StationTime} (present : s.timebase.clocks[i] = some c)
    (armed : c.silence = some x) (sampled : c.lastSample = some last) : s.rearmSilence i =
      if reached s.clock (after last s.silenceTicks) then
        (s.setClock i (some { c with silence := some (after last s.silenceTicks) })).silenceOccurs i
      else s.setClock i (some { c with silence := some (after last s.silenceTicks) }) := by
  unfold State.rearmSilence
  rw [present]
  dsimp only
  rw [armed, sampled]
  rfl

theorem setClock_at (s : State) (i : Fin 64) (c : Option Clock) : (s.setClock i c).timebase.clocks[i] = c := by
  simp

theorem setClock_setClock (s : State) (i : Fin 64) (c c' : Option Clock) : (s.setClock i c).setClock i c' = s.setClock i c' := by
  unfold State.setClock State.onTimebase
  simp

theorem setClock_other {j : Fin 64} (c : Option Clock) (other : j ≠ i) :
    (s.setClock i c).timebase.clocks[j] = s.timebase.clocks[j] := by
  rw [State.setClock_timebase_clocks, set_fin, if_neg other.symm]

/-- One armed service alone is re-armed. -/
theorem rearmAll_one {c : Clock} {x last : StationTime} (present : s.timebase.clocks[i] = some c)
    (armed : c.silence = some x) (sampled : c.lastSample = some last)
    (others : ∀ j : Fin 64, j ≠ i → ∀ c', s.timebase.clocks[j] = some c' → c'.silence = none) :
    s.rearmAll = s.rearmSilence i := by
  refine foldl_finRange_one _ s i (fun j ne => rearmSilence_unarmed (others j ne)) fun j ne => rearmSilence_unarmed fun c' here => ?_
  refine others j ne c' ?_
  rw [rearmSilence_armed present armed sampled] at here
  split at here
  · rw [silenceOccurs_eq (setClock_at ..), setClock_setClock] at here
    exact (setClock_other _ ne).symm.trans here
  · exact (setClock_other _ ne).symm.trans here

/-! ## POLICY (R179) -/

theorem errorOfCode_none {code : Nat} (bad : code = 0 ∨ 13 < code) : errorOfCode code = none := by
  refine List.find?_eq_none.mpr fun k _ => ?_
  have bound := (errorNumber k).isLt
  simp only [errorCode, beq_iff_eq]
  omega

theorem errorOfCode_some {code : Nat} (low : 1 ≤ code) (high : code ≤ 13) :
    ∃ k, errorOfCode code = some k ∧ (errorNumber k).val + 1 = code := by
  have all : ∀ n : Fin 13, (errorOfCode (n.val + 1)).isSome = true := by decide
  have named := all ⟨code - 1, by omega⟩
  simp only [Nat.sub_add_cancel low] at named
  obtain ⟨k, found⟩ := Option.isSome_iff_exists.mp named
  exact ⟨k, found, beq_iff_eq.mp (List.find?_some (p := fun k => errorCode k == code) found)⟩

theorem severityOf_none {code : Nat} (big : 1 < code) : severityOf code = none := by
  unfold severityOf
  split
  · cases big
  · exact absurd big (Nat.lt_irrefl 1)
  · rfl

theorem policyEntry_none {x : PolicyItemRec} (bad : x.kind = 0 ∨ 13 < x.kind.toNat ∨ 1 < x.severity.toNat) :
    policyEntry x = none := by
  unfold policyEntry
  rcases bad with zero | big | severity
  · rw [errorOfCode_none (.inl (by rw [zero]; rfl))]
  · rw [errorOfCode_none (.inr big)]
  · rw [severityOf_none severity]
    cases errorOfCode x.kind.toNat <;> rfl

/-- A policy entry of good form names its kind, with its mask and severity. -/
theorem policyEntry_some {x : PolicyItemRec} (low : 1 ≤ x.kind.toNat) (high : x.kind.toNat ≤ 13) (severity : x.severity.toNat ≤ 1) :
    ∃ k, (errorNumber k).val + 1 = x.kind.toNat ∧
      policyEntry x = some (k, ⟨x.masked, if x.severity = 0 then .contain else .bypass⟩) := by
  obtain ⟨k, found, number⟩ := errorOfCode_some low high
  have named : severityOf x.severity.toNat = some (if x.severity = 0 then .contain else .bypass) := by
    rcases Nat.le_one_iff_eq_zero_or_eq_one.mp severity with e | e
    · have zero : x.severity = 0 := BitVec.eq_of_toNat_eq e
      rw [zero]; rfl
    · have one : x.severity = 1 := BitVec.eq_of_toNat_eq e
      rw [one]; rfl
  refine ⟨k, number, ?_⟩
  unfold policyEntry
  rw [found, named]

/-- What the entries of a POLICY record leave of the policy: of each kind the last entry that names it (R179). -/
def policySet (items : List PolicyItemRec) (p : Vector PolicyItem 13) : Vector PolicyItem 13 :=
  Vector.ofFn fun k : Fin 13 =>
    match items.reverse.find? fun x => x.kind.toNat == k.val + 1 with
    | some x => ⟨x.masked, if x.severity = 0 then .contain else .bypass⟩
    | none => p[k]

theorem policySet_nil (p : Vector PolicyItem 13) : policySet [] p = p := by
  ext k h
  simp [policySet]

/-- The first entry is set before the others. -/
theorem policySet_cons {x : PolicyItemRec} {k : ErrorKind} (number : (errorNumber k).val + 1 = x.kind.toNat)
    (items : List PolicyItemRec) (p : Vector PolicyItem 13) : policySet (x :: items) p =
      policySet items (p.set (errorNumber k) ⟨x.masked, if x.severity = 0 then .contain else .bypass⟩) := by
  unfold policySet
  congr 1
  funext j
  rw [List.reverse_cons, List.find?_append]
  cases items.reverse.find? fun x => x.kind.toNat == j.val + 1 with
  | some y => rfl
  | none =>
    rw [Option.none_or, List.find?_cons, List.find?_nil, ← number, set_fin]
    by_cases same : errorNumber k = j
    · rw [if_pos same, same]; simp
    · have other : ((errorNumber k).val + 1 == j.val + 1) = false := by
        simp only [Nat.add_right_cancel_iff, beq_eq_false_iff_ne, ne_eq]
        exact fun e => same (Fin.ext e)
      rw [if_neg same, other]

theorem policy_entries {items : List PolicyItemRec}
    (form : ∀ x ∈ items, 1 ≤ x.kind.toNat ∧ x.kind.toNat ≤ 13 ∧ x.severity.toNat ≤ 1) :
    ∃ entries, items.mapM policyEntry = some entries ∧
      ∀ p : Vector PolicyItem 13, entries.foldl (fun p e => p.set (errorNumber e.1) e.2) p = policySet items p := by
  induction items with
  | nil => exact ⟨[], rfl, fun p => (policySet_nil p).symm⟩
  | cons x items ih =>
    obtain ⟨low, high, severity⟩ := form x (List.mem_cons_self ..)
    obtain ⟨k, number, entry⟩ := policyEntry_some low high severity
    obtain ⟨entries, mapped, folded⟩ := ih fun y mem => form y (List.mem_cons_of_mem _ mem)
    refine ⟨(k, ⟨x.masked, if x.severity = 0 then .contain else .bypass⟩) :: entries, ?_, fun p => ?_⟩
    · rw [List.mapM_cons, entry, mapped]; rfl
    · rw [List.foldl_cons, folded, policySet_cons number]

/-! ## SERVICE (R20 to R22) -/

theorem roleOf_none {code : Nat} (bad : code ≠ 1 ∧ code ≠ 2 ∧ code ≠ 3) : roleOf code = none := by
  unfold roleOf
  split
  · exact absurd rfl bad.1
  · exact absurd rfl bad.2.1
  · exact absurd rfl bad.2.2
  · rfl

theorem serviceComponents_none {comps : List RawComponent}
    (bad : ∃ c ∈ comps, c.role ≠ 1 ∧ c.role ≠ 2 ∧ c.role ≠ 3) : serviceComponents comps = none := by
  obtain ⟨c, mem, notVideo, notAudio, notData⟩ := bad
  refine mapM_none mem ?_
  rw [roleOf_none ⟨fun e => notVideo (BitVec.eq_of_toNat_eq e), fun e => notAudio (BitVec.eq_of_toNat_eq e),
    fun e => notData (BitVec.eq_of_toNat_eq e)⟩]
  rfl

/-- The fields of a SERVICE record that spell a component. -/
def rawOf (c : Component) : RawComponent :=
  ⟨c.source, c.output, match c.role with | .video => 1 | .audio => 2 | .data => 3⟩

theorem serviceComponents_raw (comps : List Component) : serviceComponents (comps.map rawOf) = some comps := by
  unfold serviceComponents
  induction comps with
  | nil => rfl
  | cons c comps ih =>
    have one : (roleOf (rawOf c).role.toNat).map (fun role => (⟨(rawOf c).source, (rawOf c).output, role⟩ : Component)) = some c := by
      obtain ⟨source, output, role⟩ := c
      cases role <;> rfl
    rw [List.map_cons, List.mapM_cons, one, ih]
    rfl

theorem ingestWindow_none {w : Byte} (absent : 16 ≤ w.toNat ∨
    (∃ i : Fin 16, w.toNat = i.val ∧ ∀ b n d x, s.path.windows[i] ≠ .ingest b n d x)) : s.ingestWindow w = none := by
  unfold State.ingestWindow
  rcases absent with big | ⟨i, index, other⟩
  · exact dif_neg (Nat.not_lt.mpr big)
  · obtain ⟨n, small⟩ := i
    obtain rfl : w.toNat = n := index
    rw [dif_pos small]
    refine if_neg fun code => ?_
    cases e : s.path.windows[w.toNat] with
    | ingest b n d x => exact other b n d x e
    | _ => exact absurd ((congrArg WindowEntry.kindCode e).symm.trans code) (by simp [WindowEntry.kindCode])

theorem ingestWindow_some {w : Byte} {i : Fin 16} {b n d x : Nat} (index : w.toNat = i.val)
    (entry : s.path.windows[i] = .ingest b n d x) : s.ingestWindow w = some i := by
  obtain ⟨k, small⟩ := i
  obtain rfl : w.toNat = k := index
  unfold State.ingestWindow
  rw [dif_pos small]
  exact if_pos (congrArg WindowEntry.kindCode entry)

theorem serviceBusy_iff : s.serviceBusy i = true ↔ s.ingest.services[i] ≠ none ∧
    (s.splice.services[i].state ≠ .idle ∨ s.alert.overlays[i] ≠ .none ∨ s.cue.queues[i] ≠ []) := by
  simp [State.serviceBusy, Option.isSome_iff_ne_none, or_assoc]

/-- The PID rules of R21 say that no PID is used twice on one side, none is both, and none is the null PID. -/
theorem pidRules_false {all : List Component} : pidRules all = false ↔
    (¬ (all.map Component.source).Nodup ∨ ¬ (all.map Component.output).Nodup ∨
      (∃ (j k : Fin all.length), j ≠ k ∧ all[j].output = all[k].source) ∨ ∃ c ∈ all, c.source = 8191 ∨ c.output = 8191) := by
  have sources : ((all.map Component.source).dedup.length == all.length) = true ↔ (all.map Component.source).Nodup := by
    rw [beq_iff_eq, ← dedup_length_iff, List.length_map]
  have outputs : ((all.map Component.output).dedup.length == all.length) = true ↔ (all.map Component.output).Nodup := by
    rw [beq_iff_eq, ← dedup_length_iff, List.length_map]
  have crossed : ((List.range all.length).all fun i => (List.range all.length).all fun j =>
      i == j || (all[i]?.map Component.output) != (all[j]?.map Component.source)) = true ↔
      ¬ ∃ (j k : Fin all.length), j ≠ k ∧ all[j].output = all[k].source := by
    simp only [List.all_eq_true, List.mem_range, Bool.or_eq_true, beq_iff_eq, bne_iff_ne, not_exists, not_and]
    constructor
    · intro rule j k ne same
      rcases rule j.val j.isLt k.val k.isLt with e | e
      · exact ne (Fin.ext e)
      · refine e ?_
        rw [List.getElem?_eq_getElem j.isLt, List.getElem?_eq_getElem k.isLt]
        exact congrArg some same
    · intro rule j jlt k klt
      by_cases e : j = k
      · exact .inl e
      · refine .inr fun same => rule ⟨j, jlt⟩ ⟨k, klt⟩ (fun f => e (congrArg Fin.val f)) ?_
        rw [List.getElem?_eq_getElem jlt, List.getElem?_eq_getElem klt] at same
        exact Option.some.inj same
  have nulls : (all.all fun c => c.source != nullPid && c.output != nullPid) = true ↔
      ¬ ∃ c ∈ all, c.source = 8191 ∨ c.output = 8191 := by
    simp [nullPid, List.all_eq_true]
  rw [← Bool.not_eq_true, pidRules, Bool.and_eq_true, Bool.and_eq_true, Bool.and_eq_true, sources, outputs, crossed, nulls]
  simp only [not_and_or, not_not, or_assoc]

/-- The last output counter that a component of a new definition keeps: that of the old definition's component of the same output
PID (R91). -/
def State.keptCounter (s : State) (i : Fin 64) (c : Component) : Option (BitVec 4) :=
  match s.ingest.services[i] with
  | some d =>
    match d.comps.findIdx? (·.output == c.output) with
    | some k => (s.splice.services[i].outputCC.getD k {}).last
    | none => none
  | none => none

theorem outputStart_eq (s : State) (i : Fin 64) (comps : List Component) :
    outputStart s.ingest.services[i] s.splice.services[i].outputCC comps = comps.map fun c => ⟨s.keptCounter i c, 0, none⟩ := by
  refine List.map_congr_left fun c _ => ?_
  unfold State.keptCounter
  cases s.ingest.services[i] with
  | none => rfl
  | some d =>
    dsimp only
    cases d.comps.findIdx? (·.output == c.output) <;> rfl

/-- What a definition sets up, over an INGEST window of a rate (R22, R30, R91). -/
theorem defineService_eq {d : Service} {base slots stride rate : Nat} (entry : s.path.windows[d.window] = .ingest base slots stride rate) :
    s.defineService i d = ((s.onIngest fun u =>
      { u with
        services := u.services.set i (some d)
        inputCC := u.inputCC.set i (List.replicate d.comps.length ⟨none, false⟩) }).onTimebase fun u =>
          { u with clocks := u.clocks.set i (some (Clock.start rate)) }).onSplice fun u =>
            { u with services := u.services.set i { outputCC := d.comps.map fun c => ⟨s.keptCounter i c, 0, none⟩ } } := by
  have rate : rateOf s.path.windows[d.window] = rate := by rw [entry]; rfl
  unfold State.defineService
  dsimp only
  rw [outputStart_eq, State.onIngest_path, rate]
  rfl

theorem applyService_undefining {r : ServiceRec} (index : r.index.toNat = i.val) (empty : r.comps = []) (zero : r.count.toNat = 0) :
    s.applyService r = if s.serviceBusy i then (s, .inUse) else (s.undefineService i, .done) := by
  have spelt : serviceComponents r.comps = some [] := by rw [empty]; rfl
  unfold State.applyService
  rw [serviceIndex_of_toNat index, spelt]
  dsimp only
  rw [if_neg (by omega), if_pos zero]

section Defining

variable {r : ServiceRec} {comps : List Component} (index : r.index.toNat = i.val) (spelt : serviceComponents r.comps = some comps)
  (low : 1 ≤ r.count.toNat) (high : r.count.toNat ≤ 8) (clock : r.clock.toNat < r.count.toNat)

include index spelt low high clock

theorem applyService_windowless (absent : s.ingestWindow r.window = none) : s.applyService r = (s, .undefined) := by
  unfold State.applyService
  rw [serviceIndex_of_toNat index, spelt]
  dsimp only
  rw [if_neg (by omega), if_neg (by omega), absent]

theorem applyService_defining {w : Fin 16} (found : s.ingestWindow r.window = some w) : s.applyService r =
    if s.serviceBusy i then (s, .inUse)
    else if !pidRules (comps ++ s.otherComponents w i) then (s, .conflict)
    else (s.defineService i ⟨w, r.clock.toNat, comps⟩, .done) := by
  unfold State.applyService
  rw [serviceIndex_of_toNat index, spelt]
  dsimp only
  rw [if_neg (by omega), if_neg (by omega), found]

end Defining

end Sys2Proof.Machine

namespace Sys2Proof.Proofs

open Sys2Proof.Machine

/-- Settles O54, kind by kind. -/
theorem smallRecordsApplied : Obligations.SmallRecordsApplied := by
  intro s origin out accepted
  refine ⟨fun r big => ?groupBad, fun r g index => ?group, fun r => ?arbiter, fun r => ?limits, fun r bad => ?policyBad,
    fun r low high form => ?policy⟩
  case groupBad => exact record_ends (r := .group r) out accepted (dif_neg (Nat.not_lt.mpr big))
  case group =>
    obtain ⟨k, small⟩ := g
    obtain rfl : r.index.toNat = k := index
    exact record_ends (r := .group r) out accepted (dif_pos small)
  case arbiter => exact record_ends (r := .arbiter r) out accepted rfl
  case limits =>
    intro held silence set
    refine ⟨fun unchanged => ?kept, fun i c x last changed present armed sampled others => ?rearmed⟩
    case kept =>
      refine record_ends (r := .limits r) out accepted (Prod.ext ?_ rfl)
      change (if (silence != s.limits.silence) = true then set.rearmAll else set) = set
      split
      · next changed => exact rearmAll_unarmed (unchanged.resolve_left (bne_iff_ne.mp changed))
      · rfl
    case rearmed =>
      have applied : (s.applyLimits r).1 = set.rearmSilence i := by
        change (if (silence != s.limits.silence) = true then set.rearmAll else set) = _
        rw [if_pos (bne_iff_ne.mpr changed)]
        exact rearmAll_one (s := set) present armed sampled others
      have rearm := rearmSilence_armed (s := set) present armed sampled
      refine ⟨fun ahead => ?_, fun passed => ?_⟩
      · refine record_ends (r := .limits r) out accepted (Prod.ext (applied.trans (rearm.trans ?_)) rfl)
        exact if_neg fun due => Nat.not_lt.mpr ahead (of_decide_eq_true due)
      · refine record_ends (r := .limits r) out accepted (Prod.ext (applied.trans (rearm.trans ?_)) rfl)
        refine (if_pos (decide_eq_true passed)).trans ?_
        rw [silenceOccurs_eq (setClock_at ..), setClock_setClock]
        rfl
  case policyBad =>
    refine record_ends (r := .policy r) out accepted ?_
    change s.applyPolicy r = _
    unfold State.applyPolicy
    split
    · rfl
    · next counts =>
      have item := (bad.resolve_left fun zero => counts (.inl zero)).resolve_left fun big => counts (.inr big)
      obtain ⟨x, mem, bad⟩ := item
      rw [mapM_none mem (policyEntry_none bad)]
  case policy =>
    obtain ⟨entries, mapped, folded⟩ := policy_entries form
    refine record_ends (r := .policy r) out accepted ?_
    change s.applyPolicy r = _
    unfold State.applyPolicy
    rw [if_neg (by omega), mapped]
    dsimp only
    have same : (fun u : FaultUnit => { u with policy := entries.foldl (fun p e => p.set (errorNumber e.1) e.2) u.policy }) =
        fun u => { u with policy := policySet r.items u.policy } := funext fun u => by rw [folded]
    exact congrArg (fun f => (s.onFault f, CueOutcome.done)) same

/-- Settles O53, by the checks in order. -/
theorem serviceRecordHandled : Obligations.ServiceRecordHandled := by
  intro s origin r out accepted told count
  have tells {x : State} {o : CueOutcome} (h : s.applyService r = (x, o)) : told x o :=
    record_ends (r := .service r) out accepted h
  refine ⟨fun bad => tells ?malformed, fun i index => ⟨fun zero empty => ?undefines, fun comps spelt low high clock => ?defines⟩⟩
  case malformed =>
    unfold State.applyService
    rcases bad with big | counts
    · rw [serviceIndex_none big]
    · split
      · next i comps services spelt =>
        rcases counts with big | short | role
        · exact if_pos (.inl big)
        · exact if_pos (.inr short)
        · exact absurd ((serviceComponents_none role).symm.trans spelt) nofun
      · rfl
  case undefines =>
    have applied := applyService_undefining (s := s) index empty zero
    refine ⟨fun isBusy => tells (applied.trans (if_pos (serviceBusy_iff.mpr isBusy))), fun atRest => tells ?_⟩
    exact applied.trans (if_neg fun b => atRest (serviceBusy_iff.mp b))
  case defines =>
    have spelt : serviceComponents r.comps = some comps := spelt ▸ serviceComponents_raw comps
    refine ⟨fun absent => tells (applyService_windowless index spelt low high clock (ingestWindow_none absent)),
      fun w base slots stride rate window entry => ?_⟩
    intro all broken kept clockStart
    have applied := applyService_defining index spelt low high clock (ingestWindow_some window entry)
    refine ⟨fun isBusy => tells (applied.trans (if_pos (serviceBusy_iff.mpr isBusy))), fun atRest isBroken => tells ?_,
      fun atRest sound => tells ?_⟩
    · have rules : pidRules all = false := pidRules_false.mpr isBroken
      refine applied.trans ((if_neg fun b => atRest (serviceBusy_iff.mp b)).trans (if_pos ?_))
      rw [rules]
      rfl
    · have rules : pidRules all = true := by
        by_contra e
        exact sound (pidRules_false.mp (Bool.eq_false_iff.mpr e))
      refine applied.trans ((if_neg fun b => atRest (serviceBusy_iff.mp b)).trans ((if_neg ?_).trans ?_))
      · rw [rules]
        decide
      · exact Prod.ext (defineService_eq entry) rfl

end Sys2Proof.Proofs
end

section
/-! SUPPORT. The processor-side port (08, R135, R151): a port with nothing to accept and nothing to return stays as it is, and serving ends
where it comes to such a state. -/

namespace Sys2Proof.Machine

variable {s u : State}

/-! ## Bytes that are still to come -/

/-- A byte that is still to come takes nothing from memory afresh, needs no slot decided, and is not in hand. -/
theorem awaits_memory {x : ByteSource} (awaits : s.Awaits x) (aside : s.aside = true) : x.address = none := by
  cases x with
  | memory r o => rfl
  | packet slot k a serving =>
    cases serving with
    | buffer b => exact absurd awaits.1 (by simpa [State.aside] using aside)
    | undecided | waiting | reclaimed v => exact awaits.elim
  | got v | failed v | overtaken k a => exact awaits.elim

theorem awaits_openAt {x : ByteSource} (awaits : s.Awaits x) : x.openAt = none := by
  cases x with
  | memory r o => rfl
  | packet slot k a serving =>
    cases serving with
    | buffer b => rfl
    | undecided | waiting | reclaimed v => exact awaits.elim
  | got v | failed v | overtaken k a => exact awaits.elim

theorem awaits_inHand {x : ByteSource} (awaits : s.Awaits x) : x.inHand s.path.staging = none := by
  cases x with
  | memory r o => rfl
  | packet slot k a serving =>
    cases serving with
    | buffer b =>
      obtain ⟨-, v, used, unfilled⟩ := awaits
      have use : (Serving.buffer b).use s.path.staging = some v := used
      simp only [ByteSource.inHand, use, unfilled, Option.map_none]
    | undecided | waiting | reclaimed v => exact awaits.elim
  | got v | failed v | overtaken k a => exact awaits.elim

/-- A read of which every byte is still to come. -/
def State.Owes (s : State) (r : ProcRead) : Prop :=
  ∃ beat rest, r.beats = beat :: rest ∧ beat.bytes ≠ [] ∧ ∀ b ∈ r.beats, ∀ x ∈ b.bytes, s.Awaits x

theorem ProcRead.mem_bytes {r : ProcRead} {x : ByteSource} : x ∈ r.bytes ↔ ∃ b ∈ r.beats, x ∈ b.bytes := List.mem_flatMap

theorem ProcRead.mapSources_of_fixed {r : ProcRead} {f : ByteSource → ByteSource} (fixed : ∀ b ∈ r.beats, ∀ x ∈ b.bytes, f x = x) :
    r.mapSources f = r := by
  have same : (r.beats.map fun b => { b with bytes := b.bytes.map f }) = r.beats := by
    refine (List.map_congr_left fun b mem => ?_).trans (List.map_id _)
    exact congrArg (fun l => { b with bytes := l }) ((List.map_congr_left fun x here => fixed b mem x here).trans (List.map_id _))
  exact congrArg (fun l => { r with beats := l }) same

theorem fromMemory_of_no_address {p : PathUnit} {r : ProcRead} (none : ∀ b ∈ r.beats, ∀ x ∈ b.bytes, x.address = none) :
    p.fromMemory r = (p, r) := by
  have addresses : r.bytes.filterMap ByteSource.address = [] :=
    List.filterMap_eq_nil_iff.mpr fun x mem =>
      let ⟨b, here, member⟩ := ProcRead.mem_bytes.mp mem
      none b here x member
  unfold PathUnit.fromMemory
  rw [addresses]
  refine Prod.ext ?_ (ProcRead.mapSources_of_fixed fun b mem x here => ?_)
  · exact congrArg (fun q => { p with passQueue := q }) (List.append_nil _)
  · rw [none b mem x here]

theorem list_set_of_getElem? {α : Type} {l : List α} {i : Nat} {x : α} (here : l[i]? = some x) : l.set i x = l := by
  obtain ⟨lt, rfl⟩ := List.getElem?_eq_some_iff.mp here
  exact List.set_getElem_self lt

/-- A read of which no byte is to be taken from memory or looked up needs no decision. -/
theorem decideRead_of_settled {i : Nat} {r : ProcRead} (here : s.path.reads[i]? = some r)
    (aside : s.aside = true → ∀ b ∈ r.beats, ∀ x ∈ b.bytes, x.address = none)
    (decided : ∀ b ∈ r.beats, ∀ x ∈ b.bytes, x.openAt = none) : s.decideRead i = s := by
  unfold State.decideRead
  rw [here]
  dsimp only
  split
  · next isAside =>
    have kept : (let (p, r) := s.path.fromMemory r; { p with reads := p.reads.set i r }) = s.path := by
      rw [fromMemory_of_no_address (aside isAside)]
      exact congrArg (fun l => { s.path with reads := l }) (list_set_of_getElem? here)
    exact congrArg (fun p => { s with path := p }) kept
  · have none : r.bytes.filterMap ByteSource.openAt = [] :=
      List.filterMap_eq_nil_iff.mpr fun x mem =>
        let ⟨b, inRead, member⟩ := ProcRead.mem_bytes.mp mem
        decided b inRead x member
    rw [none]
    rfl

/-- A read that owes every byte needs no decision. -/
theorem decideRead_of_owes {i : Nat} {r : ProcRead} (here : s.path.reads[i]? = some r) (owes : s.Owes r) : s.decideRead i = s := by
  obtain ⟨beat, rest, -, -, awaits⟩ := owes
  exact decideRead_of_settled here (fun aside b mem x mx => awaits_memory (awaits b mem x mx) aside)
    fun b mem x mx => awaits_openAt (awaits b mem x mx)

/-- A read whose first beat has a byte still to come waits. -/
theorem returnBeats_awaited {i n : Nat} {r : ProcRead} {beat : ReadBeat} {rest : List ReadBeat} {x : ByteSource}
    (here : s.path.reads[i]? = some r) (beats : r.beats = beat :: rest) (mem : x ∈ beat.bytes)
    (awaited : x.inHand s.path.staging = none) : State.returnBeats (n + 1) s i = s := by
  unfold State.returnBeats
  rw [here]
  dsimp only
  rw [beats]
  dsimp only
  rw [mapM_none mem awaited]

theorem returnBeats_of_owes {i n : Nat} {r : ProcRead} (here : s.path.reads[i]? = some r) (owes : s.Owes r) :
    State.returnBeats (n + 1) s i = s := by
  obtain ⟨beat, rest, beats, nonempty, awaits⟩ := owes
  obtain ⟨x, more, bytes⟩ := List.exists_cons_of_ne_nil nonempty
  have first : x ∈ beat.bytes := bytes ▸ List.mem_cons_self ..
  exact returnBeats_awaited here beats first (awaits_inHand (awaits beat (beats ▸ List.mem_cons_self ..) x first))

/-- No staging buffer is VOID. -/
abbrev State.NoVoids (s : State) : Prop := ∀ b : Fin 8, ∀ u, s.path.staging[b] = some u → u.void = false

theorem dropVoid_of_no_voids (b : Fin 8) (voids : s.NoVoids) : s.dropVoid b = s := by
  unfold State.dropVoid
  split
  · next v used => rw [voids b v used]; rfl
  · rfl

theorem dropVoids_of_no_voids (voids : s.NoVoids) : s.dropVoids = s :=
  foldl_finRange_none State.dropVoid s fun b => dropVoid_of_no_voids b voids

theorem serveRead_of_owes {i : Nat} {r : ProcRead} (here : s.path.reads[i]? = some r) (owes : s.Owes r)
    (voids : s.NoVoids) : s.serveRead i = s := by
  unfold State.serveRead
  rw [decideRead_of_owes here owes]
  dsimp only
  rw [here]
  dsimp only
  rw [returnBeats_of_owes here owes, dropVoids_of_no_voids voids]

/-! ## A port that waits -/

theorem serveReads_of_waits (waits : s.PortWaits) (n i : Nat) : State.serveReads n s i = s := by
  induction n generalizing i with
  | zero => rfl
  | succ n ih =>
    unfold State.serveReads
    dsimp only
    split
    · next lt =>
      have here : s.path.reads[i]? = some s.path.reads[i] := List.getElem?_eq_getElem lt
      rw [serveRead_of_owes here (waits.reads _ (List.getElem_mem lt)) waits.voids]
      exact ih _
    · rfl

theorem acceptNext_of_waits (waits : s.PortWaits) : s.acceptNext = none := by
  unfold State.acceptNext
  rw [waits.openBurst, waits.held]

theorem servePort_of_waits (waits : s.PortWaits) (n : Nat) : State.servePort n s = s := by
  cases n with
  | zero => rfl
  | succ n =>
    unfold State.servePort
    dsimp only
    rw [serveReads_of_waits waits, acceptNext_of_waits waits]
    exact if_neg (Nat.lt_irrefl _)

/-- A port that waits stays as it is. -/
theorem serve_of_waits (waits : s.PortWaits) : s.serve = s := servePort_of_waits waits _

theorem State.PortServes.waits (quiet : s.PortQuiet) : s.PortWaits where
  held := quiet.held
  openBurst := quiet.openBurst
  reads := fun _ mem => absurd (quiet.reads ▸ mem) List.not_mem_nil
  voids := quiet.voids

theorem serve_of_quiet (quiet : s.PortQuiet) : s.serve = s := serve_of_waits quiet.waits

/-! ## Serving comes to an end -/

/-- A round of serving at `s` comes to `u`, where nothing can be accepted, and a further round changes nothing. -/
structure State.Settles (s u : State) : Prop where
  served : State.serveReads s.path.reads.length s 0 = u
  accepts : u.acceptNext = none
  again : u.path.work < s.path.work → ∀ n, State.servePort n u = u

theorem State.Settles.of_waits (served : State.serveReads s.path.reads.length s 0 = u) (waits : u.PortWaits) : s.Settles u :=
  ⟨served, acceptNext_of_waits waits, fun _ => servePort_of_waits waits⟩

/-- Serving ends where a round leaves nothing to go on with. -/
theorem State.Settles.servePort {n : Nat} (settles : s.Settles u) : State.servePort (n + 1) s = u := by
  obtain ⟨served, accepts, again⟩ := settles
  unfold State.servePort
  dsimp only
  rw [served, accepts]
  dsimp only
  split
  · next more => exact again more n
  · rfl

theorem serve_settles (served : State.serveReads s.path.reads.length s 0 = u) (waits : u.PortWaits) : s.serve = u :=
  (State.Settles.of_waits served waits).servePort

/-- A request that is accepted at a port without reads is decoded, and the port served again. -/
theorem servePort_accepts {n : Nat} (idle : s.path.reads = []) (accepted : s.acceptNext = some u) :
    State.servePort (n + 1) s = State.servePort n u := by
  conv_lhs => unfold State.servePort
  dsimp only
  rw [idle]
  unfold State.serveReads
  dsimp only [List.length_nil]
  rw [accepted]

/-- One read alone is outstanding: it is served. -/
theorem serveReads_one {r : ProcRead} (one : s.path.reads = [r]) :
    State.serveReads s.path.reads.length s 0 = s.serveRead 0 := by
  have count : s.path.reads.length = 1 := congrArg List.length one
  rw [count]
  exact if_pos (count ▸ Nat.zero_lt_one)

end Sys2Proof.Machine
end

section
/-! SUPPORT. WINDOW records (08, R156 to R158). -/

namespace Sys2Proof.Machine

variable {s t : State} {i : Fin 16} {e : WindowEntry} {r : WindowRec} {source : Fin 16}

/-! ## Records told change the Report Unit alone -/

theorem told_rest (s : State) (bodies : List ReportBody) : s.told bodies = { s with report := (s.told bodies).report } := by
  unfold State.told State.produceAll
  induction bodies generalizing s with
  | nil => rfl
  | cons b bodies ih => rw [List.foldl_cons, ih]; rfl

@[simp] theorem told_path (s : State) (bodies : List ReportBody) : (s.told bodies).path = s.path :=
  (congrArg State.path (told_rest s bodies) : _)

@[simp] theorem told_fault (s : State) (bodies : List ReportBody) : (s.told bodies).fault = s.fault :=
  (congrArg State.fault (told_rest s bodies) : _)

theorem answered_path (s : State) (origin : Origin) (code : Byte) (o : CueOutcome) : (s.answered origin code o).path = s.path := by
  cases origin with
  | cue ref => exact told_path ..
  | eeprom | boot => rfl

/-- A port at rest stays at rest while the windows alone change. -/
theorem State.PortServes.windows {reads : List ProcRead} (quiet : s.PortServes reads) (rest : t.path = { s.path with windows := t.path.windows }) :
    t.PortServes reads := by
  obtain ⟨held, presented, openBurst, reads, bursts, room, runs, voids⟩ := quiet
  refine ⟨?_, ?_, ?_, ?_, ?_, ?_, ?_, ?_⟩ <;> rw [rest] <;> assumption

/-! ## What a record asks for (R157, check 1) -/

theorem requestedEntry_empty (kind : r.kind = 0) : requestedEntry r source = some .empty := by
  unfold requestedEntry
  rw [kind]
  rfl

theorem requestedEntry_ingest (kind : r.kind = 1) : requestedEntry r source =
    if r.base.toNat % 64 = 0 ∧ 64 ≤ r.count.toNat ∧ r.count.toNat ≤ 4096 ∧ strideValid r.stride.toNat = true ∧
        r.base.toNat + r.count.toNat * r.stride.toNat ≤ addressLimit then
      some (.ingest r.base.toNat r.count.toNat r.stride.toNat (max 620000 (min 150000000 r.rate.toNat)))
    else none := by
  unfold requestedEntry
  rw [kind]
  rfl

theorem requestedEntry_view (kind : r.kind = 2) : requestedEntry r source =
    if r.base.toNat % 64 = 0 ∧ r.source ≠ r.index then some (.view r.base.toNat source) else none := by
  unfold requestedEntry
  rw [kind]
  rfl

theorem requestedEntry_cue (kind : r.kind = 3) : requestedEntry r source =
    if r.base.toNat % 64 = 0 ∧ 16 ≤ r.count.toNat ∧ r.count.toNat ≤ 256 ∧ r.base.toNat + r.count.toNat * 64 ≤ addressLimit then
      some (.cue r.base.toNat r.count.toNat)
    else none := by
  unfold requestedEntry
  rw [kind]
  rfl

theorem requestedEntry_report (kind : r.kind = 4) : requestedEntry r source =
    if r.base.toNat % 64 = 0 ∧ 64 ≤ r.count.toNat ∧ r.count.toNat ≤ 65536 ∧
        r.base.toNat + 64 + r.count.toNat * 128 ≤ addressLimit then
      some (.report r.base.toNat r.count.toNat)
    else none := by
  unfold requestedEntry
  rw [kind]
  rfl

theorem requestedEntry_unknown (big : 5 ≤ r.kind.toNat) : requestedEntry r source = none := by
  unfold requestedEntry
  split
  case h_6 => rfl
  all_goals next kind => omega

theorem strideValid_iff {stride : Nat} : strideValid stride = true ↔ stride = 188 ∨ stride = 192 ∨ stride = 256 := by
  simp [strideValid, or_assoc]

/-- A record of good form asks for the entry: what the form of each kind says (R157, check 1). -/
def State.asks (s : State) (r : WindowRec) (i : Fin 16) (e : WindowEntry) : Prop :=
  let base := r.base.toNat
  let count := r.count.toNat
  let stride := r.stride.toNat
  (r.kind = 0 ∧ e = .empty) ∨
  (r.kind = 1 ∧ base % 64 = 0 ∧ 64 ≤ count ∧ count ≤ 4096 ∧ (stride = 188 ∨ stride = 192 ∨ stride = 256) ∧
    base + count * stride ≤ 2 ^ 40 ∧ e = .ingest base count stride (max 620000 (min 150000000 r.rate.toNat))) ∨
  (∃ w : Fin 16, r.kind = 2 ∧ base % 64 = 0 ∧ r.source.toNat = w.val ∧ w ≠ i ∧
    (∃ b n d x, s.path.windows[w] = .ingest b n d x ∧ base + n * d ≤ 2 ^ 40) ∧ e = .view base w) ∨
  (r.kind = 3 ∧ base % 64 = 0 ∧ 16 ≤ count ∧ count ≤ 256 ∧ base + count * 64 ≤ 2 ^ 40 ∧ e = .cue base count) ∨
  (r.kind = 4 ∧ base % 64 = 0 ∧ 64 ≤ count ∧ count ≤ 65536 ∧ base + 64 + count * 128 ≤ 2 ^ 40 ∧ e = .report base count)

/-- The source index as the record's field is read. -/
theorem source_of_toNat {w : Fin 16} (named : r.source.toNat = w.val) : Fin.ofNat 16 r.source.toNat = w := by
  rw [named]
  exact Fin.ext (Nat.mod_eq_of_lt w.isLt)

theorem asks_requested (index : r.index.toNat = i.val) (asks : s.asks r i e) :
    requestedEntry r (Fin.ofNat 16 r.source.toNat) = some e := by
  rcases asks with ⟨kind, rfl⟩ | ⟨kind, aligned, low, high, stride, inside, rfl⟩ | ⟨w, kind, aligned, named, other, -, rfl⟩ |
    ⟨kind, aligned, low, high, inside, rfl⟩ | ⟨kind, aligned, low, high, inside, rfl⟩
  · exact requestedEntry_empty kind
  · exact (requestedEntry_ingest kind).trans (if_pos ⟨aligned, low, high, strideValid_iff.mpr stride, inside⟩)
  · have itself : r.source ≠ r.index := fun same => other (Fin.ext (named.symm.trans ((congrArg BitVec.toNat same).trans index)))
    rw [requestedEntry_view kind, if_pos ⟨aligned, itself⟩, source_of_toNat named]
  · exact (requestedEntry_cue kind).trans (if_pos ⟨aligned, low, high, inside⟩)
  · exact (requestedEntry_report kind).trans (if_pos ⟨aligned, low, high, inside⟩)

theorem windowSize_view (v : Vector WindowEntry 16) (b : Nat) (w : Fin 16) : windowSize v (.view b w) =
    match v[w] with
    | .ingest _ n d _ => n * d
    | _ => 0 := rfl

/-- The size of a VIEW of an INGEST window that stays is that window's. -/
theorem windowSize_view_set {w : Fin 16} {base b n d x : Nat} (other : w ≠ i) (window : s.path.windows[w] = .ingest b n d x) :
    windowSize (s.path.windows.set i e) (.view base w) = n * d := by
  have kept : (s.path.windows.set i e)[w] = .ingest b n d x := by rw [set_fin, if_neg other.symm]; exact window
  simp only [windowSize, kept]

theorem asks_inside (asks : s.asks r i e) : e.base + windowSize (s.path.windows.set i e) e ≤ addressLimit := by
  rcases asks with ⟨-, rfl⟩ | ⟨-, -, -, -, -, inside, rfl⟩ | ⟨w, -, -, -, other, ⟨b, n, d, x, window, inside⟩, rfl⟩ |
    ⟨-, -, -, -, inside, rfl⟩ | ⟨-, -, -, -, inside, rfl⟩
  · exact Nat.zero_le _
  · exact inside
  · rw [windowSize_view_set other window]
    exact inside
  · exact inside
  · exact (Nat.add_assoc ..) ▸ inside

/-- A VIEW that is asked for has an INGEST window as its source. -/
theorem asks_sourced (asks : s.asks r i e) (view : e.kindCode = 2) : r.source.toNat < 16 ∧
    (e.source?.any fun w => (s.path.windows.set i e)[w].kindCode == 1) = true := by
  rcases asks with ⟨-, rfl⟩ | ⟨-, -, -, -, -, -, rfl⟩ | ⟨w, -, -, named, other, ⟨b, n, d, x, window, -⟩, rfl⟩ |
    ⟨-, -, -, -, -, rfl⟩ | ⟨-, -, -, -, -, rfl⟩
  case inr.inr.inl =>
    refine ⟨named ▸ w.isLt, ?_⟩
    have kept : (s.path.windows.set i (.view r.base.toNat w))[w] = .ingest b n d x := by
      rw [set_fin, if_neg other.symm]
      exact window
    exact beq_iff_eq.mpr (congrArg WindowEntry.kindCode kept)
  all_goals cases view

/-- What is asked for is empty, or starts at the record's base and has bytes. -/
theorem asks_bytes (table : s.TableHolds) (asks : s.asks r i e) (full : e ≠ .empty) :
    e.base = r.base.toNat ∧ 0 < windowSize (s.path.windows.set i e) e := by
  rcases asks with ⟨-, rfl⟩ | ⟨-, -, low, -, stride, -, rfl⟩ | ⟨w, -, -, -, other, ⟨b, n, d, x, window, -⟩, rfl⟩ |
    ⟨-, -, low, -, -, rfl⟩ | ⟨-, -, low, -, -, rfl⟩
  · exact absurd rfl full
  · refine ⟨rfl, Nat.mul_pos (by omega) ?_⟩
    rcases stride with e | e | e <;> rw [e] <;> decide
  · have ranges := table.ranges w
    rw [window] at ranges
    obtain ⟨-, low, -, stride, -⟩ := ranges
    rw [windowSize_view_set other window]
    refine ⟨rfl, Nat.mul_pos (by omega) ?_⟩
    rcases strideValid_iff.mp stride with e | e | e <;> rw [e] <;> decide
  · exact ⟨rfl, Nat.mul_pos (by omega) (by decide)⟩
  · exact ⟨rfl, Nat.add_pos_left (by decide) _⟩

/-! ## The refusals (R157, checks 2 to 6) -/

theorem servedWindow_iff {w : Fin 16} : s.servedWindow w = true ↔
    ∃ (v : Fin 64) (d : Service), s.ingest.services[v] = some d ∧ d.window = w := by
  simp only [State.servedWindow, List.any_eq_true, Vector.mem_toList_iff, Vector.mem_iff_getElem]
  constructor
  · rintro ⟨o, ⟨v, lt, rfl⟩, serves⟩
    cases present : s.ingest.services[v] with
    | none => rw [present] at serves; cases serves
    | some d => rw [present] at serves; exact ⟨⟨v, lt⟩, d, present, beq_iff_eq.mp serves⟩
  · rintro ⟨v, d, present, window⟩
    refine ⟨_, ⟨v.val, v.isLt, present⟩, beq_iff_eq.mpr window⟩

theorem servedView_iff : s.servedView e = true ↔ ∃ b w, e = .view b w ∧ s.servedWindow w = true := by
  cases e with
  | view b w =>
    refine ⟨fun serves => ⟨b, w, rfl, serves⟩, ?_⟩
    rintro ⟨b', w', same, serves⟩
    cases same
    exact serves
  | empty | ingest | cue | report => exact ⟨nofun, nofun⟩

/-- A kind that has a base asks for none that is no multiple of 64. -/
theorem requestedEntry_unaligned (low : 1 ≤ r.kind.toNat) (unaligned : r.base.toNat % 64 ≠ 0) : requestedEntry r source = none := by
  unfold requestedEntry
  split
  case h_1 => next kind => omega
  case h_6 => rfl
  all_goals exact if_neg fun form => unaligned form.1

theorem windowRefusal_long (known : r.source.toNat < 16)
    (long : addressLimit < e.base + windowSize (s.path.windows.set i e) e) :
    s.windowRefusal i e (decide (r.source.toNat < 16)) = some .refusedMalformed := by
  unfold State.windowRefusal
  exact if_pos (by rw [decide_eq_true known, decide_eq_true long]; rfl)

/-- A VIEW whose source is no INGEST window of the table is refused UNDEFINED. -/
theorem windowRefusal_unknown {b : Nat} {w : Fin 16} {known : Prop} [Decidable known] (low : b ≤ addressLimit)
    (unknown : ¬ known ∨ ∀ b' n d x, (s.path.windows.set i (.view b w))[w] ≠ .ingest b' n d x) :
    s.windowRefusal i (.view b w) (decide known) = some .undefined := by
  have other : (decide known && (s.path.windows.set i (.view b w))[w].kindCode == 1) = false := by
    rcases unknown with unknown | unknown
    · rw [decide_eq_false unknown, Bool.false_and]
    · cases window : (s.path.windows.set i (.view b w))[w] with
      | ingest b' n d x => exact absurd window (unknown b' n d x)
      | empty | view | cue | report => exact Bool.and_false _
  unfold State.windowRefusal
  refine (if_neg ?_).trans (if_pos ?_)
  · rcases unknown with unknown | unknown
    · rw [decide_eq_false unknown]; exact Bool.false_ne_true
    · have size : windowSize (s.path.windows.set i (.view b w)) (.view b w) = 0 := by
        unfold windowSize
        dsimp only
        split
        · next window => exact absurd window (unknown _ _ _ _)
        · rfl
      have inside : ¬ (WindowEntry.view b w).base + windowSize (s.path.windows.set i (.view b w)) (.view b w) > addressLimit :=
        size ▸ Nat.not_lt.mpr low
      rw [decide_eq_false inside, Bool.and_false]
      exact Bool.false_ne_true
  · exact congrArg (fun v => !v) other

/-- The entry at `i` is in use: a service is defined on it, or on the source of the old or the new VIEW (R157, checks 3 and 4). -/
def State.windowBusy (s : State) (i : Fin 16) (e : WindowEntry) : Bool :=
  (s.path.windows[i].kindCode == 1 && s.servedWindow i) || (s.servedView s.path.windows[i] || s.servedView e)

theorem kindCode_ingest_iff : e.kindCode = 1 ↔ ∃ b n d x, e = .ingest b n d x := by
  cases e with
  | ingest b n d x => exact ⟨fun _ => ⟨b, n, d, x, rfl⟩, fun _ => rfl⟩
  | empty | view | cue | report => exact ⟨nofun, nofun⟩

theorem windowBusy_iff : s.windowBusy i e = true ↔
    ((∃ b n d x, s.path.windows[i] = .ingest b n d x) ∧
      ∃ (v : Fin 64) (d : Service), s.ingest.services[v] = some d ∧ d.window = i) ∨
    (∃ b w, s.path.windows[i] = .view b w ∧ ∃ (v : Fin 64) (d : Service), s.ingest.services[v] = some d ∧ d.window = w) ∨
    ∃ b w, e = .view b w ∧ ∃ (v : Fin 64) (d : Service), s.ingest.services[v] = some d ∧ d.window = w := by
  simp only [State.windowBusy, Bool.or_eq_true, Bool.and_eq_true, beq_iff_eq, kindCode_ingest_iff, servedView_iff, servedWindow_iff]

/-- Past the first two checks a record is refused where the entry is in use, where the new table breaks R156, and on the boot block. -/
theorem windowRefusal_eq {known : Bool} (inside : e.base + windowSize (s.path.windows.set i e) e ≤ addressLimit)
    (sourced : e.kindCode = 2 → known = true ∧ (e.source?.any fun w => (s.path.windows.set i e)[w].kindCode == 1) = true) :
    s.windowRefusal i e known =
      if s.windowBusy i e then some .inUse
      else if !tableValid (s.path.windows.set i e) s.definedContents then some .conflict
      else if s.onBootBlock (s.path.windows.set i e) i then some .conflict
      else none := by
  unfold State.windowRefusal State.windowBusy
  dsimp only
  have withinLimit : (known && decide (e.base + windowSize (s.path.windows.set i e) e > addressLimit)) = false := by
    rw [decide_eq_false (Nat.not_lt.mpr inside), Bool.and_false]
  have named : (e.kindCode == 2 && !(known && e.source?.any fun w => (s.path.windows.set i e)[w].kindCode == 1)) = false := by
    rw [Bool.and_eq_false_iff]
    by_cases view : e.kindCode = 2
    · obtain ⟨known, source⟩ := sourced view
      exact .inr (by rw [known, source]; rfl)
    · exact .inl (beq_eq_false_iff_ne.mpr view)
  rw [withinLimit, named, if_neg Bool.false_ne_true, if_neg Bool.false_ne_true]
  cases s.path.windows[i].kindCode == 1 && s.servedWindow i with
  | true => rfl
  | false => rfl

theorem onBootBlock_iff (table : s.TableHolds) (asks : s.asks r i e) : s.onBootBlock (s.path.windows.set i e) i = true ↔
    s.loader.boot ≠ none ∧ e ≠ .empty ∧ r.base.toNat < 0x4000 := by
  have here : (s.path.windows.set i e)[i] = e := by simp
  unfold State.onBootBlock
  rw [here, Bool.and_eq_true, Option.isSome_iff_ne_none, shareByte, decide_eq_true_iff]
  refine and_congr_right fun _ => ?_
  by_cases full : e = .empty
  · subst full
    simp [windowSize]
  · obtain ⟨base, bytes⟩ := asks_bytes table asks full
    rw [base]
    constructor
    · rintro ⟨-, -, low, -⟩
      exact ⟨full, low⟩
    · rintro ⟨-, low⟩
      exact ⟨bytes, by decide, low, by omega⟩

/-! ## The replacement (R158) -/

theorem settleWindow_of_settled (settled : ∀ slot, (s.slotRecord i slot).unplayed = none) : s.settleWindow i = s := by
  unfold State.settleWindow
  generalize List.range _ = l
  induction l with
  | nil => rfl
  | cons slot l ih =>
    have kept : s.settleSlot i slot = s := by
      unfold State.settleSlot
      dsimp only
      rw [settled slot]
    rw [List.foldl_cons, kept]
    exact ih

theorem freeStagingOf_of_none {w : Fin 16} (idle : s.path.reads = [])
    (none : ∀ q : Fin 8, ∀ u, s.path.staging[q] = some u → u.window ≠ w) : s.freeStagingOf w = s := by
  have unserved : stagingOf s.path.staging w = [] := by
    refine List.filter_eq_nil_iff.mpr fun q _ => ?_
    cases used : s.path.staging[q] with
    | none => exact Bool.false_ne_true
    | some u => exact fun same => none q u used (beq_iff_eq.mp same)
  unfold State.freeStagingOf
  rw [unserved, List.foldl_nil]
  have unread : s.path.reads.map (ProcRead.mapSources (ByteSource.nullOf w)) = s.path.reads := by rw [idle]; rfl
  exact congrArg (fun l => s.onPath fun p => { p with reads := l }) unread

/-- The removal of the VIEW of an INGEST window, as a match of the entry. -/
theorem viewless_eq (x : WindowEntry) : (if x.source? = some i then WindowEntry.empty else x) =
    match x with
    | .view _ w => if w = i then .empty else x
    | x => x := by
  cases x with
  | view b w => exact if_congr (by simp [WindowEntry.source?]) rfl rfl
  | empty | ingest | cue | report => rfl

/-- A replacement at a window with nothing unplayed and without staging buffers is as R158's table says. -/
theorem replaceWindow_eq (idle : s.path.reads = [])
    (ingest : ∀ b n d x, s.path.windows[i] = .ingest b n d x →
      (∀ q : Fin 8, ∀ u, s.path.staging[q] = some u → u.window ≠ i) ∧ ∀ slot, (s.slotRecord i slot).unplayed = none)
    (view : ∀ b w, s.path.windows[i] = .view b w → ∀ q : Fin 8, ∀ u, s.path.staging[q] = some u → u.window ≠ w) :
    s.replaceWindow i e = s.windowReplaced i e := by
  unfold State.replaceWindow State.windowReplaced
  dsimp only
  cases old : s.path.windows[i] with
  | empty | cue | report => cases e <;> rfl
  | view b w =>
    have kept := freeStagingOf_of_none (s := s.onPath fun p => { p with windows := p.windows.set i e }) (w := w) idle (view b w old)
    simp only [State.dropWindow, kept]
    cases e <;> rfl
  | ingest b n d x =>
    obtain ⟨unstaged, settled⟩ := ingest b n d x old
    have kept : ((s.onPath fun p => { p with windows := p.windows.set i e }).settleWindow i).freeStagingOf i =
        s.onPath fun p => { p with windows := p.windows.set i e } := by
      rw [settleWindow_of_settled (s := s.onPath fun p => { p with windows := p.windows.set i e }) settled]
      exact freeStagingOf_of_none idle unstaged
    simp only [State.dropWindow, kept, viewless_eq]
    cases e <;> rfl

theorem windowReplaced_rest : (s.windowReplaced i e).path = { s.path with windows := (s.windowReplaced i e).path.windows } := by
  unfold State.windowReplaced
  cases s.path.windows[i] <;> cases e <;> rfl

theorem applyWindow_malformed (index : r.index.toNat = i.val) (bad : ∀ source, requestedEntry r source = none) :
    s.applyWindow r = (s, .refusedMalformed) := by
  unfold State.applyWindow
  obtain ⟨k, small⟩ := i
  obtain rfl : r.index.toNat = k := index
  rw [dif_pos small, bad]

theorem applyWindow_of_asked {o : Option CueOutcome} (index : r.index.toNat = i.val)
    (asked : requestedEntry r (Fin.ofNat 16 r.source.toNat) = some e)
    (checked : s.windowRefusal i e (decide (r.source.toNat < 16)) = o) :
    s.applyWindow r = (if o = none then s.replaceWindow i e else s, o.getD .done) := by
  unfold State.applyWindow
  obtain ⟨k, small⟩ := i
  obtain rfl : r.index.toNat = k := index
  rw [dif_pos small, asked]
  dsimp only
  rw [checked]
  cases o <;> rfl

/-- A WINDOW record handled at a port at rest: what it leaves and answers stands. -/
theorem window_ends {x : State} {o : CueOutcome} {origin : Origin} (out : s.resetHeld = false) (quiet : s.PortQuiet)
    (accepted : s.accepts origin = true) (rest : x.path = { s.path with windows := x.path.windows })
    (applied : s.applyWindow r = (x, o)) : ∃ t, exec (.window origin r) s = .next t ∧ (x.answered origin 1 o).EndsAs t := by
  have handled : s.handleRecord origin (.window r) = x.answered origin 1 o := handleRecord_eq applied
  have waits : (x.answered origin 1 o).PortQuiet := quiet.windows (by rw [answered_path]; exact rest)
  exact occurs_ends (f := fun s => (s.handleRecord origin (.window r)).serve) out accepted
    ((congrArg State.serve handled).trans (serve_of_quiet waits))

end Sys2Proof.Machine

namespace Sys2Proof.Proofs

open Sys2Proof.Machine

/-- The clauses about the form of a record, which stand among the premises of O52's last clause, hold at a port at rest. -/
theorem windowForm_refused {s : State} {origin : Origin} {r : WindowRec} {i : Fin 16} (out : s.resetHeld = false)
    (quiet : s.PortQuiet) (accepted : s.accepts origin = true) (index : r.index.toNat = i.val) :
    let told := fun (x : State) (o : CueOutcome) => ∃ t, exec (.window origin r) s = .next t ∧ (x.answered origin 1 o).EndsAs t
    let base := r.base.toNat
    let count := r.count.toNat
    let stride := r.stride.toNat
    (1 ≤ r.kind.toNat → r.kind.toNat ≤ 4 → base % 64 ≠ 0 → told s .refusedMalformed) ∧
    (r.kind = 1 → count < 64 ∨ 4096 < count ∨ (stride ≠ 188 ∧ stride ≠ 192 ∧ stride ≠ 256) ∨ 2 ^ 40 < base + count * stride →
      told s .refusedMalformed) ∧
    (r.kind = 3 → count < 16 ∨ 256 < count ∨ 2 ^ 40 < base + count * 64 → told s .refusedMalformed) ∧
    (r.kind = 4 → count < 64 ∨ 65536 < count ∨ 2 ^ 40 < base + 64 + count * 128 → told s .refusedMalformed) ∧
    (r.kind = 2 → r.source = r.index → told s .refusedMalformed) ∧
    (∀ (w : Fin 16) (b n d x : Nat), r.kind = 2 → r.source.toNat = w.val → s.path.windows[w] = .ingest b n d x →
      2 ^ 40 < base + n * d → told s .refusedMalformed) ∧
    (r.kind = 2 → base % 64 = 0 → r.source ≠ r.index →
      16 ≤ r.source.toNat ∨ (∃ w : Fin 16, r.source.toNat = w.val ∧ ∀ b n d x, s.path.windows[w] ≠ .ingest b n d x) →
      told s .undefined) := by
  intro told base count stride
  have refuses {o : CueOutcome} (applied : s.applyWindow r = (s, o)) : told s o := window_ends out quiet accepted rfl applied
  have malformed (bad : ∀ source, requestedEntry r source = none) : told s .refusedMalformed :=
    refuses (applyWindow_malformed index bad)
  refine ⟨fun low high unaligned => malformed fun source => requestedEntry_unaligned low unaligned,
    fun kind bad => malformed fun source => ?_,
    fun kind bad => malformed fun source => ?_, fun kind bad => malformed fun source => ?_,
    fun kind itself => malformed fun source => ?_, fun w b n d x kind named window long => ?long,
    fun kind aligned other unknown => ?unknown⟩
  · rw [requestedEntry_ingest kind]
    refine if_neg ?_
    rintro ⟨-, low, high, valid, inside⟩
    rcases bad with short | long | stride | outside
    · exact Nat.not_le.mpr short low
    · exact Nat.not_le.mpr long high
    · have valid := strideValid_iff.mp valid
      tauto
    · exact Nat.not_le.mpr outside inside
  · rw [requestedEntry_cue kind]
    refine if_neg ?_
    rintro ⟨-, low, high, inside⟩
    simp only [addressLimit] at inside
    omega
  · rw [requestedEntry_report kind]
    refine if_neg ?_
    rintro ⟨-, low, high, inside⟩
    simp only [addressLimit] at inside
    omega
  · rw [requestedEntry_view kind]
    exact if_neg fun form => form.2 itself
  case long =>
    by_cases form : r.base.toNat % 64 = 0 ∧ r.source ≠ r.index
    · have asked := (requestedEntry_view kind (source := Fin.ofNat 16 r.source.toNat)).trans (if_pos form)
      rw [source_of_toNat named] at asked
      have other : w ≠ i := fun same =>
        form.2 (BitVec.eq_of_toNat_eq (named.trans ((congrArg Fin.val same).trans index.symm)))
      have size := windowSize_view_set (e := .view r.base.toNat w) (base := r.base.toNat) other window
      refine refuses (applyWindow_of_asked (e := .view r.base.toNat w) index ?_ (windowRefusal_long (named ▸ w.isLt) ?_))
      · rw [source_of_toNat named]
        exact asked
      · rw [size]
        exact long
    · exact malformed fun source => (requestedEntry_view kind).trans (if_neg form)
  case unknown =>
    have asked := (requestedEntry_view kind (source := Fin.ofNat 16 r.source.toNat)).trans (if_pos ⟨aligned, other⟩)
    refine refuses (applyWindow_of_asked index asked (windowRefusal_unknown r.base.isLt.le ?_))
    rcases unknown with big | ⟨w, named, notIngest⟩
    · exact .inl (Nat.not_lt.mpr big)
    · rw [source_of_toNat named]
      have apart : w ≠ i := fun same =>
        other (BitVec.eq_of_toNat_eq (named.trans ((congrArg Fin.val same).trans index.symm)))
      refine .inr fun b n d x window => notIngest b n d x ?_
      rwa [set_fin, if_neg apart.symm] at window

/-- Settles O52: the forms that no entry is asked for by, and the checks and the replacement of an asked entry. -/
theorem windowRecordHandled : Obligations.WindowRecordHandled := by
  intro s origin r out quiet accepted told
  have refuses {o : CueOutcome} (applied : s.applyWindow r = (s, o)) : told s o := window_ends out quiet accepted rfl applied
  refine ⟨fun bad => ?bad, fun i index => ?named⟩
  case bad =>
    by_cases small : r.index.toNat < 16
    · have kind : 5 ≤ r.kind.toNat := bad.resolve_left (Nat.not_le.mpr small)
      exact refuses (applyWindow_malformed (i := ⟨_, small⟩) rfl fun _ => requestedEntry_unknown kind)
    · exact refuses (dif_neg small)
  case named =>
    intro base count stride old ingestAt asks served isIngest premises e asked busy fits onBoot
    obtain ⟨-, -, -, -, -, -, -, table⟩ := premises
    have asked : s.asks r i e := asked
    have refusal := windowRefusal_eq (known := decide (r.source.toNat < 16)) (asks_inside asked) fun view =>
      ⟨decide_eq_true (asks_sourced asked view).1, (asks_sourced asked view).2⟩
    have inUse : s.windowBusy i e = true ↔ busy := windowBusy_iff
    have boot : s.onBootBlock (s.path.windows.set i e) i = true ↔ onBoot := onBootBlock_iff table asked
    have applied {o : Option CueOutcome} (checked : s.windowRefusal i e (decide (r.source.toNat < 16)) = o) :=
      applyWindow_of_asked index (asks_requested index asked) checked
    refine ⟨fun isBusy => refuses (applied (refusal.trans (if_pos (inUse.mpr isBusy)))), fun free bad => refuses (applied (o := some .conflict) ?conflict),
      fun free fit off ingest view => ?done⟩
    case conflict =>
      refine refusal.trans ((if_neg fun b => free (inUse.mp b)).trans ?_)
      by_cases fit : fits
      · exact (if_neg (by rw [fit]; decide)).trans (if_pos (boot.mpr (bad.resolve_left fun unfit => unfit fit)))
      · exact if_pos (by rw [Bool.eq_false_iff.mpr fit]; rfl)
    case done =>
      have checked : s.windowRefusal i e (decide (r.source.toNat < 16)) = none :=
        refusal.trans ((if_neg fun b => free (inUse.mp b)).trans ((if_neg (by rw [fit]; decide)).trans (if_neg fun b => off (boot.mp b))))
      have replaced := replaceWindow_eq (e := e) quiet.reads (fun b n d x here => ingest ⟨b, n, d, x, here⟩) view
      exact window_ends out quiet accepted windowReplaced_rest ((applied checked).trans (Prod.ext replaced rfl))

end Sys2Proof.Proofs
end

section
/-! SUPPORT. Write beats at the processor-side port (08, R153, R154), and what an error report leaves of the Path Unit. -/

namespace Sys2Proof.Machine

variable {s t u : State}

/-! ## What the entry to BYPASS and an error report do to the Path Unit (R149, R184) -/

theorem produceAll_path (s : State) (bodies : List ReportBody) : (s.produceAll bodies).path = s.path := told_path s bodies

theorem closeRecord_path (s : State) (i : Fin 68) (c : Count32) : (s.closeRecord i c).1.path = s.path := rfl

theorem closeEntry_path (s : State) (i : Fin 4) (c : Count32) : (s.closeEntry i c).1.path = s.path := rfl

theorem cutShort_path (s : State) (i : Fin 68) (reason : EndReason) : (s.cutShort i reason).1.path = s.path := by
  unfold State.cutShort State.leaveActive
  dsimp only
  split <;> rfl

theorem spliceBypass_path (s : State) (i : Fin 64) : (s.spliceBypass i).1.path = s.path := by
  unfold State.spliceBypass
  cases s.splice.services[i].current with
  | none => rfl
  | some r => exact cutShort_path s r .bypass

theorem entryClosing_path (s : State) (i : Fin 4) : (s.entryClosing i).1.path = s.path := by
  unfold State.entryClosing
  dsimp only
  split <;> rfl

theorem entryBypass_path (s : State) (i : Fin 4) : (s.entryBypass i).1.path = s.path := by
  unfold State.entryBypass
  split
  · exact entryClosing_path ..
  · exact entryClosing_path ..
  · rfl
  · rfl

theorem gathered_path {α : Type} {f : State → α → State × List ReportBody} (keeps : ∀ s a, (f s a).1.path = s.path) (l : List α)
    (p : State × List ReportBody) : (l.foldl (fun p i => ((f p.1 i).1, p.2 ++ (f p.1 i).2)) p).1.path = p.1.path := by
  induction l generalizing p with
  | nil => rfl
  | cons a l ih => rw [List.foldl_cons, ih]; exact keeps p.1 a

theorem gather_path {α : Type} {f : State → α → State × List ReportBody} (keeps : ∀ s a, (f s a).1.path = s.path) (s : State)
    (l : List α) : (s.gather f l).1.path = s.path := gathered_path keeps l (s, [])

theorem dropEntry_path (s : State) (i : Fin 64) (e : QueueEntry) : (s.dropEntry i e).path = s.path := by
  unfold State.dropEntry
  split <;> rfl

theorem flushQueue_path (s : State) (i : Fin 64) : (s.flushQueue i).1.path = s.path := by
  have all (l : List QueueEntry) (s : State) : (l.foldl (fun s e => s.dropEntry i e) s).path = s.path := by
    induction l generalizing s with
    | nil => rfl
    | cons e l ih => rw [List.foldl_cons, ih]; exact dropEntry_path s i e
  exact all _ s

theorem flushAll_path (s : State) : s.flushAll.1.path = s.path := by
  unfold State.flushAll
  generalize List.finRange 64 = l
  exact gathered_path flushQueue_path l (s, [])

theorem produceUnordered_path (s : State) (lists : List (List ReportBody)) : (s.produceUnordered lists).path = s.path :=
  produceAll_path ..

/-- Of the Path Unit the entry to BYPASS frees the staging buffers and turns the bytes still owed to memory, and nothing else. -/
theorem enterBypass_path (s : State) (answer : List ReportBody) : (s.enterBypass answer).path = s.path.bypassed := by
  unfold State.enterBypass
  simp only [produceUnordered_path, State.onPath_path, State.onContent_path, flushAll_path, State.onAlert_path,
    gather_path entryBypass_path, gather_path spliceBypass_path, State.onFault_path]

theorem handError_path (s : State) (e : ErrorReport) : (s.handError e).path = s.path := by
  unfold State.handError
  dsimp only
  split <;> rfl

/-- An error report leaves the Path Unit as it is, or as the entry to BYPASS leaves it. -/
theorem raise_path (s : State) (k : ErrorKind) (index address : Nat) (packet : Option (List Byte)) :
    (s.raise k index address packet).path = s.path ∨ (s.raise k index address packet).path = s.path.bypassed := by
  unfold State.raise
  dsimp only
  split
  · refine .inr ((enterBypass_path ..).trans (congrArg PathUnit.bypassed ?_))
    split <;> split <;> simp [handError_path]
  · refine .inl ?_
    split <;> split <;> simp [handError_path]

/-! ## A port without requests and reads -/

/-- Nothing is held at the port, no burst is open and no read outstanding. -/
structure State.PortIdle (s : State) : Prop where
  held : s.path.held = []
  openBurst : s.path.openBurst = none
  reads : s.path.reads = []

theorem State.PortServes.idle (quiet : s.PortQuiet) : s.PortIdle := ⟨quiet.held, quiet.openBurst, quiet.reads⟩

theorem servePort_of_idle (idle : s.PortIdle) (n : Nat) : State.servePort n s = s := by
  cases n with
  | zero => rfl
  | succ n =>
    have reads : State.serveReads s.path.reads.length s 0 = s := by rw [idle.reads]; rfl
    have none : s.acceptNext = none := by
      unfold State.acceptNext
      rw [idle.openBurst, idle.held]
    unfold State.servePort
    dsimp only
    rw [reads, none]
    exact if_neg (Nat.lt_irrefl _)

theorem State.PortIdle.congr (idle : s.PortIdle) (same : t.path = s.path) : t.PortIdle := by
  obtain ⟨held, openBurst, reads⟩ := idle
  exact ⟨same ▸ held, same ▸ openBurst, same ▸ reads⟩

theorem bypassed_of_no_reads {p : PathUnit} (idle : p.reads = []) : p.bypassed = { p with staging := Vector.replicate 8 none } := by
  obtain ⟨windows, staging, passQueue, tags, reads⟩ := p
  obtain rfl : reads = [] := idle
  rfl

theorem State.PortIdle.bypassed (idle : s.PortIdle) (same : t.path = s.path.bypassed) : t.PortIdle := by
  obtain ⟨held, openBurst, reads⟩ := idle
  rw [bypassed_of_no_reads reads] at same
  exact ⟨by rw [same]; exact held, by rw [same]; exact openBurst, by rw [same]; exact reads⟩

theorem State.PortIdle.raise (idle : s.PortIdle) (k : ErrorKind) (index address : Nat) (packet : Option (List Byte)) :
    (s.raise k index address packet).PortIdle :=
  (raise_path s k index address packet).elim idle.congr idle.bypassed

/-! ## One write beat at a port at rest (R153, R154) -/

/-- A write of one beat is accepted and decided, and the port served on. -/
theorem writeBeat_ends {beat : BeatAddr} {data : BeatData} {enables : Enables} (out : s.resetHeld = false) (quiet : s.PortQuiet)
    (decided : (s.onPath PathUnit.openWrite).writeBeat s.path.nextBurst beat.toNat data enables true = u) (idle : u.PortIdle) :
    ∃ t, exec (.processorWriteBeat beat data enables true) s = .next t ∧ u.EndsAs t := by
  let asked := (s.onPath fun p => { p with presented := present p.presented beat.toNat true }).presentRequest
    (.write beat data enables true)
  have held : asked.path.held = [.write beat data enables true] := by
    change s.path.held ++ _ = _
    rw [quiet.held]
    rfl
  have restored : asked.unhold 0 = s := by
    have unheld : (s.path.held ++ [PortRequest.write beat data enables true]).eraseIdx 0 = s.path.held := by rw [quiet.held]; rfl
    have same := congrArg₂ (fun a b => { s with path := { s.path with presented := a, held := b } }) quiet.presented.symm unheld
    exact same
  have accepted : asked.acceptNext = some u := by
    have room : asked.path.full = false := decide_eq_false (Nat.not_le.mpr quiet.room)
    have closed : asked.path.openBurst = none := quiet.openBurst
    unfold State.acceptNext
    rw [closed, held]
    dsimp only
    rw [room, restored]
    exact congrArg some decided
  have served : asked.serve = u := by
    unfold State.serve
    rw [servePort_accepts (show asked.path.reads = [] from quiet.reads) accepted]
    exact servePort_of_idle idle _
  obtain ⟨t, ended, ends⟩ := onPort_ends (b := true) (k := presentedNext s.path.presented beat.toNat)
    (fun s => ((s.onPath fun p => { p with presented := present p.presented beat.toNat true }).presentRequest
      (.write beat data enables true)).serve) out rfl (by rw [quiet.presented]; rfl)
  exact ⟨t, ended, served ▸ ends⟩

/-! ## The response of a burst (R154) -/

theorem respond_one {b : WriteBurst} {serial : Nat} (one : s.path.bursts = [b]) (own : b.serial = serial) (decided : b.decided = true)
    (answered : b.runs = 0) : s.respond serial =
      (s.onPath fun p => { p with bursts := [] }).emit (.writeResponse serial (!b.refused && !b.failed)) := by
  have found : s.path.bursts.find? (·.serial == serial) = some b := by rw [one]; simp [own]
  have gone : s.path.bursts.filter (fun b => b.serial != serial) = [] := by rw [one]; simp [own]
  unfold State.respond
  rw [found]
  dsimp only
  rw [decided, answered]
  exact congrArg (fun l => (s.onPath fun p => { p with bursts := l }).emit (.writeResponse serial (!b.refused && !b.failed))) gone

theorem respond_waits {b : WriteBurst} {serial : Nat} (one : s.path.bursts = [b]) (own : b.serial = serial) (owed : b.runs ≠ 0) :
    s.respond serial = s := by
  have found : s.path.bursts.find? (·.serial == serial) = some b := by rw [one]; simp [own]
  unfold State.respond
  rw [found]
  dsimp only
  rw [beq_eq_false_iff_ne.mpr owed, Bool.and_false]
  rfl

/-! ## Refused and forwarded beats (R153, R154) -/

/-- No run that waits belongs to a burst of that serial or to a later one. -/
abbrev PathUnit.RunsBefore (p : PathUnit) (serial : Nat) : Prop :=
  ∀ q ∈ p.passQueue, ∀ r, q = .write r → r.burst < serial

section Beat

variable {p : PathUnit} {n : Nat}

theorem closeRun_of_runs (runs : p.RunsBefore n) : p.closeRun n = p := by
  unfold PathUnit.closeRun
  refine congrArg (fun l => { p with passQueue := l }) ((List.map_congr_left fun q mem => ?_).trans (List.map_id _))
  cases q with
  | read r => rfl
  | write r => exact congrArg PassRequest.write (if_neg (runs _ mem r rfl).ne)

/-- The last run is the burst's own: it is complete. -/
theorem closeRun_last {r : WriteRun} {l : List PassRequest} (runs : p.RunsBefore n) (own : r.burst = n)
    (queue : p.passQueue ++ [.write r] = l) :
    PathUnit.closeRun { p with passQueue := l } n = { p with passQueue := p.passQueue ++ [.write { r with closed := true }] } := by
  have kept := congrArg PathUnit.passQueue (closeRun_of_runs runs)
  subst queue
  unfold PathUnit.closeRun at kept ⊢
  dsimp only at kept ⊢
  rw [List.map_append, kept, List.map_singleton]
  dsimp only
  rw [if_pos own]

/-- A beat of a burst without an open run begins a run. -/
theorem forward_of_runs {beat : Nat} {data : BeatData} {enables : Enables} (runs : p.RunsBefore n) : p.forward n beat data enables =
    PathUnit.onBurst { p with passQueue := p.passQueue ++ [.write ⟨n, beat, [(data, enables)], false⟩] } n fun b =>
      { b with runs := b.runs + 1 } := by
  unfold PathUnit.forward
  refine if_neg fun open_ => ?_
  obtain ⟨q, mem, extends_⟩ := List.any_eq_true.mp open_
  cases q with
  | read r => exact Bool.false_ne_true extends_
  | write r =>
    have own : r.burst = n := beq_iff_eq.mp (Bool.and_eq_true_iff.mp extends_).1
    exact (runs _ mem r rfl).ne own

variable (unowed : p.bursts = []) (closed : p.openBurst = none) (runs : p.RunsBefore p.nextBurst)

include unowed closed runs

theorem refusedBurst_path :
    (PathUnit.closeRun { (p.openWrite.closeRun p.nextBurst).onBurst p.nextBurst fun b => { b with refused := true } with openBurst := none }
      p.nextBurst).onBurst p.nextBurst (fun b => { b with decided := true }) =
    { p with nextBurst := p.nextBurst + 1, bursts := [⟨p.nextBurst, true, false, 0, true⟩] } := by
  rw [closeRun_of_runs (p := p.openWrite) runs, closeRun_of_runs (p := { p.openWrite.onBurst .. with openBurst := none }) runs]
  obtain ⟨windows, staging, passQueue, tags, reads, held, presented, openBurst, bursts⟩ := p
  obtain rfl : bursts = [] := unowed
  obtain rfl : openBurst = none := closed
  simp [PathUnit.openWrite, PathUnit.onBurst]

theorem forwardedBurst_path (beat : Nat) (data : BeatData) (enables : Enables) :
    (PathUnit.closeRun { p.openWrite.forward p.nextBurst beat data enables with openBurst := none }
      p.nextBurst).onBurst p.nextBurst (fun b => { b with decided := true }) =
    { p with
      nextBurst := p.nextBurst + 1
      bursts := [⟨p.nextBurst, false, false, 1, true⟩]
      passQueue := p.passQueue ++ [.write ⟨p.nextBurst, beat, [(data, enables)], true⟩] } := by
  rw [forward_of_runs (p := p.openWrite) runs]
  have complete := closeRun_last (p := { p with nextBurst := p.nextBurst + 1, bursts := [⟨p.nextBurst, false, false, 1, false⟩] })
    (r := ⟨p.nextBurst, beat, [(data, enables)], false⟩) runs rfl rfl
  obtain ⟨windows, staging, passQueue, tags, reads, held, presented, openBurst, bursts⟩ := p
  obtain rfl : bursts = [] := unowed
  obtain rfl : openBurst = none := closed
  simp only [PathUnit.openWrite, PathUnit.onBurst, List.nil_append, List.map_cons, List.map_nil, if_true] at complete ⊢
  rw [complete]
  simp

end Beat

/-! ## How a beat is decided (R153) -/

section Decide

variable {address : Nat} {enables : Enables} {test : Nat → Bool} {lane : Nat}

theorem mem_enabledLanes : lane ∈ enabledLanes enables ↔ lane < 16 ∧ enables.getLsbD lane = true := by
  rw [enabledLanes, List.mem_filter, List.mem_range]

theorem firstByte_none : firstByte address enables test = none ↔
    ∀ k < 16, enables.getLsbD k = true → test (address + k) = false := by
  simp only [firstByte, List.find?_eq_none, List.mem_map, forall_exists_index, and_imp, mem_enabledLanes, Bool.not_eq_true]
  constructor
  · exact fun none k lt on => none _ k lt on rfl
  · rintro none _ k lt on rfl
    exact none k lt on

/-- The lowest enabled byte that passes a test is found. -/
theorem firstByte_some (lt : lane < 16) (enabled : enables.getLsbD lane = true) (passes : test (address + lane) = true)
    (lowest : ∀ k < lane, enables.getLsbD k = true → test (address + k) = false) :
    firstByte address enables test = some (address + lane) := by
  have split : List.range 16 = List.range lane ++ lane :: List.range' (lane + 1) (15 - lane) := by
    rw [List.range_eq_range', List.range_eq_range', ← List.range'_succ, show 15 - lane + 1 = 16 - lane by omega]
    have joined := List.range'_append (s := 0) (m := lane) (n := 16 - lane) (step := 1)
    rw [Nat.one_mul, Nat.zero_add] at joined
    rw [joined]
    congr 1
    omega
  unfold firstByte enabledLanes
  rw [split, List.filter_append, List.filter_cons_of_pos enabled, List.map_append, List.map_cons, List.find?_append,
    List.find?_eq_none.mpr, Option.none_or, List.find?_cons_of_pos passes]
  intro a mem
  obtain ⟨k, inFront, rfl⟩ := List.mem_map.mp mem
  obtain ⟨lower, on⟩ := List.mem_filter.mp inFront
  rw [lowest k (List.mem_range.mp lower) on]
  exact Bool.false_ne_true

end Decide

/-! ## The blocks that watch a forwarded beat (R153) -/

theorem foldl_of_fixed {α β : Type} {f : α → β → α} {a : α} {l : List β} (fixed : ∀ x ∈ l, f a x = a) : l.foldl f a = a := by
  induction l with
  | nil => rfl
  | cons x l ih =>
    rw [List.foldl_cons, fixed x (List.mem_cons_self ..)]
    exact ih fun y mem => fixed y (List.mem_cons_of_mem _ mem)

theorem ingestBeat_unseen {address : Nat} {data : BeatData} {enables : Enables}
    (unseen : ∀ k < 16, enables.getLsbD k = true → spanAt s.path.windows (address + k) = none) :
    s.ingestBeat address data enables = s := by
  have none : beatWrites s.path.windows address data enables = [] := by
    unfold beatWrites
    rw [foldl_of_fixed fun k mem => ?_]
    · rfl
    · obtain ⟨lt, on⟩ := mem_enabledLanes.mp mem
      rw [unseen k lt on]
  unfold State.ingestBeat
  rw [none]
  rfl

theorem cueBeat_elsewhere {address : Nat} {data : BeatData} {enables : Enables}
    (elsewhere : ∀ w base slots, windowAt s.path.windows address = some w → s.path.windows[w] ≠ .cue base slots) :
    s.cueBeat address data enables = s := by
  have none : s.cueBase address = none := by
    unfold State.cueBase
    split
    · rfl
    · next w here =>
      split
      · next base slots window => exact absurd window (elsewhere w base slots here)
      all_goals rfl
  unfold State.cueBeat
  rw [none]

theorem reportBeat_elsewhere {address : Nat} {data : BeatData} {enables : Enables}
    (elsewhere : ∀ base records, s.reportWindow = some (base, records) → address ≠ base) :
    s.reportBeat address data enables = s := by
  unfold State.reportBeat
  split
  · rfl
  · next base records here => exact if_neg fun same => elsewhere base records here same.1

theorem bootBeat_unsnooped {address : Nat} {data : BeatData} {enables : Enables}
    (unsnooped : s.loader.boot = none ∨ 0x4000 ≤ address) : s.bootBeat address data enables = s := by
  refine if_neg ?_
  rintro ⟨low, snooping⟩
  rcases unsnooped with none | high
  · rw [none] at snooping; cases snooping
  · omega

/-! ## One write beat, refused and forwarded -/

/-- A write of one beat as it waits in the PASS request queue, its response owed (R153, R154). -/
def State.queuedWrite (s : State) (beat : BeatAddr) (data : BeatData) (enables : Enables) : State :=
  s.onPath fun p =>
    { p with
      nextBurst := p.nextBurst + 1
      bursts := [⟨p.nextBurst, false, false, 1, true⟩]
      passQueue := p.passQueue ++ [.write ⟨p.nextBurst, beat.toNat, [(data, enables)], true⟩] }

/-- A write of one beat that is refused: its burst ends with an ERROR response. -/
def State.refusedWrite (s : State) : State :=
  (s.onPath fun p => { p with nextBurst := p.nextBurst + 1 }).emit (.writeResponse s.path.nextBurst false)

section Write

variable {beat : BeatAddr} {data : BeatData} {enables : Enables} (out : s.resetHeld = false) (quiet : s.PortQuiet)

include quiet

theorem refusedWrite_eq : (((s.onPath PathUnit.openWrite).onPath fun p =>
    (p.closeRun s.path.nextBurst).onBurst s.path.nextBurst fun b => { b with refused := true }).endBurst s.path.nextBurst) =
      s.refusedWrite := by
  have path := refusedBurst_path quiet.bursts quiet.openBurst quiet.runs
  unfold State.endBurst
  have decided : ((((s.onPath PathUnit.openWrite).onPath fun p =>
      (p.closeRun s.path.nextBurst).onBurst s.path.nextBurst fun b => { b with refused := true }).onPath fun p =>
        (PathUnit.closeRun { p with openBurst := none } s.path.nextBurst).onBurst s.path.nextBurst fun b => { b with decided := true })) =
      s.onPath fun p => { p with nextBurst := p.nextBurst + 1, bursts := [⟨p.nextBurst, true, false, 0, true⟩] } :=
    congrArg (fun p => { s with path := p }) path
  rw [decided, respond_one (b := ⟨s.path.nextBurst, true, false, 0, true⟩) rfl rfl rfl rfl]
  have cleared := congrArg (fun l => (s.onPath fun p => { p with nextBurst := p.nextBurst + 1, bursts := l }).emit
    (.writeResponse s.path.nextBurst false)) quiet.bursts.symm
  exact cleared

theorem queuedWrite_eq : (((s.onPath PathUnit.openWrite).onPath fun p => p.forward s.path.nextBurst beat.toNat data enables).endBurst
    s.path.nextBurst) = s.queuedWrite beat data enables := by
  have path := forwardedBurst_path quiet.bursts quiet.openBurst quiet.runs beat.toNat data enables
  unfold State.endBurst
  have decided : ((((s.onPath PathUnit.openWrite).onPath fun p => p.forward s.path.nextBurst beat.toNat data enables).onPath fun p =>
        (PathUnit.closeRun { p with openBurst := none } s.path.nextBurst).onBurst s.path.nextBurst fun b => { b with decided := true })) =
      s.queuedWrite beat data enables := congrArg (fun p => { s with path := p }) path
  rw [decided]
  exact respond_waits (b := ⟨s.path.nextBurst, false, false, 1, true⟩) rfl rfl Nat.one_ne_zero

theorem refusedWrite_idle : s.refusedWrite.PortIdle := ⟨quiet.held, quiet.openBurst, quiet.reads⟩

include out

/-- A write beat into a VIEW ends with its refusal told. -/
theorem viewWrite_ends {a : Nat} (decision : s.decideWrite (16 * beat.toNat) enables = .view a) :
    ∃ t, exec (.processorWriteBeat beat data enables true) s = .next t ∧ (s.refusedWrite.raise .viewWrite 0 a none).EndsAs t := by
  refine writeBeat_ends out quiet ?_ ((refusedWrite_idle quiet).raise ..)
  have decision : (s.onPath PathUnit.openWrite).decideWrite (16 * beat.toNat) enables = .view a := decision
  unfold State.writeBeat
  dsimp only
  rw [decision]
  exact congrArg (fun s => s.raise .viewWrite 0 a none) (refusedWrite_eq quiet)

/-- A write beat into held content ends with its refusal told. -/
theorem guardedWrite_ends {a : Nat} (decision : s.decideWrite (16 * beat.toNat) enables = .guard a) :
    ∃ t, exec (.processorWriteBeat beat data enables true) s = .next t ∧ (s.refusedWrite.raise .contentGuard 0 a none).EndsAs t := by
  refine writeBeat_ends out quiet ?_ ((refusedWrite_idle quiet).raise ..)
  have decision : (s.onPath PathUnit.openWrite).decideWrite (16 * beat.toNat) enables = .guard a := decision
  unfold State.writeBeat
  dsimp only
  rw [decision]
  exact congrArg (fun s => s.raise .contentGuard 0 a none) (refusedWrite_eq quiet)

/-- A write beat that is forwarded ends as the blocks that watch its bytes leave it. -/
theorem forwardedWrite_ends (decision : s.decideWrite (16 * beat.toNat) enables = .forward)
    (idle : ((s.queuedWrite beat data enables).watchers (16 * beat.toNat) data enables).PortIdle) :
    ∃ t, exec (.processorWriteBeat beat data enables true) s = .next t ∧
      ((s.queuedWrite beat data enables).watchers (16 * beat.toNat) data enables).EndsAs t := by
  refine writeBeat_ends out quiet ?_ idle
  have decision : (s.onPath PathUnit.openWrite).decideWrite (16 * beat.toNat) enables = .forward := decision
  unfold State.writeBeat
  dsimp only
  rw [decision]
  exact congrArg (fun s => s.watchers (16 * beat.toNat) data enables) (queuedWrite_eq quiet)

end Write

theorem decideWrite_forward {address : Nat} {enables : Enables}
    (free : ∀ k < 16, enables.getLsbD k = true → s.inView (address + k) = false ∧ s.guarded (address + k) = false) :
    s.decideWrite address enables = .forward := by
  unfold State.decideWrite
  rw [firstByte_none.mpr fun k lt on => (free k lt on).1]
  dsimp only
  rw [firstByte_none.mpr fun k lt on => (free k lt on).2]

end Sys2Proof.Machine

namespace Sys2Proof.Proofs

open Sys2Proof.Machine

/-- Settles O10, by the lowest enabled byte of the beat that is in a VIEW, or in held content. -/
theorem refusedWriteBeat : Obligations.RefusedWriteBeat := by
  intro s beat data enables lane out quiet enabled a refused
  refine ⟨fun view lowest => viewWrite_ends out quiet ?_, fun unviewed guarded lowest => guardedWrite_ends out quiet ?_⟩
  · unfold State.decideWrite
    rw [firstByte_some lane.isLt enabled view lowest]
  · unfold State.decideWrite
    rw [firstByte_none.mpr unviewed]
    dsimp only
    rw [firstByte_some lane.isLt enabled guarded lowest]

/-- Settles O14, by the runs that are still out. -/
theorem writeRunAnswered : Obligations.WriteRunAnswered := by
  intro s i burst b ok out issued one own decided owed s'
  have flies : i < s.path.issuedRuns.length := (List.getElem?_eq_some_iff.mp issued).1
  let left : WriteBurst := { b with runs := b.runs - 1, failed := b.failed || !ok }
  have answered : s.runAnswered i ok = (s'.onPath fun p => { p with bursts := [left] }).respond burst := by
    have update : s.path.bursts.map (fun x => if x.serial = burst then
        { x with runs := x.runs - 1, failed := x.failed || !ok } else x) = [left] := by
      rw [one, List.map_singleton, if_pos own]
    unfold State.runAnswered
    rw [issued]
    exact congrArg (fun l => ((s'.onPath fun p => { p with bursts := l }).respond burst)) update
  refine ⟨fun last => ?_, fun more => ?_⟩
  · refine occurs_ends (f := fun s => s.runAnswered i ok) out (decide_eq_true flies) (answered.trans ?_)
    rw [respond_one (b := left) rfl own decided (by simp [left, last])]
    have status : (!left.refused && !left.failed) = (!b.refused && !b.failed && ok) := by
      simp only [left, Bool.not_or, Bool.not_not, Bool.and_assoc]
    rw [status]
    rfl
  · refine occurs_ends (f := fun s => s.runAnswered i ok) out (decide_eq_true flies) (answered.trans ?_)
    exact respond_waits (b := left) rfl own (by simp [left]; omega)

end Sys2Proof.Proofs
end

section
/-! SUPPORT. What the blocks do with a forwarded beat's copy: the cue ring (03, R51, R52) and the consumed count (09, R172). -/

namespace Sys2Proof.Machine

variable {s t : State} {address : Nat} {data : BeatData} {enables : Enables}

/-- The bits of a run of lanes are all set where each of them is. -/
theorem extractLsb'_allOnes_iff {w : Nat} (x : BitVec w) (start n : Nat) : x.extractLsb' start n = BitVec.allOnes n ↔
    ∀ k < n, x.getLsbD (start + k) = true := by
  constructor
  · intro all k lt
    have bit := congrArg (fun v => v.getLsbD k) all
    simpa [BitVec.getLsbD_extractLsb', lt] using bit
  · intro set
    refine BitVec.eq_of_getLsbD_eq fun k lt => ?_
    rw [BitVec.getLsbD_extractLsb', BitVec.getLsbD_allOnes, set k lt]
    simp [lt]

/-! ## The cue ring (R51, R52) -/

/-- Taking goes on until nothing is left to take. -/
theorem takeCues_of_taken {n fuel : Nat} (taken : State.CuesTaken n s t) (enough : n ≤ fuel) : State.takeCues fuel s = t := by
  induction taken generalizing fuel with
  | rest s settled =>
    cases fuel with
    | zero => rfl
    | succ fuel =>
      unfold State.takeCues
      split
      · rfl
      · next ring present =>
        refine if_neg fun takes => ?_
        obtain ⟨runs, committed⟩ := Bool.and_eq_true_iff.mp takes
        rcases settled with starting | idle
        · rw [starting] at runs; cases runs
        · rw [idle ring present] at committed; cases committed
  | next n s t ring runs present committed _ ih =>
    obtain ⟨fuel, rfl⟩ : ∃ f, fuel = f + 1 := ⟨fuel - 1, by omega⟩
    conv_lhs => unfold State.takeCues
    rw [present]
    dsimp only
    rw [if_pos (Bool.and_eq_true_iff.mpr ⟨bne_iff_ne.mpr runs, committed⟩)]
    exact ih (by omega)

/-- The copy of a beat in the cue ring: its enabled bytes in the shadow, its slot committed where all of bytes 56..63 are enabled. -/
def CueRing.written (ring : CueRing) (offset : Nat) (data : BeatData) (enables : Enables) : CueRing :=
  { ring with
    shadow := ring.shadow.writeLanes offset data (enabledLanes enables)
    committed :=
      if offset % 64 = 48 ∧ ∀ k < 16, 8 ≤ k → enables.getLsbD k = true then ring.committed.set (offset / 64) true
      else ring.committed }

theorem CueRing.write_eq (ring : CueRing) (offset : Nat) : ring.write offset data enables = ring.written offset data enables := by
  have commits : (offset % 64 = 48 ∧ enables.extractLsb' 8 8 = 0xFF) ↔
      (offset % 64 = 48 ∧ ∀ k < 16, 8 ≤ k → enables.getLsbD k = true) := by
    refine and_congr_right fun _ => (extractLsb'_allOnes_iff enables 8 8).trans ⟨fun set k lt low => ?_, fun set k lt => ?_⟩
    · have bit := set (k - 8) (by omega)
      rwa [Nat.add_sub_cancel' low] at bit
    · exact set (8 + k) (by omega) (by omega)
  unfold CueRing.write CueRing.written
  rw [if_congr commits rfl rfl]

theorem cueBeat_eq {w : Fin 16} {base slots : Nat} {ring : CueRing} (here : windowAt s.path.windows address = some w)
    (window : s.path.windows[w] = .cue base slots) (present : s.cue.ring = some ring) : s.cueBeat address data enables =
      State.takeCues 256 (s.onCue fun u => { u with ring := some (ring.written (address - base) data enables) }) := by
  have found : s.cueBase address = some base := by
    unfold State.cueBase
    rw [here]
    dsimp only
    rw [window]
  unfold State.cueBeat
  rw [found]
  have written : s.cue.ring.map (fun r => r.write (address - base) data enables) = some (ring.written (address - base) data enables) := by
    rw [present, Option.map_some, CueRing.write_eq]
  exact congrArg (fun r => State.takeCues 256 (s.onCue fun u => { u with ring := r })) written

/-! ## Windows by kind -/

theorem windowAt_mem {v : Vector WindowEntry 16} {a : Nat} {w : Fin 16} (here : windowAt v a = some w) : inWindow v w a = true :=
  List.find?_some (p := fun i => inWindow v i a) here

theorem windowAt_none {v : Vector WindowEntry 16} {a : Nat} (none : windowAt v a = none) (w : Fin 16) : inWindow v w a = false :=
  Bool.eq_false_iff.mpr (List.find?_eq_none.mp none w (List.mem_finRange w))

theorem inWindow_iff {v : Vector WindowEntry 16} {a : Nat} {w : Fin 16} :
    inWindow v w a = true ↔ v[w].base ≤ a ∧ a < v[w].base + windowSize v v[w] := by
  simp [inWindow]

/-- The REPORT window is one of the table's entries. -/
theorem reportWindow_some {base records : Nat} (present : s.reportWindow = some (base, records)) :
    ∃ w : Fin 16, s.path.windows[w] = .report base records := by
  obtain ⟨e, mem, kind⟩ := List.exists_of_findSome?_eq_some present
  obtain ⟨k, lt, rfl⟩ := Vector.mem_iff_getElem.mp (Vector.mem_toList_iff.mp mem)
  refine ⟨⟨k, lt⟩, ?_⟩
  cases window : s.path.windows[k] with
  | report b n =>
    rw [window] at kind
    cases kind
    rfl
  | empty | ingest | view | cue => rw [window] at kind; cases kind

theorem report_at_base {base records : Nat} {w : Fin 16} (window : s.path.windows[w] = .report base records) :
    inWindow s.path.windows w base = true := by
  rw [inWindow_iff, window]
  exact ⟨Nat.le_refl _, Nat.lt_add_of_pos_right (Nat.add_pos_left (by decide) _)⟩

theorem inView_elsewhere {w : Fin 16} (here : windowAt s.path.windows address = some w)
    (kind : ∀ b v, s.path.windows[w] ≠ .view b v) : s.inView address = false := by
  unfold State.inView viewAt
  rw [here]
  dsimp only
  split
  · next b v window => exact absurd window (kind b v)
  all_goals rfl

theorem spanAt_elsewhere {v : Vector WindowEntry 16} {w : Fin 16} (here : windowAt v address = some w)
    (kind : ∀ b n d x, v[w] ≠ .ingest b n d x) : spanAt v address = none := by
  unfold spanAt
  rw [here]
  dsimp only
  split
  · next b n d x window => exact absurd window (kind b n d x)
  all_goals rfl

theorem inView_none (none : windowAt s.path.windows address = none) : s.inView address = false := by
  unfold State.inView viewAt
  rw [none]
  rfl

theorem spanAt_none {v : Vector WindowEntry 16} (outside : windowAt v address = none) : spanAt v address = none := by
  unfold spanAt
  rw [outside]

/-- The beat is not at the REPORT window's header where its address lies in no window. -/
theorem reportBeat_none (none : windowAt s.path.windows address = none) : s.reportBeat address data enables = s :=
  reportBeat_elsewhere fun base records present same => by
    obtain ⟨w, window⟩ := reportWindow_some present
    have inside := report_at_base window
    rw [← same, windowAt_none none w] at inside
    cases inside

/-- In a table that R156 holds of, an address lies in one window alone. -/
theorem State.TableHolds.one_window (table : s.TableHolds) {i j : Fin 16} (first : inWindow s.path.windows i address = true)
    (second : inWindow s.path.windows j address = true) : i = j := by
  by_contra ne
  have apart := (tableValid_iff _ _).mp table.valid |>.1 i j ne
  obtain ⟨low, high⟩ := inWindow_iff.mp first
  obtain ⟨low', high'⟩ := inWindow_iff.mp second
  simp only [shareByte, decide_eq_false_iff_not] at apart
  omega

end Sys2Proof.Machine

namespace Sys2Proof.Proofs

open Sys2Proof.Machine

/-- Settles O12, from the header's four bytes. -/
theorem consumedCountIsClamped : Obligations.ConsumedCountIsClamped := by
  intro s base records r data window present v clamped
  have fields (enables : Enables) : enables.extractLsb' 0 4 = 0xF ↔ ∀ k < 4, enables.getLsbD k = true := by
    refine (extractLsb'_allOnes_iff enables 0 4).trans ?_
    simp only [Nat.zero_add]
  have ringSet : s.report.ring.map (fun r => { r with consumed := clampConsumed v r.consumed r.produced }) = some clamped := by
    rw [present]; rfl
  refine ⟨fun address enables header => ?whole, fun address enables part => ?part, fun beat w out quiet booted aligned entry header => ?port⟩
  case whole =>
    unfold State.reportBeat
    rw [window]
    dsimp only
    rw [if_pos ⟨header.1, (fields enables).mpr header.2⟩]
    exact congrArg (fun x => s.onReport fun u => { u with ring := x }) ringSet
  case part =>
    unfold State.reportBeat
    rw [window]
    exact if_neg fun header => part ⟨header.1, (fields enables).mp header.2⟩
  case port =>
    let queued := s.queuedWrite beat data 0x000F
    have lanes : ∀ k < 16, (0x000F : Enables).getLsbD k = true → k < 4 := by decide
    have report (k : Nat) (lt : k < 4) : windowAt s.path.windows (base + k) = some w := (header k lt).1
    have atBase : windowAt s.path.windows (16 * beat.toNat) = some w := aligned ▸ report 0 (by decide)
    have forwards : s.decideWrite (16 * beat.toNat) 0x000F = .forward := decideWrite_forward fun k lt on => by
      rw [← aligned]
      refine ⟨inView_elsewhere (report k (lanes k lt on)) fun b v view => ?_, (header k (lanes k lt on)).2⟩
      rw [entry] at view
      cases view
    have unseen : queued.ingestBeat (16 * beat.toNat) data 0x000F = queued := ingestBeat_unseen fun k lt on =>
      aligned ▸ spanAt_elsewhere (report k (lanes k lt on)) fun b n d x ingest => nomatch entry.symm.trans ingest
    have uncued : queued.cueBeat (16 * beat.toNat) data 0x000F = queued := cueBeat_elsewhere fun v b n here cue => by
      cases (atBase.symm.trans here)
      have cue : s.path.windows[w] = .cue b n := cue
      rw [entry] at cue
      cases cue
    have counted : queued.reportBeat (16 * beat.toNat) data 0x000F = queued.onReport fun u => { u with ring := some clamped } := by
      have found : queued.reportWindow = some (base, records) := window
      unfold State.reportBeat
      rw [found]
      dsimp only
      rw [if_pos ⟨aligned.symm, (fields _).mpr (by decide)⟩]
      exact congrArg (fun x => queued.onReport fun u => { u with ring := x }) ringSet
    have watched : queued.watchers (16 * beat.toNat) data 0x000F = queued.onReport fun u => { u with ring := some clamped } := by
      unfold State.watchers
      rw [unseen, uncued, counted]
      exact bootBeat_unsnooped (.inl booted)
    have idle : (queued.watchers (16 * beat.toNat) data 0x000F).PortIdle :=
      watched ▸ ⟨quiet.held, quiet.openBurst, quiet.reads⟩
    exact watched ▸ forwardedWrite_ends out quiet forwards idle

/-- Settles O13: the copy at the shadow, the takes one after another, and the beat at the port. -/
theorem commitTakesTheHeadCue : Obligations.CommitTakesTheHeadCue := by
  refine ⟨fun s address data enables elsewhere => cueBeat_elsewhere elsewhere, fun s w base slots address ring data enables here window
    present => ?_⟩
  intro offset written
  have taken (n : Nat) (t : State) (few : n ≤ 256) (taken : State.CuesTaken n written t) : s.cueBeat address data enables = t :=
    (cueBeat_eq here window present).trans (takeCues_of_taken taken few)
  refine ⟨taken, fun beat aligned settled out quiet table booted free => ?_⟩
  subst aligned
  let queued := s.queuedWrite beat data enables
  have alone {e : WindowEntry} (entry : s.path.windows[w] = e) : e = .cue base slots := entry.symm.trans window
  have forwards : s.decideWrite (16 * beat.toNat) enables = .forward := decideWrite_forward fun k lt on =>
    ⟨inView_elsewhere (free k lt on).1 (fun b v view => nomatch alone view), (free k lt on).2⟩
  have unseen : queued.ingestBeat (16 * beat.toNat) data enables = queued := ingestBeat_unseen fun k lt on =>
    spanAt_elsewhere (free k lt on).1 fun b n d x ingest => nomatch alone ingest
  have cued : queued.cueBeat (16 * beat.toNat) data enables = queued.onCue fun u =>
      { u with ring := some (ring.written offset data enables) } := by
    refine (cueBeat_eq (s := queued) here window present).trans (takeCues_of_taken (n := 0) ?_ (Nat.zero_le _))
    cases settled with
    | rest _ settled => exact .rest _ settled
  have unreported : (queued.onCue fun u => { u with ring := some (ring.written offset data enables) }).reportBeat
      (16 * beat.toNat) data enables = queued.onCue fun u => { u with ring := some (ring.written offset data enables) } :=
    reportBeat_elsewhere fun b n report same => by
      obtain ⟨v, entry⟩ := reportWindow_some report
      have entry : s.path.windows[v] = .report b n := entry
      have inside := report_at_base entry
      cases table.one_window inside (same ▸ windowAt_mem here)
      exact nomatch alone entry
  have watched : queued.watchers (16 * beat.toNat) data enables = queued.onCue fun u =>
      { u with ring := some (ring.written offset data enables) } := by
    unfold State.watchers
    rw [unseen, cued, unreported]
    exact bootBeat_unsnooped (.inl booted)
  have idle : (queued.watchers (16 * beat.toNat) data enables).PortIdle := watched ▸ ⟨quiet.held, quiet.openBurst, quiet.reads⟩
  have ends := forwardedWrite_ends out quiet forwards idle
  rw [watched] at ends
  exact ends

end Sys2Proof.Proofs
end

section
/-! SUPPORT. Read bursts at a port at rest (07, R135; 08, R151, R155): how one is accepted, and the beats of its memory reads. -/

namespace Sys2Proof.Machine

variable {s u : State} {tag : Nat} {beat : BeatAddr} {more : Fin 16}

/-! ## A read burst is accepted -/

/-- A read burst presented at a port at rest is accepted, and the port served on. -/
theorem presentRead_settles (quiet : s.PortQuiet)
    (settles : (s.onPath fun p => p.acceptRead tag beat.toNat (more.val + 1)).Settles u) :
    s.presentRead tag beat more = u := by
  let asked := s.presentRequest (.read tag beat more)
  have held : asked.path.held = [.read tag beat more] := by
    change s.path.held ++ _ = _
    rw [quiet.held]
    rfl
  have restored : asked.unhold 0 = s := by
    have unheld : (s.path.held ++ [PortRequest.read tag beat more]).eraseIdx 0 = s.path.held := by rw [quiet.held]; rfl
    have same := congrArg (fun b => { s with path := { s.path with held := b } }) unheld
    exact same
  have accepted : asked.acceptNext = some (s.onPath fun p => p.acceptRead tag beat.toNat (more.val + 1)) := by
    have room : asked.path.full = false := decide_eq_false (Nat.not_le.mpr quiet.room)
    have closed : asked.path.openBurst = none := quiet.openBurst
    have few : asked.path.reads.length = 0 := by
      change s.path.reads.length = 0
      rw [quiet.reads]
      rfl
    unfold State.acceptNext
    rw [closed, held]
    dsimp only
    rw [room, few, restored]
    rfl
  change asked.serve = u
  unfold State.serve
  rw [servePort_accepts (show asked.path.reads = [] from quiet.reads) accepted]
  have work : asked.path.work = 16 + 1 := by
    have owed : asked.path.reads = [] := quiet.reads
    unfold PathUnit.work PathUnit.beatsOwed
    rw [held, owed]
    rfl
  rw [work]
  exact settles.servePort

/-- A read burst, under either name, ends as the port serves it (DEDUCED, log 33). -/
theorem read_ends {a : State} {c : Instr} (named : c = .passThroughRead tag beat more ∨ c = .viewRead tag beat more)
    (out : s.resetHeld = false) (quiet : s.PortQuiet) (fits : beat.toNat + more.val + 1 ≤ 2 ^ 36)
    (accepted : (s.onPath fun p => p.acceptRead tag beat.toNat (more.val + 1)) = a) (settles : a.Settles u) : ∃ t, exec c s = .next t ∧ u.EndsAs t := by
  subst accepted
  obtain ⟨t, ended, ends⟩ := onPort_ends (b := true) (k := burstFits beat more) (fun s => s.presentRead tag beat more) out rfl
    (decide_eq_true fits)
  rw [presentRead_settles quiet settles] at ends
  rcases named with rfl | rfl
  · exact ⟨t, ended, ends⟩
  · exact ⟨t, ended, ends⟩

/-! ## The runs of beats that hold some addresses (DESIGN CHOICE, log 10) -/

/-- Further addresses of the run's last beat change nothing. -/
theorem addToRuns_within {first count : Nat} {rest : List BeatRun} {l : List Nat}
    (within : ∀ a ∈ l, first ≤ a / 16 ∧ a / 16 < first + count) : l.foldl addToRuns ((first, count) :: rest) = (first, count) :: rest :=
  foldl_of_fixed fun a mem => if_pos (within a mem)

/-- The 16 addresses of the beat behind a run extend it by that beat. -/
theorem addToRuns_row {b count : Nat} (start : Nat) (behind : b = start + count) (few : count < 16) :
    ((List.range 16).map fun j => 16 * b + j).foldl addToRuns (if count = 0 then [] else [(start, count)]) = [(start, count + 1)] := by
  have row (j : Nat) (lt : j < 16) : (16 * b + j) / 16 = b := by omega
  rw [List.range_succ_eq_map, List.map_cons, List.foldl_cons]
  have first : addToRuns (if count = 0 then [] else [(start, count)]) (16 * b + 0) = [(start, count + 1)] := by
    by_cases zero : count = 0
    · rw [if_pos zero]
      simp [addToRuns, zero, behind]
    · rw [if_neg zero]
      unfold addToRuns
      rw [row 0 (by decide)]
      dsimp only
      rw [if_neg (by omega), if_pos ⟨behind, few⟩]
  rw [first]
  refine addToRuns_within fun a mem => ?_
  obtain ⟨j, inRange, rfl⟩ := List.mem_map.mp mem
  obtain ⟨k, lt, rfl⟩ := List.mem_map.mp inRange
  rw [row (k + 1) (by have := List.mem_range.mp lt; omega)]
  omega

/-- The addresses of consecutive beats make one run. -/
theorem beatRuns_rows {start n : Nat} (some : 0 < n) (few : n ≤ 16) :
    beatRuns (((List.range n).map fun i => (List.range 16).map fun j => 16 * (start + i) + j).flatten) = [(start, n)] := by
  have rows (n : Nat) (few : n ≤ 16) : (((List.range n).map fun i => (List.range 16).map fun j => 16 * (start + i) + j).flatten).foldl
      addToRuns [] = if n = 0 then [] else [(start, n)] := by
    induction n with
    | zero => rfl
    | succ n ih =>
      rw [List.range_succ (n := n), List.map_append, List.flatten_append, List.foldl_append, ih (by omega), List.map_singleton,
        List.flatten_singleton, addToRuns_row start rfl (by omega)]
      rfl
  rw [beatRuns, rows n few, if_neg (by omega)]
  rfl

/-! ## A burst without view bytes (R155) -/

theorem wantAt_direct {v : Vector WindowEntry 16} {a : Nat} (outside : viewAt v a = none) : wantAt v a = .direct a := by
  unfold wantAt
  rw [outside]

/-- The read of a burst whose bytes all come from one memory read. -/
def memoryRead (tag request count : Nat) : ProcRead :=
  ⟨tag, (List.range count).map fun i => ⟨false, (List.range 16).map fun j => .memory request (16 * i + j)⟩⟩

theorem memoryRead_owes {request n : Nat} (some : 0 < n) : s.Owes (memoryRead tag request n) := by
  obtain ⟨n, rfl⟩ := Nat.exists_eq_succ_of_ne_zero some.ne'
  refine ⟨_, _, congrArg (List.map _) (List.range_succ_eq_map ..), by simp, fun b mem x here => ?_⟩
  obtain ⟨i, -, rfl⟩ := List.mem_map.mp mem
  obtain ⟨j, -, rfl⟩ := List.mem_map.mp here
  exact True.intro

/-- A port at rest but for reads that owe every byte waits. -/
theorem State.PortServes.reading {t : State} (quiet : s.PortQuiet) (held : t.path.held = s.path.held) (openBurst : t.path.openBurst = s.path.openBurst)
    (staging : t.path.staging = s.path.staging) (owes : ∀ r ∈ t.path.reads, t.Owes r) : t.PortWaits where
  held := held.trans quiet.held
  openBurst := openBurst.trans quiet.openBurst
  reads := owes
  voids := fun b v used => quiet.voids b v (by rw [← staging]; exact used)

theorem acceptRead_direct {p : PathUnit} {tag start n : Nat} (some : 0 < n) (few : n ≤ 16)
    (outside : ∀ k < 16 * n, viewAt p.windows (16 * start + k) = none) : p.acceptRead tag start n =
      { p with
        passQueue := p.passQueue ++ [.read ⟨start, n, .pass p.nextRequest⟩]
        nextRequest := p.nextRequest + 1
        reads := p.reads ++ [memoryRead tag p.nextRequest n] } := by
  have wants : readWants p.windows start n = (List.range n).map fun i => (List.range 16).map fun j => .direct (16 * (start + i) + j) := by
    refine List.map_congr_left fun i rows => List.map_congr_left fun j lanes => wantAt_direct ?_
    have row := List.mem_range.mp rows
    have lane := List.mem_range.mp lanes
    rw [show 16 * (start + i) + j = 16 * start + (16 * i + j) by omega]
    exact outside _ (by omega)
  have packetless : ((readWants p.windows start n).any fun b => b.any Want.isPacket) = false := by
    rw [wants]
    simp [Want.isPacket]
  have addresses : (readWants p.windows start n).flatten.filterMap Want.address? =
      ((List.range n).map fun i => (List.range 16).map fun j => 16 * (start + i) + j).flatten := by
    rw [wants]
    simp only [List.filterMap_flatten, List.map_map]
    congr 1
  have runs : beatRuns ((readWants p.windows start n).flatten.filterMap Want.address?) = [(start, n)] := by
    rw [addresses]
    exact beatRuns_rows some few
  have beats (q : Nat → Bool) : ((readWants p.windows start n).mapIdx fun i b =>
      ReadBeat.mk (false && q i) (b.map (Want.source (sourceIn p.nextRequest [(start, n)])))) =
        (memoryRead tag p.nextRequest n).beats := by
    rw [wants]
    refine List.ext_getElem (by simp [memoryRead]) fun i lt lt' => ?_
    have row : i < n := by simpa using lt
    simp only [memoryRead, List.getElem_mapIdx, List.getElem_map, List.getElem_range, List.map_map, Bool.false_and]
    refine congrArg (ReadBeat.mk false) (List.map_congr_left fun j lanes => ?_)
    have lane := List.mem_range.mp lanes
    simp only [Function.comp, Want.source, sourceIn]
    rw [if_pos (by omega)]
    congr 1
    omega
  unfold PathUnit.acceptRead PathUnit.readPieces
  dsimp only
  rw [packetless, runs, beats]
  rfl

end Sys2Proof.Machine

namespace Sys2Proof.Proofs

open Sys2Proof.Machine

/-- Settles O15: the burst is one memory read, and the port waits on it. -/
theorem passThroughReadWaitsWhole : Obligations.PassThroughReadWaitsWhole := by
  intro s tag beat more c named out quiet fits outside
  let a := s.onPath fun p =>
    { p with
      passQueue := p.passQueue ++ [.read ⟨beat.toNat, more.val + 1, .pass p.nextRequest⟩]
      nextRequest := p.nextRequest + 1
      reads := [memoryRead tag p.nextRequest (more.val + 1)] }
  have accepted : (s.onPath fun p => p.acceptRead tag beat.toNat (more.val + 1)) = a := by
    have path := acceptRead_direct (p := s.path) (tag := tag) (Nat.succ_pos more.val) (by omega) outside
    rw [quiet.reads] at path
    exact congrArg (fun p => { s with path := p }) path
  have owes : a.Owes (memoryRead tag s.path.nextRequest (more.val + 1)) := memoryRead_owes (Nat.succ_pos _)
  have waits : a.PortWaits := quiet.reading rfl rfl rfl fun r mem => List.mem_singleton.mp mem ▸ owes
  exact read_ends named out quiet fits accepted (.of_waits (serveReads_of_waits waits _ _) waits)

end Sys2Proof.Proofs
end

section
/-! SUPPORT. Notices to sources and the completion of a slot (05, R111, R112; 06, R116, R133; 07, R145), and the beats of a read that are
returned (R135). -/

namespace Sys2Proof.Machine

variable {s u : State}

/-! ## Aired and lost notices (R111, R112, R116, R133) -/

/-- The last outstanding disposition is the one that a notice takes off. -/
theorem last_outstanding (x : Count32) : x - 1 = 0 ↔ x = 1 := by
  constructor
  · intro zero
    bv_omega
  · rintro rfl
    rfl

/-- The record as a notice leaves it. -/
theorem noticed_eq (x : InsertionRecord) (aired : Bool) : x.noticed aired =
    { x with
      aired := if aired then x.aired + 1 else x.aired
      lost := if aired then x.lost else x.lost + 1
      outstanding := x.outstanding - 1 } := by
  cases aired <;> rfl

theorem entryNoticed_eq (e : AlertEntry) (v : Fin 64) (aired : Bool) : e.noticed v aired =
    { e with
      aired := if aired then e.aired.set v (e.aired[v] + 1) else e.aired
      lost := if aired then e.lost else e.lost.set v (e.lost[v] + 1)
      outstanding := e.outstanding - 1 } := by
  cases aired <;> rfl

theorem onRecord_at (s : State) (r : Fin 68) (f : InsertionRecord → InsertionRecord) :
    (s.onRecord r f).splice.records[r] = f s.splice.records[r] := by
  simp [State.onRecord]

theorem onEntry_at (s : State) (i : Fin 4) (f : AlertEntry → AlertEntry) :
    (s.onEntry i f).alert.entries[i] = f s.alert.entries[i] := by
  simp [State.onEntry]

theorem recordCurrent_false {r : Fin 68} {g : Generation}
    (gone : s.splice.records[r].state = .free ∨ s.splice.records[r].generation ≠ g) : s.recordCurrent r g = false := by
  unfold State.recordCurrent
  rcases gone with free | other
  · rw [free]; rfl
  · rw [beq_eq_false_iff_ne.mpr other, Bool.and_false]

theorem recordCurrent_true {r : Fin 68} {g : Generation}
    (current : ¬ (s.splice.records[r].state = .free ∨ s.splice.records[r].generation ≠ g)) : s.recordCurrent r g = true := by
  rw [not_or, not_not] at current
  exact Bool.and_eq_true_iff.mpr ⟨bne_iff_ne.mpr current.1, beq_iff_eq.mpr current.2⟩

theorem entryCurrent_false {i : Fin 4} {g : Generation}
    (gone : s.alert.entries[i].state = .free ∨ s.alert.entries[i].generation ≠ g) : s.entryCurrent i g = false := by
  unfold State.entryCurrent
  rcases gone with free | other
  · rw [free]; rfl
  · rw [beq_eq_false_iff_ne.mpr other, Bool.and_false]

theorem entryCurrent_true {i : Fin 4} {g : Generation}
    (current : ¬ (s.alert.entries[i].state = .free ∨ s.alert.entries[i].generation ≠ g)) : s.entryCurrent i g = true := by
  rw [not_or, not_not] at current
  exact Bool.and_eq_true_iff.mpr ⟨bne_iff_ne.mpr current.1, beq_iff_eq.mpr current.2⟩

/-- What a record's notice does (R111, R112). -/
theorem recordNotice_eq (r : Fin 68) (g : Generation) (aired : Bool) : s.recordNotice r g aired = s.counted (.insertion r g) aired := by
  unfold State.recordNotice State.counted
  dsimp only
  by_cases gone : s.splice.records[r].state = .free ∨ s.splice.records[r].generation ≠ g
  · rw [if_pos gone, recordCurrent_false gone]
    rfl
  · have generation : s.splice.records[r].generation = g := by
      rw [not_or, not_not] at gone
      exact gone.2
    rw [if_neg gone, if_pos (recordCurrent_true gone), onRecord_at, noticed_eq]
    dsimp only
    have closes : (s.splice.records[r].state = .closing ∧ s.splice.records[r].outstanding - 1 = 0) ↔
        (s.splice.records[r].state = .closing ∧ s.splice.records[r].outstanding = 1) := and_congr_right fun _ => last_outstanding _
    rw [if_congr closes rfl rfl]
    split
    · unfold State.producing State.closeRecord
      dsimp only
      rw [onRecord_at, onRecord_onRecord, noticed_eq]
      subst generation
      rfl
    · exact onRecord_congr (noticed_eq _ _)

/-- What an entry's notice does (R116, R133). -/
theorem entryNotice_eq (i : Fin 4) (g : Generation) (v : Fin 64) (aired : Bool) :
    s.entryNotice i g v aired = s.counted (.alert i g v) aired := by
  unfold State.entryNotice State.counted
  dsimp only
  by_cases gone : s.alert.entries[i].state = .free ∨ s.alert.entries[i].generation ≠ g
  · rw [if_pos gone, entryCurrent_false gone]
    rfl
  · have generation : s.alert.entries[i].generation = g := by
      rw [not_or, not_not] at gone
      exact gone.2
    rw [if_neg gone, if_pos (entryCurrent_true gone), onEntry_at, entryNoticed_eq]
    dsimp only
    have closes : (s.alert.entries[i].state = .closing ∧ s.alert.entries[i].outstanding - 1 = 0) ↔
        (s.alert.entries[i].state = .closing ∧ s.alert.entries[i].outstanding = 1) := and_congr_right fun _ => last_outstanding _
    rw [if_congr closes rfl rfl]
    split
    · unfold State.producing State.closeEntry
      dsimp only
      rw [onEntry_at, onEntry_onEntry, entryNoticed_eq]
      subst generation
      rfl
    · exact onEntry_congr (entryNoticed_eq _ _ _)

theorem notice_eq (source : Source) (aired : Bool) : s.notice source aired = s.counted source aired := by
  cases source with
  | insertion r g => exact recordNotice_eq r g aired
  | alert i g v => exact entryNotice_eq i g v aired

/-! ## Releases and completion (R87, R145) -/

theorem releasePrefetch_eq (b : Fin 256) (owner : Owner) : s.releasePrefetch b owner = s.letGo (some b) owner := by
  unfold State.releasePrefetch State.letGo
  dsimp only
  split
  · next owned =>
    refine congrArg (fun c => { s with content := c }) ((if_pos owned).trans ?_)
    refine congrArg (fun x => { s.content with prefetch := s.content.prefetch.set b x }) ?_
    cases s.content.prefetch[b] <;> rfl
  · next free => exact congrArg (fun c => { s with content := c }) (if_neg free)

/-- What a discard of an unplayed disposition does (R25, R87). -/
theorem discard_eq (w : Fin 16) (slot : Nat) (g : Generation) (d : Disposition) : s.discard w slot g d =
    match d.action with
    | .insert f => (s.counted f.source false).letGo f.prefetch ⟨w, slot, g⟩
    | .pass _ | .null => s := by
  unfold State.discard
  cases d.action with
  | pass r => rfl
  | null => rfl
  | insert f =>
    dsimp only
    rw [notice_eq]
    cases f.prefetch with
    | none => rfl
    | some b => exact releasePrefetch_eq ..

theorem onSlot_congr {w : Fin 16} {slot : Nat} {f g : SlotRecord → SlotRecord}
    (same : ∀ r, s.slots.records[w][slot]? = some r → f r = g r) : s.onSlot w slot f = s.onSlot w slot g := by
  have lists : s.slots.records[w].modify slot f = s.slots.records[w].modify slot g := by
    refine List.ext_getElem? fun k => ?_
    rw [List.getElem?_modify, List.getElem?_modify]
    by_cases here : slot = k
    · subst here
      cases present : s.slots.records[w][slot]? with
      | none => rfl
      | some r => simp [same r present]
    · simp [here]
  exact congrArg (fun v => s.onSlots fun t => { t with records := v }) (modifyAt_congr lists)

theorem onSlot_id (w : Fin 16) (slot : Nat) : s.onSlot w slot (fun r => r) = s := by
  have lists : s.slots.records[w].modify slot (fun r => r) = s.slots.records[w] := List.modify_id slot _
  exact congrArg (fun v => s.onSlots fun t => { t with records := v }) (modifyAt_of_fixed lists)

theorem slotRecord_of_getElem? {w : Fin 16} {slot : Nat} {r : SlotRecord} (here : s.slots.records[w][slot]? = some r) :
    s.slotRecord w slot = r := by
  unfold State.slotRecord
  rw [List.getD_eq_getElem?_getD, here]
  rfl

/-- The played notice: a TAKEN record of the generation is PLAYED, and that is the first answer (R26). -/
theorem played_eq (r : SlotRecord) (g : Generation) :
    (decide (r.generation = g ∧ (r.state = .rest .taken ∨ r.state = .filling .taken)) = true ∧
      r.played g = ({ r with state := if r.state = .rest .taken then .rest .played else .filling .played }, .first)) ∨
    (decide (r.generation = g ∧ (r.state = .rest .taken ∨ r.state = .filling .taken)) = false ∧ (r.played g).1 = r ∧
      (r.played g).2 ≠ .first) := by
  unfold SlotRecord.played
  by_cases own : r.generation = g
  · rw [if_pos own]
    rcases state : r.state with k | k <;> cases k <;> simp [own]
  · rw [if_neg own]
    exact .inr ⟨by simp [own], rfl, nofun⟩

theorem onSlot_record (w : Fin 16) (slot : Nat) : s.onSlot w slot (fun _ => s.slotRecord w slot) = s :=
  (onSlot_congr fun _ here => slotRecord_of_getElem? here).trans (onSlot_id w slot)

theorem tellOutcome_first (source : Source) (outcome : PlayOutcome) : s.tellOutcome source .first outcome =
    match outcome with
    | .aired => s.counted source true
    | .lost => s.counted source false
    | .none => s := by
  cases outcome with
  | aired | lost => exact notice_eq ..
  | none => rfl

theorem tellOutcome_later {answer : PlayedAnswer} (later : answer ≠ .first) (source : Source) (outcome : PlayOutcome) :
    s.tellOutcome source answer outcome = s := by
  cases answer with
  | first => exact absurd rfl later
  | again | stale => cases outcome <;> rfl

/-- The completion of a slot from a buffer that is not VOID (R145). -/
theorem complete_eq {v : StagingUse} (live : v.void = false) : s.complete v = s.completed v := by
  unfold State.complete
  rw [if_neg (by rw [live]; decide)]
  unfold State.completed
  dsimp only
  rcases played_eq (s.slotRecord v.window v.slot) v.generation with ⟨first, played⟩ | ⟨later, kept, answer⟩
  · rw [first, played, if_pos rfl]
    have noted : (s.onSlot v.window v.slot fun _ => { s.slotRecord v.window v.slot with
        state := if (s.slotRecord v.window v.slot).state = .rest .taken then .rest .played else .filling .played }) =
        s.onSlot v.window v.slot fun r => { r with
          state := if (s.slotRecord v.window v.slot).state = .rest .taken then .rest .played else .filling .played } :=
      onSlot_congr fun r here => by rw [slotRecord_of_getElem? here]
    dsimp only
    rw [noted]
    cases v.disposition.action with
    | pass r => rfl
    | null => rfl
    | insert f =>
      dsimp only
      rw [tellOutcome_first]
      cases f.prefetch with
      | none => cases v.outcome <;> rfl
      | some b => cases v.outcome <;> exact releasePrefetch_eq ..
  · rw [later, kept, onSlot_record, if_neg Bool.false_ne_true]
    cases v.disposition.action with
    | pass r => rfl
    | null => rfl
    | insert f =>
      dsimp only
      rw [tellOutcome_later answer]
      cases f.prefetch with
      | none => cases v.outcome <;> rfl
      | some b => cases v.outcome <;> exact releasePrefetch_eq ..

/-! ## What a notice leaves of the Path Unit -/

theorem counted_path (source : Source) (aired : Bool) : (s.counted source aired).path = s.path := by
  cases source with
  | insertion r g =>
    unfold State.counted
    dsimp only
    split
    · rfl
    · split
      · exact told_path ..
      · rfl
  | alert i g v =>
    unfold State.counted
    dsimp only
    split
    · rfl
    · split
      · exact told_path ..
      · rfl

theorem letGo_path (named : Option (Fin 256)) (owner : Owner) : (s.letGo named owner).path = s.path := by
  cases named with
  | none => rfl
  | some p =>
    unfold State.letGo
    dsimp only
    split <;> rfl

theorem completed_path (v : StagingUse) : (s.completed v).path = s.path := by
  have noted (c : Bool) (f : SlotRecord → SlotRecord) : (if c = true then s.onSlot v.window v.slot f else s).path = s.path := by
    cases c <;> rfl
  unfold State.completed
  dsimp only
  cases v.disposition.action with
  | pass r => exact noted ..
  | null => exact noted ..
  | insert f =>
    dsimp only
    rw [letGo_path]
    split
    · exact (counted_path ..).trans (noted ..)
    · exact (counted_path ..).trans (noted ..)
    · exact noted ..

end Sys2Proof.Machine
end

section
/-! SUPPORT. The one outstanding read of the port: its beats that are in hand are returned (07, R135, R137, R145). -/

namespace Sys2Proof.Machine

variable {s v : State} {r : ProcRead} {beat : ReadBeat} {rest : List ReadBeat} {bytes : List (Byte × Bool)}

/-! ## The first beat of the one read is returned -/

section Returned

variable (one : s.path.reads = [r]) (decided : s.decideRead 0 = s) (beats : r.beats = beat :: rest)
  (inHand : beat.bytes.mapM (ByteSource.inHand s.path.staging) = some bytes) (returned : s.returnBeat r.tag beat bytes = v)
  (reads : v.path.reads = [r]) (voids : v.NoVoids)

include one decided beats inHand returned reads

theorem serveRead_first : s.serveRead 0 =
    (State.returnBeats (rest.length + 1) (v.onPath fun p => { p with reads := [{ r with beats := rest }] }) 0).dropVoids := by
  have here : s.path.reads[0]? = some r := by rw [one]; rfl
  have left : v.onRead 0 (fun r => { r with beats := rest }) = v.onPath fun p => { p with reads := [{ r with beats := rest }] } := by
    have modified : v.path.reads.modify 0 (fun r => { r with beats := rest }) = [{ r with beats := rest }] := by rw [reads]; rfl
    exact congrArg (fun l => v.onPath fun p => { p with reads := l }) modified
  have step : State.returnBeats (r.beats.length + 1) s 0 =
      State.returnBeats (rest.length + 1) (v.onPath fun p => { p with reads := [{ r with beats := rest }] }) 0 := by
    rw [beats]
    conv_lhs => unfold State.returnBeats
    rw [here]
    dsimp only
    rw [beats]
    dsimp only
    rw [inHand]
    dsimp only
    rw [returned, left]
    rfl
  unfold State.serveRead
  rw [decided]
  dsimp only
  rw [here]
  dsimp only
  rw [step]

include voids

/-- The last beat of the read is returned, and the read is no longer outstanding. -/
theorem serveRead_last (last : rest = []) : s.serveRead 0 = v.onPath fun p => { p with reads := [] } := by
  rw [serveRead_first one decided beats inHand returned reads, last]
  exact dropVoids_of_no_voids (s := v.onPath fun p => { p with reads := [] }) voids

/-- The first beat is returned, and the read waits on the others. -/
theorem serveRead_more (owes : (v.onPath fun p => { p with reads := [{ r with beats := rest }] }).Owes { r with beats := rest }) :
    s.serveRead 0 = v.onPath fun p => { p with reads := [{ r with beats := rest }] } := by
  rw [serveRead_first one decided beats inHand returned reads, returnBeats_of_owes rfl owes]
  exact dropVoids_of_no_voids (s := v.onPath fun p => { p with reads := [{ r with beats := rest }] }) voids

end Returned

theorem mapM_some {α β : Type} {f : α → Option β} {g : α → β} {l : List α} (all : ∀ x ∈ l, f x = some (g x)) :
    l.mapM f = some (l.map g) := by
  induction l with
  | nil => rfl
  | cons x l ih =>
    rw [List.mapM_cons, all x (List.mem_cons_self ..), ih fun y mem => all y (List.mem_cons_of_mem _ mem)]
    rfl

/-! ## A beat from memory -/

/-- A beat of which no byte comes from a staging buffer goes back with its bytes and status. -/
theorem returnBeat_memory {tag : Nat} (unserved : ∀ x ∈ beat.bytes, ∀ slot k a serving, x ≠ .packet slot k a serving) :
    s.returnBeat tag beat bytes =
      s.emit (.readBeat tag (if bytes.all Prod.snd || !beat.view then some (bytes.map Prod.fst) else none) (bytes.all Prod.snd)) := by
  have none : completers s.path.staging beat.bytes = [] := by
    refine List.filterMap_eq_nil_iff.mpr fun x mem => ?_
    cases x with
    | packet slot k a serving => exact absurd rfl (unserved _ mem slot k a serving)
    | got | failed | memory | overtaken => rfl
  have idle : servers beat.bytes = [] := by
    refine List.filter_eq_nil_iff.mpr fun b _ tied => ?_
    obtain ⟨x, mem, tied⟩ := List.any_eq_true.mp tied
    cases x with
    | packet slot k a serving => exact absurd rfl (unserved _ mem slot k a serving)
    | got | failed | memory | overtaken => cases tied
  unfold State.returnBeat
  dsimp only
  rw [none, idle]
  split <;> rfl

/-- One row of a memory read as the arrival of a beat leaves it. -/
theorem arrive_row {request got i : Nat} {data : BeatData} {ok : Bool} : ((List.range 16).map fun j =>
    ByteSource.memory request (16 * i + j)).map (ByteSource.arrive request got data ok) =
      if i = got then (List.range 16).map fun j => if ok then .got (laneByte data j) else .failed (laneByte data j)
      else (List.range 16).map fun j => .memory request (16 * i + j) := by
  rw [List.map_map]
  split
  · next same =>
    refine List.map_congr_left fun j lane => ?_
    have lane := List.mem_range.mp lane
    simp only [Function.comp, ByteSource.arrive]
    rw [if_pos ⟨trivial, by omega⟩, show (16 * i + j) % 16 = j by omega]
  · next other =>
    refine List.map_congr_left fun j lane => ?_
    have lane := List.mem_range.mp lane
    simp only [Function.comp, ByteSource.arrive]
    exact if_neg fun hit => other (by omega)

/-- One beat of a memory read, as its bytes are to come. -/
def memoryRow (view : Nat → Bool) (request i : Nat) : ReadBeat :=
  ⟨view i, (List.range 16).map fun j => .memory request (16 * i + j)⟩

theorem memoryRows_owe {view : Nat → Bool} {tag request n first : Nat} (some : 0 < n) :
    s.Owes ⟨tag, (List.range n).map fun i => memoryRow view request (first + i)⟩ := by
  obtain ⟨n, rfl⟩ := Nat.exists_eq_succ_of_ne_zero some.ne'
  refine ⟨_, _, congrArg (List.map _) (List.range_succ_eq_map ..), by simp [memoryRow], fun b mem x here => ?_⟩
  obtain ⟨i, -, rfl⟩ := List.mem_map.mp mem
  obtain ⟨j, -, rfl⟩ := List.mem_map.mp here
  exact True.intro

theorem memoryRows_succ (view : Nat → Bool) (request first n : Nat) :
    ((List.range (n + 1)).map fun i => memoryRow view request (first + i)) =
      memoryRow view request first :: (List.range n).map fun i => memoryRow view request (first + 1 + i) := by
  rw [List.range_succ_eq_map, List.map_cons, List.map_map]
  refine congrArg (memoryRow view request first :: ·) (List.map_congr_left fun i _ => ?_)
  exact congrArg (memoryRow view request) (by omega)

/-- What the arrival of the awaited beat leaves of the rows of a read. -/
theorem arrive_rows (view : Nat → Bool) (request got n tag : Nat) (data : BeatData) (ok : Bool) :
    ProcRead.mapSources (ByteSource.arrive request got data ok)
      ⟨tag, (List.range (n + 1)).map fun i => memoryRow view request (got + i)⟩ =
      ⟨tag, ⟨view got, (List.range 16).map fun j => if ok then .got (laneByte data j) else .failed (laneByte data j)⟩ ::
        (List.range n).map fun i => memoryRow view request (got + 1 + i)⟩ := by
  rw [memoryRows_succ]
  unfold ProcRead.mapSources
  dsimp only
  rw [List.map_cons, List.map_map]
  refine congrArg (ProcRead.mk tag) (congrArg₂ List.cons ?_ (List.map_congr_left fun i _ => ?_))
  · exact congrArg (ReadBeat.mk (view got)) (arrive_row.trans (if_pos rfl))
  · exact congrArg (ReadBeat.mk (view (got + 1 + i))) (arrive_row.trans (if_neg (by omega)))

/-- An arrived beat's bytes are in hand, with its status. -/
theorem arrived_inHand (staging : Vector (Option StagingUse) 8) (data : BeatData) (ok : Bool) :
    ((List.range 16).map fun j => if ok then ByteSource.got (laneByte data j) else .failed (laneByte data j)).mapM
      (ByteSource.inHand staging) = some ((List.range 16).map fun j => (laneByte data j, ok)) := by
  rw [mapM_some (g := fun x => match x with
    | .got b => (b, true)
    | .failed b => (b, false)
    | _ => (0, ok)) fun x mem => ?_]
  · rw [List.map_map]
    refine congrArg some (List.map_congr_left fun j _ => ?_)
    cases ok <;> rfl
  · obtain ⟨j, -, rfl⟩ := List.mem_map.mp mem
    cases ok <;> rfl

section Arrives

variable {tag : Fin 32} {ptag start count got request : Nat} {use : ReadUse} {view : Nat → Bool} {data : BeatData} {ok : Bool}
  (held : s.path.held = []) (openBurst : s.path.openBurst = none) (voids : s.NoVoids) (short : got < count)
  (outstanding : s.path.reads = [⟨ptag, (List.range (count - got)).map fun i => memoryRow view request (got + i)⟩])

include held openBurst voids short outstanding

/-- The beat of the one read that arrives is returned at once. -/
theorem beatArrives_serve : (s.beatArrives tag ⟨⟨start, count, use⟩, got⟩ request data ok).serve =
    ((s.onPath fun p =>
      { p with
        tags := p.tags.set tag (if got + 1 < count then some ⟨⟨start, count, use⟩, got + 1⟩ else none)
        reads := if got + 1 < count then
            [⟨ptag, (List.range (count - got - 1)).map fun i => memoryRow view request (got + 1 + i)⟩]
          else [] }).emit (.readBeat ptag (if ok || !view got then some (beatBytes data) else none) ok)) := by
  obtain ⟨n, left⟩ : ∃ n, count - got = n + 1 := ⟨count - got - 1, by omega⟩
  rw [left] at outstanding
  let first : ReadBeat := ⟨view got, (List.range 16).map fun j => if ok then .got (laneByte data j) else .failed (laneByte data j)⟩
  let rest := (List.range n).map fun i => memoryRow view request (got + 1 + i)
  let r : ProcRead := ⟨ptag, first :: rest⟩
  let use' : Option TagUse := if got + 1 < count then some ⟨⟨start, count, use⟩, got + 1⟩ else none
  let a := s.onPath fun p => { p with tags := p.tags.set tag use', reads := [r] }
  have arrived : s.beatArrives tag ⟨⟨start, count, use⟩, got⟩ request data ok = a := by
    have reads : s.path.reads.map (ProcRead.mapSources (ByteSource.arrive request got data ok)) = [r] := by
      rw [outstanding, List.map_singleton, arrive_rows]
    unfold State.beatArrives
    dsimp only
    split
    · next more =>
      have tags : use' = some ⟨⟨start, count, use⟩, got + 1⟩ := if_pos more
      exact congrArg₂ (fun l u => s.onPath fun p => { p with tags := p.tags.set tag u, reads := l }) reads tags.symm
    · next last =>
      have tags : use' = none := if_neg last
      exact congrArg₂ (fun l u => s.onPath fun p => { p with tags := p.tags.set tag u, reads := l }) reads tags.symm
  have notPacket : ∀ b ∈ r.beats, ∀ x ∈ b.bytes, (∀ slot k a serving, x ≠ .packet slot k a serving) ∧ x.address = none := by
    intro b mem x here
    rcases List.mem_cons.mp mem with rfl | mem
    · obtain ⟨j, -, rfl⟩ := List.mem_map.mp here
      cases ok <;> exact ⟨fun _ _ _ _ => nofun, rfl⟩
    · obtain ⟨i, -, rfl⟩ := List.mem_map.mp mem
      obtain ⟨j, -, rfl⟩ := List.mem_map.mp here
      exact ⟨fun _ _ _ _ => nofun, rfl⟩
  have decided : a.decideRead 0 = a := decideRead_of_settled rfl (fun _ b mem x here => (notPacket b mem x here).2) fun b mem x here => by
    cases x with
    | packet slot k a serving => exact absurd rfl ((notPacket b mem _ here).1 slot k a serving)
    | got | failed | memory | overtaken => rfl
  let bytes := (List.range 16).map fun j => (laneByte data j, ok)
  have status : bytes.all Prod.snd = ok := by cases ok <;> rfl
  have data_ : bytes.map Prod.fst = beatBytes data := List.map_map ..
  let v := a.emit (.readBeat ptag (if ok || !view got then some (beatBytes data) else none) ok)
  have returned : a.returnBeat r.tag first bytes = v := by
    rw [returnBeat_memory fun x mem => (notPacket first (List.mem_cons_self ..) x mem).1, status, data_]
  have inHand : first.bytes.mapM (ByteSource.inHand a.path.staging) = some bytes := arrived_inHand _ data ok
  have served (u : State) (once : a.serveRead 0 = u) (waits : u.PortWaits) : a.serve = u :=
    serve_settles ((serveReads_one (s := a) rfl).trans once) waits
  rw [arrived]
  by_cases more : got + 1 < count
  · have owes {x : State} : x.Owes { r with beats := rest } := memoryRows_owe (by omega)
    rw [served _ (serveRead_more rfl decided rfl inHand returned rfl voids owes)
      ⟨held, openBurst, fun x mem => List.mem_singleton.mp mem ▸ owes, voids⟩]
    have tags : use' = some ⟨⟨start, count, use⟩, got + 1⟩ := if_pos more
    rw [if_pos more, if_pos more, show count - got - 1 = n by omega, ← tags]
    rfl
  · have last : rest = [] := by
      have none : n = 0 := by omega
      simp [rest, none]
    rw [served _ (serveRead_last rfl decided rfl inHand returned rfl voids last)
      ⟨held, openBurst, fun _ mem => absurd mem List.not_mem_nil, voids⟩]
    have tags : use' = none := if_neg more
    rw [if_neg more, if_neg more, ← tags]
    rfl

end Arrives

end Sys2Proof.Machine

namespace Sys2Proof.Proofs

open Sys2Proof.Machine

/-- Settles O16, from the tag's use. -/
theorem readBeatReturned : Obligations.ReadBeatReturned := by
  intro s tag ptag beat count got request split view data ok out held openBurst voids short tagged row outstanding
  cases split with
  | true =>
    have served := beatArrives_serve (tag := tag) (start := beat) (use := .view request) (data := data) (ok := ok) held openBurst voids
      short outstanding
    obtain ⟨t, ended, ends⟩ := when_ends (b := true)
      (fun s => (s.beatArrives tag ⟨⟨beat, count, .view request⟩, got⟩ request data ok).serve) out rfl
    refine ⟨t, ?_, served ▸ ends⟩
    change execViewPrefixReadData tag data ok s = _
    unfold execViewPrefixReadData
    rw [tagged]
    exact ended
  | false =>
    have served := beatArrives_serve (tag := tag) (start := beat) (use := .pass request) (data := data) (ok := ok) held openBurst voids
      short outstanding
    obtain ⟨t, ended, ends⟩ := when_ends (b := true)
      (fun s => (s.beatArrives tag ⟨⟨beat, count, .pass request⟩, got⟩ request data ok).serve) out rfl
    refine ⟨t, ?_, served ▸ ends⟩
    change execPassThroughReadData tag data ok s = _
    unfold execPassThroughReadData
    rw [tagged]
    exact ended

end Sys2Proof.Proofs
end

section
/-! SUPPORT. A view read answered from its staging buffer (07, R137, R145). -/

namespace Sys2Proof.Machine

variable {s t : State} {tag k a : Nat} {slot : SlotRef} {b : Fin 8} {u : StagingUse} {packet : List Byte}

/-! ## Updates of the Path Unit commute with completion -/

theorem told_onPath (f : PathUnit → PathUnit) (bodies : List ReportBody) : (s.onPath f).told bodies = (s.told bodies).onPath f := by
  unfold State.told State.produceAll
  induction bodies generalizing s with
  | nil => rfl
  | cons b bodies ih => exact ih (s := s.produce b)

theorem counted_onPath (f : PathUnit → PathUnit) (source : Source) (aired : Bool) :
    (s.onPath f).counted source aired = (s.counted source aired).onPath f := by
  cases source with
  | insertion r g =>
    unfold State.counted
    dsimp only [State.onPath_splice]
    split
    · rfl
    · split
      · rfl
      · rfl
  | alert i g v =>
    unfold State.counted
    dsimp only [State.onPath_alert]
    split
    · rfl
    · split
      · rfl
      · rfl

/-- What a release does to a buffer that its owner has. -/
def Prefetch.released : Prefetch → Prefetch
  | .loading _ target => .loading none target
  | _ => .free

theorem letGo_owned {p : Fin 256} {owner : Owner} (owned : s.content.prefetch[p].owner = some owner) : s.letGo (some p) owner =
    s.onContent fun c => { c with prefetch := c.prefetch.set p s.content.prefetch[p].released } := by
  refine (if_pos owned).trans (congrArg (fun x => s.onContent fun c => { c with prefetch := c.prefetch.set p x }) ?_)
  cases s.content.prefetch[p] <;> rfl

theorem letGo_onPath (f : PathUnit → PathUnit) (named : Option (Fin 256)) (owner : Owner) :
    (s.onPath f).letGo named owner = (s.letGo named owner).onPath f := by
  cases named with
  | none => rfl
  | some p =>
    by_cases owned : s.content.prefetch[p].owner = some owner
    · rw [letGo_owned owned]
      exact letGo_owned (s := s.onPath f) owned
    · exact (if_neg owned).trans (congrArg (fun x : State => x.onPath f) (if_neg owned).symm)

theorem completed_onPath (f : PathUnit → PathUnit) (v : StagingUse) : (s.onPath f).completed v = (s.completed v).onPath f := by
  have noted (c : Bool) (g : SlotRecord → SlotRecord) : (if c = true then (s.onPath f).onSlot v.window v.slot g else s.onPath f) =
      (if c = true then s.onSlot v.window v.slot g else s).onPath f := by
    cases c <;> rfl
  unfold State.completed
  dsimp only
  have record : (s.onPath f).slotRecord v.window v.slot = s.slotRecord v.window v.slot := rfl
  rw [record, noted]
  cases v.disposition.action with
  | pass r => rfl
  | null => rfl
  | insert g =>
    dsimp only
    rw [← letGo_onPath]
    congr 1
    split
    · exact counted_onPath ..
    · exact counted_onPath ..
    · rfl

/-! ## A beat of packet bytes from one buffer -/

/-- The beat of packet bytes `k .. k + 15` of a slot, served from a buffer. -/
def servedBeat (slot : SlotRef) (k a : Nat) (b : Fin 8) : ReadBeat :=
  ⟨true, (List.range 16).map fun j => .packet slot (k + j) (a + j) (.buffer b)⟩

theorem servedBeat_inHand {staging : Vector (Option StagingUse) 8} (used : staging[b] = some u) (filled : u.packet = some packet) :
    (servedBeat slot k a b).bytes.mapM (ByteSource.inHand staging) = some ((List.range 16).map fun j => (byteAt packet (k + j), true)) := by
  have use : (Serving.buffer b).use staging = some u := used
  have all : ∀ x ∈ (servedBeat slot k a b).bytes, x.inHand staging = some (match x with
      | .packet _ m _ _ => (byteAt packet m, true)
      | _ => (0, true)) := by
    intro x mem
    obtain ⟨j, -, rfl⟩ := List.mem_map.mp mem
    simp only [ByteSource.inHand, use, filled, Option.map_some]
  rw [mapM_some all]
  exact congrArg some (List.map_map ..)

theorem servedBeat_servers : servers (servedBeat slot k a b).bytes = [b] := by
  have tied (c : Fin 8) : (servedBeat slot k a b).bytes.any (ByteSource.tied c) = decide (c = b) := by
    by_cases same : c = b
    · subst same
      rw [decide_eq_true rfl]
      exact List.any_eq_true.mpr ⟨_, List.mem_map.mpr ⟨0, by decide, rfl⟩, beq_self_eq_true _⟩
    · rw [decide_eq_false same]
      refine List.any_eq_false.mpr fun x mem => ?_
      obtain ⟨j, -, rfl⟩ := List.mem_map.mp mem
      exact fun tied => same (Serving.buffer.inj (beq_iff_eq.mp tied)).symm
  have only : ∀ b : Fin 8, (List.finRange 8).filter (fun c => decide (c = b)) = [b] := by decide
  unfold servers
  simp only [tied, only]

theorem servedBeat_completers {staging : Vector (Option StagingUse) 8} (used : staging[b] = some u) (within : k + 15 ≤ 187) :
    completers staging (servedBeat slot k a b).bytes = if k + 15 = 187 then [u] else [] := by
  have use : (Serving.buffer b).use staging = some u := used
  have one : completers staging (servedBeat slot k a b).bytes = (List.range 16).filterMap fun j => if k + j = 187 then some u else none := by
    unfold completers servedBeat
    rw [List.filterMap_map]
    refine List.filterMap_congr fun j _ => ?_
    dsimp only [Function.comp]
    split
    · next slot' a' serving same =>
      obtain ⟨-, last, -, rfl⟩ := ByteSource.packet.inj same
      rw [use, if_pos last]
    · next other => exact (if_neg fun last => other _ _ _ (by rw [last])).symm
  rw [one]
  by_cases last : k + 15 = 187
  · rw [if_pos last, List.range_succ, List.filterMap_append, List.filterMap_eq_nil_iff.mpr fun j lanes => if_neg ?_]
    · simp [last]
    · have := List.mem_range.mp lanes
      omega
  · rw [if_neg last]
    refine List.filterMap_eq_nil_iff.mpr fun j lanes => if_neg ?_
    have := List.mem_range.mp lanes
    omega

theorem touch_used (used : s.path.staging[b] = some u) : s.touch b = s.setStaging b (some { u with lastUse := s.clock }) := by
  unfold State.touch
  rw [used]

/-- The beat from a buffer goes back with its bytes, and packet byte 187 completes the slot. -/
theorem returnBeat_served (used : s.path.staging[b] = some u) (live : u.void = false) (within : k + 15 ≤ 187) :
    s.returnBeat tag (servedBeat slot k a b) ((List.range 16).map fun j => (byteAt packet (k + j), true)) =
      ((if k + 15 = 187 then (s.setStaging b (some { u with lastUse := s.clock })).completed u
        else s.setStaging b (some { u with lastUse := s.clock })).emit
        (.readBeat tag (some ((List.range 16).map fun j => byteAt packet (k + j))) true)) := by
  have ok : ((List.range 16).map fun j => (byteAt packet (k + j), true)).all Prod.snd = true := rfl
  have data : ((List.range 16).map fun j => (byteAt packet (k + j), true)).map Prod.fst =
      (List.range 16).map fun j => byteAt packet (k + j) := List.map_map ..
  unfold State.returnBeat
  dsimp only
  rw [ok, data, servedBeat_servers, servedBeat_completers used within, List.foldl_cons, List.foldl_nil, touch_used used]
  by_cases last : k + 15 = 187
  · rw [if_pos last, if_pos last]
    rw [List.foldl_cons, complete_eq live]
    rfl
  · rw [if_neg last, if_neg last]
    rfl

theorem State.NoVoids.setStaging (voids : s.NoVoids) {v : StagingUse} (live : v.void = false) : (s.setStaging b (some v)).NoVoids := by
  intro c w used
  have used : (s.path.staging.set b (some v))[c] = some w := used
  rw [set_fin] at used
  split at used
  · cases used
    exact live
  · exact voids c w used

theorem decideRead_served (operating : s.fault.part = .operating) (one : s.path.reads = [servedRead tag slot k a b]) :
    s.decideRead 0 = s := by
  refine decideRead_of_settled (r := servedRead tag slot k a b) (by rw [one]; rfl) (fun aside => ?_) fun beat mem x here => ?_
  · rw [State.aside, operating] at aside
    cases aside
  · cases List.mem_singleton.mp mem
    obtain ⟨j, -, rfl⟩ := List.mem_map.mp here
    rfl

/-- The one outstanding read is answered from its buffer, which holds the packet (R137, R145). -/
theorem serveRead_served (operating : s.fault.part = .operating) (one : s.path.reads = [servedRead tag slot k a b])
    (voids : s.NoVoids) (used : s.path.staging[b] = some u) (filled : u.packet = some packet) (within : k + 15 ≤ 187) :
    s.serveRead 0 = s.beatFrom tag k b u packet ∧ (s.beatFrom tag k b u packet).NoVoids := by
  have decided := decideRead_served operating one
  have live := voids b u used
  let touched := s.setStaging b (some { u with lastUse := s.clock })
  let v := (if k + 15 = 187 then touched.completed u else touched).emit
    (.readBeat tag (some ((List.range 16).map fun j => byteAt packet (k + j))) true)
  have path : v.path = touched.path := by
    change (if k + 15 = 187 then touched.completed u else touched).path = _
    split
    · exact completed_path u
    · rfl
  have unvoided : v.NoVoids := fun c w here => State.NoVoids.setStaging voids (v := { u with lastUse := s.clock }) live c w (path ▸ here)
  have answered : v.onPath (fun p => { p with reads := [] }) = s.beatFrom tag k b u packet := by
    unfold State.beatFrom
    dsimp only
    have cleared : (s.onPath fun p => { p with reads := [] }).setStaging b (some { u with lastUse := s.clock }) =
        touched.onPath fun p => { p with reads := [] } := rfl
    change (v.onPath fun p => { p with reads := [] }) = ((if k + 15 = 187 then State.completed ((s.onPath fun p => { p with reads := [] }).setStaging b
      (some { u with lastUse := s.clock })) u else (s.onPath fun p => { p with reads := [] }).setStaging b
      (some { u with lastUse := s.clock })).emit _)
    rw [cleared, completed_onPath]
    simp only [v]
    split <;> rfl
  have served := serveRead_last (rest := []) one decided rfl (servedBeat_inHand used filled) (returnBeat_served used live within)
    ((congrArg PathUnit.reads path).trans one) unvoided rfl
  exact ⟨served.trans answered, answered ▸ unvoided⟩

/-- What serving comes to where the one outstanding read has its packet. -/
theorem beatFrom_waits (held : s.path.held = []) (openBurst : s.path.openBurst = none)
    (unvoided : (s.beatFrom tag k b u packet).NoVoids) : (s.beatFrom tag k b u packet).PortWaits := by
  have path : (s.beatFrom tag k b u packet).path =
      ((s.onPath fun p => { p with reads := [] }).setStaging b (some { u with lastUse := s.clock })).path := by
    unfold State.beatFrom
    dsimp only [State.emit_path]
    split
    · exact completed_path u
    · rfl
  refine ⟨?_, ?_, fun r mem => ?_, unvoided⟩
  · rw [path]; exact held
  · rw [path]; exact openBurst
  · rw [path] at mem
    exact absurd mem List.not_mem_nil

end Sys2Proof.Machine
end

section
/-! SUPPORT. A view read of packet bytes of one slot (07, R135, R137): how it is accepted and its slot decided. -/

namespace Sys2Proof.Machine

variable {s t : State} {tag k a : Nat} {slot : SlotRef} {b : Fin 8} {u : StagingUse} {packet : List Byte}

/-! ## Acceptance -/

/-- The beat of packet bytes `k .. k + 15` of a slot, served in some way. -/
def slotBeat (slot : SlotRef) (k a : Nat) (serving : Serving) : ReadBeat :=
  ⟨true, (List.range 16).map fun j => .packet slot (k + j) (a + j) serving⟩

theorem slotBeat_buffer : slotBeat slot k a (.buffer b) = servedBeat slot k a b := rfl

/-- A packet byte that is wanted lies in a VIEW window. -/
theorem viewAt_of_packet {v : Vector WindowEntry 16} {x m y : Nat} (wanted : wantAt v x = .packet slot m y) :
    (viewAt v x).isSome = true ∧ m < 188 := by
  unfold wantAt at wanted
  split at wanted
  · cases wanted
  · next w z view =>
    refine ⟨by rw [view]; rfl, ?_⟩
    split at wanted
    · dsimp only at wanted
      split at wanted
      · next inPacket =>
        cases wanted
        have := inPacket.2
        unfold packetLength at this
        omega
      · cases wanted
    all_goals cases wanted

/-- One beat of packet bytes is accepted: it needs no memory read of its own. -/
theorem acceptRead_packets {p : PathUnit} {beat : Nat}
    (wanted : ∀ j < 16, wantAt p.windows (16 * beat + j) = .packet slot (k + j) (a + j)) :
    p.acceptRead tag beat (0 + 1) = { p with reads := p.reads ++ [⟨tag, [slotBeat slot k a .undecided]⟩] } := by
  have wants : readWants p.windows beat 1 = [(List.range 16).map fun j => .packet slot (k + j) (a + j)] := by
    refine congrArg (fun l => [l]) (List.map_congr_left fun j lanes => ?_)
    rw [Nat.add_zero]
    exact wanted j (List.mem_range.mp lanes)
  have packets : ((readWants p.windows beat 1).any fun b => b.any Want.isPacket) = true := by rw [wants]; rfl
  have addresses : (readWants p.windows beat 1).flatten.filterMap Want.address? = [] := by
    rw [wants]
    refine List.filterMap_eq_nil_iff.mpr fun x mem => ?_
    rw [List.flatten_singleton] at mem
    obtain ⟨j, -, rfl⟩ := List.mem_map.mp mem
    rfl
  have inView : ((List.range 16).any fun j => (viewAt p.windows (16 * (beat + 0) + j)).isSome) = true :=
    List.any_eq_true.mpr ⟨0, by decide, (viewAt_of_packet (wanted 0 (by decide))).1⟩
  have beats (source : Nat → ByteSource) : ((readWants p.windows beat 1).mapIdx fun i b =>
      ReadBeat.mk (true && (List.range 16).any fun j => (viewAt p.windows (16 * (beat + i) + j)).isSome) (b.map (Want.source source))) =
        [slotBeat slot k a .undecided] := by
    rw [wants]
    simp only [List.mapIdx_cons, List.mapIdx_nil, inView, Bool.true_and]
    refine congrArg (fun l => [ReadBeat.mk true l]) ?_
    rw [List.map_map]
    rfl
  unfold PathUnit.acceptRead PathUnit.readPieces
  dsimp only
  rw [packets, addresses, beats]
  exact congrArg (fun q => { p with passQueue := q, reads := p.reads ++ [ProcRead.mk tag [slotBeat slot k a .undecided]] })
    (List.append_nil _)

/-- The beat of a memory read of one beat. -/
def memoryBeat (request : Nat) : ReadBeat := ⟨false, (List.range 16).map fun j => .memory request j⟩

/-- A beat outside every VIEW and the beat of packet bytes behind it are accepted: the first by a memory read of its own. -/
theorem acceptRead_behind {p : PathUnit} {first : Nat} (outside : ∀ j < 16, viewAt p.windows (16 * first + j) = none)
    (wanted : ∀ j < 16, wantAt p.windows (16 * (first + 1) + j) = .packet slot (k + j) (a + j)) :
    p.acceptRead tag first (1 + 1) =
      { p with
        passQueue := p.passQueue ++ [.read ⟨first, 1, .view p.nextRequest⟩]
        nextRequest := p.nextRequest + 1
        reads := p.reads ++ [⟨tag, [memoryBeat p.nextRequest, slotBeat slot k a .undecided]⟩] } := by
  have wants : readWants p.windows first (1 + 1) = [(List.range 16).map fun j => .direct (16 * (first + 0) + j),
      (List.range 16).map fun j => .packet slot (k + j) (a + j)] := by
    refine congrArg₂ (fun x y => [x, y]) (List.map_congr_left fun j lanes => ?_) (List.map_congr_left fun j lanes => ?_)
    · exact wantAt_direct (outside j (List.mem_range.mp lanes))
    · exact wanted j (List.mem_range.mp lanes)
  have packets : ((readWants p.windows first (1 + 1)).any fun b => b.any Want.isPacket) = true := by rw [wants]; rfl
  have addresses : (readWants p.windows first (1 + 1)).flatten.filterMap Want.address? =
      ((List.range 1).map fun i => (List.range 16).map fun j => 16 * (first + i) + j).flatten := by
    rw [wants]
    rfl
  have runs : beatRuns ((readWants p.windows first (1 + 1)).flatten.filterMap Want.address?) = [(first, 1)] := by
    rw [addresses]
    exact beatRuns_rows (by decide) (by decide)
  have apart : ((List.range 16).any fun j => (viewAt p.windows (16 * (first + 0) + j)).isSome) = false :=
    List.any_eq_false.mpr fun j lanes => by
      rw [Nat.add_zero, outside j (List.mem_range.mp lanes)]
      exact Bool.false_ne_true
  have inView : ((List.range 16).any fun j => (viewAt p.windows (16 * (first + 1) + j)).isSome) = true :=
    List.any_eq_true.mpr ⟨0, by decide, (viewAt_of_packet (wanted 0 (by decide))).1⟩
  have beats : ((readWants p.windows first (1 + 1)).mapIdx fun i b =>
      ReadBeat.mk (true && (List.range 16).any fun j => (viewAt p.windows (16 * (first + i) + j)).isSome)
        (b.map (Want.source (sourceIn p.nextRequest [(first, 1)])))) =
          [memoryBeat p.nextRequest, slotBeat slot k a .undecided] := by
    rw [wants]
    simp only [List.mapIdx_cons, List.mapIdx_nil, Nat.zero_add, apart, inView, Bool.and_false, Bool.and_true]
    refine congrArg₂ (fun x y => [ReadBeat.mk false x, ReadBeat.mk true y]) ?_ (List.map_map ..)
    rw [List.map_map]
    refine List.map_congr_left fun j lanes => ?_
    have lane := List.mem_range.mp lanes
    simp only [Function.comp, Want.source, sourceIn]
    rw [if_pos (by omega)]
    congr 1
    omega
  unfold PathUnit.acceptRead PathUnit.readPieces
  dsimp only
  rw [packets, runs, beats]
  rfl

/-! ## The slot of the read is decided -/

theorem slotBeat_serve (f : Nat → Nat → ByteSource) (serving : Serving) (open_ : serving = .undecided ∨ serving = .waiting) :
    (slotBeat slot k a serving).bytes.map (ByteSource.serve slot f) = (List.range 16).map fun j => f (k + j) (a + j) := by
  rw [slotBeat, List.map_map]
  refine List.map_congr_left fun j _ => ?_
  rcases open_ with rfl | rfl
  · exact if_pos rfl
  · exact if_pos rfl

/-- A read whose one open slot is undecided has that slot decided. -/
theorem decideRead_slot {front : List ReadBeat} (operating : s.fault.part = .operating)
    (one : s.path.reads = [⟨tag, front ++ [slotBeat slot k a .undecided]⟩]) (closed : ∀ b ∈ front, ∀ x ∈ b.bytes, x.openAt = none) :
    s.decideRead 0 = s.decideSlot 0 slot false := by
  have within : s.aside = false := by rw [State.aside, operating]; rfl
  have opens : ((ProcRead.mk tag (front ++ [slotBeat slot k a .undecided])).bytes.filterMap ByteSource.openAt).dedup = [(slot, false)] := by
    have frontNone : (front.flatMap ReadBeat.bytes).filterMap ByteSource.openAt = [] :=
      List.filterMap_eq_nil_iff.mpr fun x mem => by
        obtain ⟨b, inFront, here⟩ := List.mem_flatMap.mp mem
        exact closed b inFront x here
    have last : (slotBeat slot k a .undecided).bytes.filterMap ByteSource.openAt = List.replicate 16 (slot, false) := rfl
    unfold ProcRead.bytes
    rw [List.flatMap_append, List.filterMap_append, frontNone, List.nil_append, List.flatMap_singleton, last]
    exact List.replicate_dedup (by decide)
  unfold State.decideRead
  rw [one]
  dsimp only [List.getElem?_cons_zero]
  rw [within, if_neg Bool.false_ne_true, opens]
  rfl

theorem tie_slot {front : List ReadBeat} (one : s.path.reads = [⟨tag, front ++ [slotBeat slot k a .undecided]⟩])
    (fixed : ∀ b ∈ front, ∀ x ∈ b.bytes, ∀ f, ByteSource.serve slot f x = x) (serving : Serving) :
    s.tie 0 slot serving = s.onPath fun p => { p with reads := [⟨tag, front ++ [slotBeat slot k a serving]⟩] } := by
  let f : Nat → Nat → ByteSource := fun k a => .packet slot k a serving
  have reads : s.path.reads.modify 0 (fun r => r.mapSources (ByteSource.serve slot f)) = [⟨tag, front ++ [slotBeat slot k a serving]⟩] := by
    rw [one]
    refine congrArg (fun l => [ProcRead.mk tag l]) ?_
    rw [List.map_append]
    refine congrArg₂ (· ++ ·) ?_ ?_
    · refine (List.map_congr_left fun b mem => ?_).trans (List.map_id _)
      exact congrArg (fun l => { b with bytes := l }) ((List.map_congr_left fun x here => fixed b mem x here f).trans (List.map_id _))
    · exact congrArg (fun l => [ReadBeat.mk true l]) (slotBeat_serve f .undecided (.inl rfl))
  exact congrArg (fun l => s.onPath fun p => { p with reads := l }) reads

theorem mem_stagingFor {v : Vector (Option StagingUse) 8} {w : Fin 16} {n : Nat} {g : Generation} :
    b ∈ stagingFor v w n g ↔ ∃ u, v[b] = some u ∧ u.window = w ∧ u.slot = n ∧ u.generation = g := by
  unfold stagingFor
  rw [List.mem_filter]
  cases used : v[b] with
  | none => simp
  | some u => simp [List.mem_finRange, and_assoc]

/-- A slot that one buffer is built for has its bytes served from that buffer. -/
theorem decideSlot_served {i : Nat} (operating : s.fault.part = .operating)
    (used : s.path.staging[b] = some u) (window : u.window = slot.window) (number : u.slot = slot.slot)
    (generation : u.generation = (s.slotRecord slot.window slot.slot).generation)
    (only : ∀ b' : Fin 8, ∀ u', s.path.staging[b'] = some u' → u'.window = slot.window → u'.slot = slot.slot →
      u'.generation = (s.slotRecord slot.window slot.slot).generation → b' = b) :
    s.decideSlot i slot false = s.tie i slot (.buffer b) := by
  have within : s.aside = false := by rw [State.aside, operating]; rfl
  unfold State.decideSlot
  rw [within, if_neg Bool.false_ne_true]
  have mine : b ∈ stagingFor s.path.staging slot.window slot.slot (s.slotRecord slot.window slot.slot).generation :=
    mem_stagingFor.mpr ⟨u, used, window, number, generation⟩
  dsimp only
  split
  · next b' rest found =>
    obtain ⟨u', used', window', number', generation'⟩ := mem_stagingFor.mp (found ▸ List.mem_cons_self ..)
    rw [only b' u' used' window' number' generation']
  · next none => rw [none] at mine; cases mine

/-- A read that is decided is served as it then stands. -/
theorem serveRead_decided (decides : s.decideRead 0 = t) (settled : t.decideRead 0 = t) : s.serveRead 0 = t.serveRead 0 := by
  unfold State.serveRead
  rw [decides, settled]

end Sys2Proof.Machine

namespace Sys2Proof.Proofs

open Sys2Proof.Machine

/-- Settles O17: the slot is tied to its buffer; the beat alone is answered from it, and behind a pass-through beat it waits. -/
theorem viewReadFromHeldBuffer : Obligations.ViewReadFromHeldBuffer := by
  intro s tag beat w slot base k a b u packet out quiet operating wanted used held filled window number generation only
  have within : k + 15 ≤ 187 := by
    have last := (viewAt_of_packet (wanted 15 (by decide))).2
    omega
  refine ⟨fun c named => ?alone, fun first before outside c named => ?behind⟩
  case alone =>
    let asked := s.onPath fun p => { p with reads := [⟨tag, [slotBeat ⟨w, slot, base⟩ k a .undecided]⟩] }
    let tied := s.onPath fun p => { p with reads := [servedRead tag ⟨w, slot, base⟩ k a b] }
    have accepted : (s.onPath fun p => p.acceptRead tag beat.toNat ((0 : Fin 16).val + 1)) = asked := by
      have path := acceptRead_packets (tag := tag) wanted
      rw [quiet.reads] at path
      exact congrArg (fun p => { s with path := p }) path
    have decides : asked.decideRead 0 = tied :=
      (decideRead_slot (s := asked) (front := []) operating rfl fun _ mem => absurd mem List.not_mem_nil).trans
        ((decideSlot_served (s := asked) (slot := ⟨w, slot, base⟩) operating used window number generation only).trans
          (tie_slot (s := asked) (front := []) rfl (fun _ mem => absurd mem List.not_mem_nil) _))
    obtain ⟨served, unvoided⟩ := serveRead_served (s := tied) (packet := packet) operating rfl quiet.voids used filled within
    have once : asked.serveRead 0 = s.beatFrom tag k b u packet :=
      (serveRead_decided decides (decideRead_served operating rfl)).trans served
    have waits : (s.beatFrom tag k b u packet).PortWaits := beatFrom_waits quiet.held quiet.openBurst unvoided
    refine read_ends (more := 0) named.symm out quiet ?_ accepted (.of_waits ((serveReads_one rfl).trans once) waits)
    have := beat.isLt
    exact this
  case behind =>
    let reading := s.onPath fun p =>
      { p with
        passQueue := p.passQueue ++ [.read ⟨first.toNat, 1, .view p.nextRequest⟩]
        nextRequest := p.nextRequest + 1 }
    let asked := reading.onPath fun p =>
      { p with reads := [⟨tag, [memoryBeat s.path.nextRequest] ++ [slotBeat ⟨w, slot, base⟩ k a .undecided]⟩] }
    let tied := reading.onPath fun p =>
      { p with reads := [⟨tag, [memoryBeat s.path.nextRequest] ++ [slotBeat ⟨w, slot, base⟩ k a (.buffer b)]⟩] }
    have accepted : (s.onPath fun p => p.acceptRead tag first.toNat ((1 : Fin 16).val + 1)) = asked := by
      have path := acceptRead_behind (tag := tag) outside (before ▸ wanted)
      rw [quiet.reads] at path
      exact congrArg (fun p => { s with path := p }) path
    have fixed : ∀ b ∈ [memoryBeat s.path.nextRequest], ∀ x ∈ b.bytes, x.openAt = none ∧ ∀ f, ByteSource.serve ⟨w, slot, base⟩ f x = x := by
      intro b mem x here
      cases List.mem_singleton.mp mem
      obtain ⟨j, -, rfl⟩ := List.mem_map.mp here
      exact ⟨rfl, fun _ => rfl⟩
    have decides : asked.decideRead 0 = tied :=
      (decideRead_slot (s := asked) operating rfl fun b mem x here => (fixed b mem x here).1).trans
        ((decideSlot_served (s := asked) (slot := ⟨w, slot, base⟩) operating used window number generation only).trans
          (tie_slot (s := asked) rfl (fun b mem x here => (fixed b mem x here).2) _))
    have waits (n : Nat) : State.returnBeats (n + 1) tied 0 = tied :=
      returnBeats_awaited rfl rfl (x := .memory s.path.nextRequest 0) (List.mem_map.mpr ⟨0, by decide, rfl⟩) rfl
    have once : asked.serveRead 0 = tied := by
      unfold State.serveRead
      rw [decides]
      exact (congrArg State.dropVoids (waits _)).trans (dropVoids_of_no_voids (s := tied) quiet.voids)
    have idle : tied.acceptNext = none := by
      have held : tied.path.held = [] := quiet.held
      have openBurst : tied.path.openBurst = none := quiet.openBurst
      unfold State.acceptNext
      rw [openBurst, held]
    refine read_ends (more := 1) named.symm out quiet ?_ accepted
      ⟨(serveReads_one rfl).trans once, idle, fun less => absurd less (Nat.lt_irrefl _)⟩
    have := beat.isLt
    change first.toNat + 1 + 1 ≤ 2 ^ 36
    omega

end Sys2Proof.Proofs
end

section
/-! SUPPORT. Errors of severity CONTAIN (10, R180 to R182), and the buffer that a view read is given (07, R137). -/

namespace Sys2Proof.Machine

variable {s t : State} {tag k a : Nat} {slot : SlotRef} {b : Fin 8} {u : StagingUse} {packet : List Byte}

/-! ## An error report of severity CONTAIN -/

section Contained

variable {e : ErrorKind} (contain : s.fault.policy[errorNumber e].severity = .contain) (other : e ≠ .configError)

include contain other

/-- An error of severity CONTAIN is captured and recorded, and does nothing else. -/
theorem raise_contained (index address : Nat) (head : Option (List Byte)) : s.raise e index address head =
    let c := s.fault.captureError e ⟨e, index, s.clock, address, head⟩
    let captured := s.onFault fun u => { u with capture := c.1 }
    if s.fault.policy[errorNumber e].masked then captured
    else captured.handError ⟨e, index, address, head, .contain, .none, c.2, c.1, 0⟩ := by
  have acts : s.fault.acts e = false := by
    unfold FaultUnit.acts
    rw [contain]
    exact beq_eq_false_iff_ne.mpr other
  have effect : s.fault.effect e = .none := by
    unfold FaultUnit.effect
    rw [acts]
    rfl
  unfold State.raise
  dsimp only
  rw [acts, effect, contain]
  rfl

end Contained

theorem handError_fault (e : ErrorReport) : (s.handError e).fault = s.fault := by
  unfold State.handError
  dsimp only
  split <;> rfl

theorem handError_onPath (e : ErrorReport) (f : PathUnit → PathUnit) : (s.onPath f).handError e = (s.handError e).onPath f := by
  unfold State.handError
  dsimp only [State.onPath_report]
  split <;> rfl

theorem handError_onContent (e : ErrorReport) (f : ContentUnit → ContentUnit) :
    (s.onContent f).handError e = (s.handError e).onContent f := by
  unfold State.handError
  dsimp only [State.onContent_report]
  split <;> rfl

section Contained

variable {e : ErrorKind} (contain : s.fault.policy[errorNumber e].severity = .contain) (other : e ≠ .configError)
  (index address : Nat) (head : Option (List Byte))

include contain other

theorem raise_contained_part : (s.raise e index address head).fault.part = s.fault.part := by
  rw [raise_contained contain other]
  dsimp only
  split
  · rfl
  · rw [handError_fault]
    rfl

theorem raise_contained_path : (s.raise e index address head).path = s.path := by
  rw [raise_contained contain other]
  dsimp only
  split
  · rfl
  · rw [handError_path]
    rfl

theorem raise_onPath (f : PathUnit → PathUnit) : (s.onPath f).raise e index address head = (s.raise e index address head).onPath f := by
  rw [raise_contained contain other, raise_contained (s := s.onPath f) contain other]
  dsimp only
  by_cases masked : s.fault.policy[errorNumber e].masked = true
  · rw [if_pos masked]
    exact if_pos masked
  · rw [if_neg masked]
    exact (if_neg masked).trans (handError_onPath (s := s.onFault fun u => { u with
      capture := (s.fault.captureError e ⟨e, index, s.clock, address, head⟩).1 }) _ f)

theorem raise_onContent (f : ContentUnit → ContentUnit) :
    (s.onContent f).raise e index address head = (s.raise e index address head).onContent f := by
  rw [raise_contained contain other, raise_contained (s := s.onContent f) contain other]
  dsimp only
  by_cases masked : s.fault.policy[errorNumber e].masked = true
  · rw [if_pos masked]
    exact if_pos masked
  · rw [if_neg masked]
    exact (if_neg masked).trans (handError_onContent (s := s.onFault fun u => { u with
      capture := (s.fault.captureError e ⟨e, index, s.clock, address, head⟩).1 }) _ f)

end Contained

/-! ## The buffer that a claim takes (R137) -/

theorem lowest_some {α : Type} {n : Nat} {v : Vector α n} {test : α → Bool} {i : Fin n} (passes : test v[i] = true)
    (below : ∀ j < i, test v[j] = false) : lowest v test = some i := by
  obtain ⟨front, back, split⟩ := List.append_of_mem (List.mem_finRange i)
  have sorted := List.pairwise_lt_finRange n
  rw [split] at sorted
  have inFront : ∀ j ∈ front, j < i := fun j mem => (List.pairwise_append.mp sorted).2.2 j mem i (List.mem_cons_self ..)
  unfold lowest
  rw [split, List.find?_append, List.find?_eq_none.mpr fun j mem => by rw [below j (inFront j mem)]; exact Bool.false_ne_true]
  exact List.find?_cons_of_pos (p := fun i => test v[i]) passes

theorem lowest_none {α : Type} {n : Nat} {v : Vector α n} {test : α → Bool} (fails : ∀ i : Fin n, test v[i] = false) :
    lowest v test = none :=
  List.find?_eq_none.mpr fun i _ => by rw [fails i]; exact Bool.false_ne_true

theorem oldestHeld_none {v : Vector (Option StagingUse) 8} {now : StationTime}
    (unheld : ∀ b : Fin 8, ∃ u, v[b] = some u ∧ u.held = false) : oldestHeld v now = none := by
  unfold oldestHeld
  rw [foldl_of_fixed fun b _ => ?_]
  · rfl
  · obtain ⟨u, used, held⟩ := unheld b
    rw [used]
    dsimp only
    rw [held]
    rfl

/-- How long ago a buffer was used last. -/
def StagingUse.age (u : StagingUse) (now : StationTime) : Nat := (now - u.lastUse).toNat

/-- The step of `oldestHeld`: a HELD buffer used longer ago than the best one found takes its place. -/
def olderHeld (v : Vector (Option StagingUse) 8) (now : StationTime) (best : Option (Fin 8 × Nat)) (b : Fin 8) : Option (Fin 8 × Nat) :=
  match v[b] with
  | some u =>
    if u.held then
      match best with
      | some (_, x) => if x < u.age now then some (b, u.age now) else best
      | none => some (b, u.age now)
    else best
  | none => best

theorem oldestHeld_eq (v : Vector (Option StagingUse) 8) (now : StationTime) :
    oldestHeld v now = ((List.finRange 8).foldl (olderHeld v now) none).map Prod.fst := rfl

/-- The HELD buffer used longest ago, the lowest-numbered among equals. -/
theorem oldestHeld_some {v : Vector (Option StagingUse) 8} {now : StationTime} (used : v[b] = some u) (held : u.held = true)
    (older : ∀ (b' : Fin 8) u', v[b'] = some u' → u'.held = true →
      u'.age now < u.age now ∨ (u'.age now = u.age now ∧ b ≤ b')) : oldestHeld v now = some b := by
  obtain ⟨front, back, split⟩ := List.append_of_mem (List.mem_finRange b)
  have sorted := List.pairwise_lt_finRange 8
  rw [split] at sorted
  obtain ⟨-, sortedBack, apart⟩ := List.pairwise_append.mp sorted
  have inFront : ∀ j ∈ front, j < b := fun j mem => apart j mem b (List.mem_cons_self ..)
  have inBack : ∀ j ∈ back, b < j := fun j mem => (List.pairwise_cons.mp sortedBack).1 j mem
  have younger (l : List (Fin 8)) (below : ∀ j ∈ l, j < b) (best : Option (Fin 8 × Nat)) (less : ∀ x ∈ best, x.2 < u.age now) :
      ∀ x ∈ l.foldl (olderHeld v now) best, x.2 < u.age now := by
    induction l generalizing best with
    | nil => exact less
    | cons j l ih =>
      refine ih (fun i mem => below i (List.mem_cons_of_mem _ mem)) _ fun x here => ?_
      have before : ∀ u', v[j] = some u' → u'.held = true → u'.age now < u.age now := fun u' used' held' =>
        (older j u' used' held').resolve_right fun same => absurd (below j (List.mem_cons_self ..)) (not_lt.mpr same.2)
      unfold olderHeld at here
      split at here
      · next u' used' =>
        split at here
        · next held' =>
          split at here
          · split at here
            · cases here
              exact before u' used' held'
            · exact less x here
          · cases here
            exact before u' used' held'
        · exact less x here
      · exact less x here
  have stays : ∀ j ∈ back, olderHeld v now (some (b, u.age now)) j = some (b, u.age now) := by
    intro j mem
    unfold olderHeld
    split
    · next u' used' =>
      split
      · next held' =>
        refine if_neg fun more => ?_
        rcases older j u' used' held' with less | same
        · exact Nat.lt_asymm less more
        · exact absurd more (same.1 ▸ Nat.lt_irrefl _)
      · rfl
    · rfl
  have taken : olderHeld v now (front.foldl (olderHeld v now) none) b = some (b, u.age now) := by
    have less := younger front inFront none nofun
    unfold olderHeld at less ⊢
    rw [used]
    dsimp only
    rw [if_pos held]
    split
    · next best => exact if_pos (less _ best)
    · rfl
  rw [oldestHeld_eq, split, List.foldl_append, List.foldl_cons, taken, foldl_of_fixed stays]
  rfl

theorem claimable_of_takes (takes : s.ClaimTakes b) : s.claimable = some b := by
  unfold State.claimable
  rcases takes with ⟨free, below⟩ | ⟨full, u, used, held, older⟩
  · rw [lowest_some (i := b) (by rw [free]; rfl) fun j lt => by
      obtain ⟨u, used⟩ := Option.ne_none_iff_exists'.mp (below j lt)
      rw [used]
      rfl]
  · rw [lowest_none fun i => by
      obtain ⟨u, used⟩ := Option.ne_none_iff_exists'.mp (full i)
      rw [used]
      rfl]
    exact oldestHeld_some used held older

theorem claimable_none (busy : ∀ b : Fin 8, ∃ u, s.path.staging[b] = some u ∧ u.held = false) : s.claimable = none := by
  unfold State.claimable
  rw [lowest_none fun i => by
    obtain ⟨u, used, -⟩ := busy i
    rw [used]
    rfl]
  exact oldestHeld_none busy

theorem given_first : s.given 0 = s.claimable := by
  unfold State.given
  rw [List.take_zero]
  exact if_neg Bool.false_ne_true

end Sys2Proof.Machine
end

section
/-! SUPPORT. A view read of a slot that no buffer serves (07, R137 to R141). -/

namespace Sys2Proof.Machine

variable {s x : State} {tag k a w : Nat} {slot : SlotRef} {b : Fin 8} {u v : StagingUse} {packet : List Byte} {beat : BeatAddr}

/-! ## A one-beat view read at a port at rest -/

/-- One view read of a beat of packet bytes is outstanding, its slot served in some way. -/
def State.viewing (s : State) (tag : Nat) (slot : SlotRef) (k a : Nat) (serving : Serving) : State :=
  s.onPath fun p => { p with reads := [⟨tag, [slotBeat slot k a serving]⟩] }

/-- A one-beat view read ends as its slot's decision and the port's service leave it. -/
theorem viewRead_ends {y : State} (out : s.resetHeld = false) (quiet : s.PortQuiet)
    (wanted : ∀ j < 16, wantAt s.path.windows (16 * beat.toNat + j) = .packet slot (k + j) (a + j))
    (settles : (s.viewing tag slot k a .undecided).Settles y) :
    ∃ t, exec (.viewRead tag beat 0) s = .next t ∧ y.EndsAs t := by
  have accepted : (s.onPath fun p => p.acceptRead tag beat.toNat ((0 : Fin 16).val + 1)) = s.viewing tag slot k a .undecided := by
    have path := acceptRead_packets (tag := tag) wanted
    rw [quiet.reads] at path
    exact congrArg (fun p => { s with path := p }) path
  exact read_ends (more := 0) (.inr rfl) out quiet beat.isLt accepted settles

theorem viewing_decide (operating : s.fault.part = .operating) :
    (s.viewing tag slot k a .undecided).decideRead 0 = (s.viewing tag slot k a .undecided).decideSlot 0 slot false :=
  decideRead_slot (s := s.viewing tag slot k a .undecided) (front := []) operating rfl fun _ mem => absurd mem List.not_mem_nil

theorem viewing_tie (serving : Serving) :
    (s.viewing tag slot k a .undecided).tie 0 slot serving = s.viewing tag slot k a serving :=
  tie_slot (s := s.viewing tag slot k a .undecided) (front := []) rfl (fun _ mem => absurd mem List.not_mem_nil) serving

theorem stagingFor_none {staging : Vector (Option StagingUse) 8} {w : Fin 16} {n : Nat} {g : Generation}
    (unserved : ∀ b : Fin 8, ∀ u, staging[b] = some u → ¬ (u.window = w ∧ u.slot = n ∧ u.generation = g)) :
    stagingFor staging w n g = [] :=
  List.eq_nil_iff_forall_not_mem.mpr fun b mem => by
    obtain ⟨u, used, same⟩ := mem_stagingFor.mp mem
    exact unserved b u used same

section Unserved

variable (operating : s.fault.part = .operating)
  (unserved : ∀ b : Fin 8, ∀ u, s.path.staging[b] = some u →
    ¬ (u.window = slot.window ∧ u.slot = slot.slot ∧ u.generation = (s.slotRecord slot.window slot.slot).generation))

include operating unserved

/-- A slot that was never taken, or is filling, is overtaken. -/
theorem decideSlot_overtaken {i : Nat} (unclaimed : (s.slotRecord slot.window slot.slot).claims = none) :
    s.decideSlot i slot false = s.overtake i slot := by
  have within : s.aside = false := by rw [State.aside, operating]; rfl
  unfold State.decideSlot
  rw [within, if_neg Bool.false_ne_true]
  dsimp only
  rw [stagingFor_none unserved, unclaimed]
  cases s.given i <;> rfl

/-- A slot that was taken waits while no buffer can be claimed. -/
theorem decideSlot_waits {i : Nat} {d : Disposition} (claims : (s.slotRecord slot.window slot.slot).claims = some d)
    (none : s.given i = none) : s.decideSlot i slot false = s.tie i slot .waiting := by
  have within : s.aside = false := by rw [State.aside, operating]; rfl
  unfold State.decideSlot
  rw [within, if_neg Bool.false_ne_true]
  dsimp only
  rw [stagingFor_none unserved, claims, none]

/-- A slot that was taken has a buffer claimed for it. -/
theorem decideSlot_claims {i : Nat} {d : Disposition} (claims : (s.slotRecord slot.window slot.slot).claims = some d)
    (given : s.given i = some b) : s.decideSlot i slot false =
      (s.claim b slot.window slot.slot (s.slotRecord slot.window slot.slot).generation d).tie i slot (.buffer b) := by
  have within : s.aside = false := by rw [State.aside, operating]; rfl
  unfold State.decideSlot
  rw [within, if_neg Bool.false_ne_true]
  dsimp only
  rw [stagingFor_none unserved, claims, given]

end Unserved

theorem claims_none {r : SlotRecord} (open_ : r.state = .rest .empty ∨ ∃ prior, r.state = .filling prior) : r.claims = none := by
  unfold SlotRecord.claims
  rcases open_ with e | ⟨prior, e⟩ <;> rw [e]

theorem claims_some {r : SlotRecord} (taken : r.state = .rest .taken ∨ r.state = .rest .played) : r.claims = r.disposition := by
  unfold SlotRecord.claims
  rcases taken with e | e <;> rw [e]

/-! ## An overtake (R138) -/

theorem onPath_reads_of_none (idle : s.path.reads = []) : (s.onPath fun p => { p with reads := [] }) = s := by
  have same := congrArg (fun l => { s with path := { s.path with reads := l } }) idle.symm
  exact same

/-- The read of an overtaken slot is answered with the null packet's bytes. -/
theorem serveRead_overtaken (operating : s.fault.part = .operating) (quiet : s.PortQuiet)
    (contain : s.fault.policy[errorNumber .playoutOvertake].severity = .contain)
    (decides : (s.viewing tag slot k a .undecided).decideSlot 0 slot false = (s.viewing tag slot k a .undecided).overtake 0 slot) :
    (s.viewing tag slot k a .undecided).Settles ((s.raise .playoutOvertake slot.window.val slot.base none).emit
      (.readBeat tag (some ((List.range 16).map fun j => byteAt nullPacket (k + j))) true)) := by
  let nulls : ReadBeat := ⟨true, (List.range 16).map fun j => .overtaken (k + j) (a + j)⟩
  let r : ProcRead := ⟨tag, [nulls]⟩
  let raised := s.raise .playoutOvertake slot.window.val slot.base none
  let t := raised.onPath fun p => { p with reads := [r] }
  have overtaken : (s.viewing tag slot k a .undecided).overtake 0 slot = t := by
    have tied : ((s.viewing tag slot k a .undecided).onRead 0 fun r => r.mapSources (ByteSource.serve slot .overtaken)) =
        s.onPath fun p => { p with reads := [r] } := by
      have bytes := slotBeat_serve (slot := slot) (k := k) (a := a) ByteSource.overtaken .undecided (.inl rfl)
      exact congrArg (fun l => s.onPath fun p => { p with reads := [⟨tag, [⟨true, l⟩]⟩] }) bytes
    unfold State.overtake
    rw [tied]
    exact raise_onPath contain (by decide) ..
  have path : raised.path = s.path := raise_contained_path contain (by decide) ..
  have part : t.fault.part = .operating := (raise_contained_part contain (by decide) ..).trans operating
  have settled : t.decideRead 0 = t := by
    refine decideRead_of_settled (r := r) rfl (fun aside => ?_) fun b mem x here => ?_
    · rw [State.aside, part] at aside
      cases aside
    · cases List.mem_singleton.mp mem
      obtain ⟨j, -, rfl⟩ := List.mem_map.mp here
      rfl
  let bytes := (List.range 16).map fun j => (byteAt nullPacket (k + j), true)
  have inHand : nulls.bytes.mapM (ByteSource.inHand t.path.staging) = some bytes := by
    rw [mapM_some (g := fun x => match x with
      | .overtaken m _ => (byteAt nullPacket m, true)
      | _ => (0, true)) fun x mem => by obtain ⟨j, -, rfl⟩ := List.mem_map.mp mem; rfl]
    exact congrArg some (List.map_map ..)
  let answer : PortEvent := .readBeat tag (some ((List.range 16).map fun j => byteAt nullPacket (k + j))) true
  have returned : t.returnBeat tag nulls bytes = t.emit answer := by
    have status : bytes.all Prod.snd = true := rfl
    have data : bytes.map Prod.fst = (List.range 16).map fun j => byteAt nullPacket (k + j) := List.map_map ..
    rw [returnBeat_memory fun x mem => by obtain ⟨j, -, rfl⟩ := List.mem_map.mp mem; exact fun _ _ _ _ => nofun, status, data]
    rfl
  have voids : (t.emit answer).NoVoids := fun c w used => quiet.voids c w (by
    have used : raised.path.staging[c] = some w := used
    rwa [path] at used)
  have idle : (raised.emit answer).path.reads = [] := by
    change raised.path.reads = []
    rw [path]
    exact quiet.reads
  have served : t.serveRead 0 = raised.emit answer :=
    (serveRead_last (r := r) (rest := []) rfl settled rfl inHand returned rfl voids rfl).trans (onPath_reads_of_none idle)
  have once : (s.viewing tag slot k a .undecided).serveRead 0 = raised.emit answer :=
    (serveRead_decided ((viewing_decide operating).trans (decides.trans overtaken)) settled).trans served
  refine .of_waits ((serveReads_one rfl).trans once) ⟨?_, ?_, fun r mem => absurd (idle ▸ mem) List.not_mem_nil, voids⟩
  · change raised.path.held = []
    rw [path]
    exact quiet.held
  · change raised.path.openBurst = none
    rw [path]
    exact quiet.openBurst

/-! ## The read waits for a buffer (R137) -/

/-- A read that waits for a buffer waits. -/
theorem settles_waiting (quiet : s.PortQuiet) (operating : s.fault.part = .operating)
    (decides : (s.viewing tag slot k a .undecided).decideSlot 0 slot false = s.viewing tag slot k a .waiting) :
    (s.viewing tag slot k a .undecided).Settles (s.viewing tag slot k a .waiting) := by
  have waits (n : Nat) : State.returnBeats (n + 1) (s.viewing tag slot k a .waiting) 0 = s.viewing tag slot k a .waiting :=
    returnBeats_awaited rfl rfl (x := .packet slot (k + 0) (a + 0) .waiting) (List.mem_map.mpr ⟨0, by decide, rfl⟩) rfl
  have once : (s.viewing tag slot k a .undecided).serveRead 0 = s.viewing tag slot k a .waiting := by
    unfold State.serveRead
    rw [viewing_decide operating, decides]
    exact (congrArg State.dropVoids (waits _)).trans (dropVoids_of_no_voids (s := s.viewing tag slot k a .waiting) quiet.voids)
  have idle : (s.viewing tag slot k a .waiting).acceptNext = none := by
    have held : (s.viewing tag slot k a .waiting).path.held = [] := quiet.held
    have openBurst : (s.viewing tag slot k a .waiting).path.openBurst = none := quiet.openBurst
    unfold State.acceptNext
    rw [openBurst, held]
  exact ⟨(serveReads_one rfl).trans once, idle, fun less => absurd less (Nat.lt_irrefl _)⟩

/-! ## A buffer is claimed (R137, R139 to R141) -/

/-- The buffer as a claim at `s` leaves it, before its assembly (R136, R137). -/
def State.claimedUse (s : State) (slot : SlotRef) (d : Disposition) : StagingUse :=
  { window := slot.window, slot := slot.slot, generation := (s.slotRecord slot.window slot.slot).generation, disposition := d, held := false
    void := false, outcome := .none, packet := none, deadline := none, wait := .nothing, lastUse := s.clock, claim := s.path.nextClaim }

/-- The read that had the buffer claimed, the buffer in hand. -/
def State.claiming (s : State) (tag : Nat) (slot : SlotRef) (k a : Nat) (b : Fin 8) (u : StagingUse) : State :=
  (s.viewing tag slot k a .undecided).setStaging b (some u)

/-- A claim at a read that is not decided yet begins the assembly of the buffer. -/
theorem claim_viewing (d : Disposition) : (s.viewing tag slot k a .undecided).claim b slot.window slot.slot
    (s.slotRecord slot.window slot.slot).generation d =
      State.assemble ((s.onPath fun p => { p with nextClaim := p.nextClaim + 1 }).claiming tag slot k a b (s.claimedUse slot d)) b
        (s.claimedUse slot d) := by
  have reclaimed : (s.viewing tag slot k a .undecided).reclaim b = s.viewing tag slot k a .undecided := by
    unfold State.reclaim
    split
    · next v used =>
      have fixed : ProcRead.mapSources (ByteSource.reserve b (.reclaimed v)) ⟨tag, [slotBeat slot k a .undecided]⟩ =
          ⟨tag, [slotBeat slot k a .undecided]⟩ := ProcRead.mapSources_of_fixed fun beat mem x here => by
        cases List.mem_singleton.mp mem
        obtain ⟨j, -, rfl⟩ := List.mem_map.mp here
        rfl
      exact congrArg (fun r => s.onPath fun p => { p with reads := [r] }) fixed
    · rfl
  unfold State.claim
  dsimp only
  rw [reclaimed]
  rfl

theorem claiming_tie (serving : Serving) :
    (s.claiming tag slot k a b u).tie 0 slot serving = (s.viewing tag slot k a serving).setStaging b (some u) :=
  tie_slot (s := s.claiming tag slot k a b u) (front := []) rfl (fun _ mem => absurd mem List.not_mem_nil) serving

theorem setStaging_setStaging (v w : Option StagingUse) : (s.setStaging b v).setStaging b w = s.setStaging b w := by
  unfold State.setStaging State.onPath
  simp

theorem claiming_again {y : State} (same : y = x.claiming tag slot k a b u) : y.setStaging b (some v) = x.claiming tag slot k a b v := by
  subst same
  exact setStaging_setStaging ..

theorem setStaging_at (v : Option StagingUse) : (s.setStaging b v).path.staging[b] = v := by
  simp [State.setStaging]

section Claimed

variable (held : x.path.held = []) (openBurst : x.path.openBurst = none) (voids : x.NoVoids) (operating : x.fault.part = .operating)
  (live : u.void = false)
  (decides : (s.viewing tag slot k a .undecided).decideRead 0 = (x.claiming tag slot k a b u).tie 0 slot (.buffer b))

include held openBurst voids operating live decides

/-- A claimed buffer that has its packet answers the read. -/
theorem settles_answered (filled : u.packet = some packet) (within : k + 15 ≤ 187) :
    (s.viewing tag slot k a .undecided).Settles (x.beatFrom tag k b u packet) := by
  let tied := (x.viewing tag slot k a (.buffer b)).setStaging b (some u)
  have decides : (s.viewing tag slot k a .undecided).decideRead 0 = tied := decides.trans (claiming_tie _)
  obtain ⟨served, unvoided⟩ := serveRead_served (s := tied) (packet := packet) operating rfl
    (State.NoVoids.setStaging (s := x.viewing tag slot k a (.buffer b)) voids live) (setStaging_at _) filled within
  have answered : tied.beatFrom tag k b u packet = x.beatFrom tag k b u packet := by
    have same : (tied.onPath fun p => { p with reads := [] }).setStaging b (some { u with lastUse := x.clock }) =
        (x.onPath fun p => { p with reads := [] }).setStaging b (some { u with lastUse := x.clock }) :=
      setStaging_setStaging (s := x.onPath fun p => { p with reads := [] }) ..
    exact congrArg (fun y : State => (if k + 15 = 187 then y.completed u else y).emit
      (.readBeat tag (some ((List.range 16).map fun j => byteAt packet (k + j))) true)) same
  rw [answered] at served unvoided
  have once := (serveRead_decided decides (decideRead_served (s := tied) operating rfl)).trans served
  exact .of_waits ((serveReads_one rfl).trans once) (beatFrom_waits held openBurst unvoided)

/-- A read whose claimed buffer has no packet yet waits on it. -/
theorem settles_assembling (unfilled : u.packet = none) : (s.viewing tag slot k a .undecided).Settles
    ((x.onPath fun p => { p with reads := [servedRead tag slot k a b] }).setStaging b (some u)) := by
  let tied := (x.viewing tag slot k a (.buffer b)).setStaging b (some u)
  have decides : (s.viewing tag slot k a .undecided).decideRead 0 = tied := decides.trans (claiming_tie _)
  have owes : tied.Owes (servedRead tag slot k a b) := by
    refine ⟨slotBeat slot k a (.buffer b), [], rfl, by simp [slotBeat], fun beat mem y here => ?_⟩
    cases List.mem_singleton.mp mem
    obtain ⟨j, -, rfl⟩ := List.mem_map.mp here
    exact ⟨operating, u, setStaging_at _, unfilled⟩
  have unvoided : tied.NoVoids := State.NoVoids.setStaging (s := x.viewing tag slot k a (.buffer b)) voids live
  have waits : tied.PortWaits := ⟨held, openBurst, fun r mem => List.mem_singleton.mp mem ▸ owes, unvoided⟩
  have once : (s.viewing tag slot k a .undecided).serveRead 0 = tied :=
    (serveRead_decided decides (decideRead_of_owes rfl owes)).trans (serveRead_of_owes rfl owes unvoided)
  exact .of_waits ((serveReads_one rfl).trans once) waits

end Claimed

/-! ## Assembly (R139 to R141) -/

section Assembly

variable (used : s.path.staging[b] = some u)

include used

theorem completeStaging_used (outcome : PlayOutcome) :
    s.completeStaging b packet outcome = s.setStaging b (some (u.complete packet outcome)) := by
  unfold State.completeStaging
  rw [used]

theorem setWait_used (w : StagingWait) : s.setWait b w = s.setStaging b (some { u with wait := w }) := by
  unfold State.setWait
  rw [used]

theorem armFetch_used : s.armFetch b = s.setStaging b (some { u with deadline := some (after s.clock s.fetchTicks) }) := by
  unfold State.armFetch
  rw [used]

/-- The wait of a buffer begins under the fetch deadline (R141). -/
theorem setWait_armFetch (w : StagingWait) : (s.setWait b w).armFetch b =
    s.setStaging b (some { u with wait := w, deadline := some (after s.clock s.fetchTicks) }) := by
  rw [setWait_used used, armFetch_used (setStaging_at _), setStaging_setStaging]
  rfl

/-- The wait of an INSERT buffer ends with the rewritten content packet, or the null packet where its source is gone (R141). -/
theorem finishInsert_some {f : Insert} (action : u.disposition.action = .insert f) (p : List Byte) : s.finishInsert b (some p) =
    (s.setStaging b (some (u.complete (if s.sourceCurrent f.source then insertPacketBytes p f.rewrite f.offset else nullPacket)
      (if s.sourceCurrent f.source then .aired else .none)))).letGoDemand b u.wait := by
  unfold State.finishInsert
  rw [used]
  dsimp only
  rw [action]
  dsimp only
  rw [completeStaging_used used, completeStaging_used used]
  split <;> rfl

/-- It ends without a content packet: with the null packet (R142). -/
theorem finishInsert_none {f : Insert} (action : u.disposition.action = .insert f) : s.finishInsert b none =
    (s.setStaging b (some (u.complete nullPacket (if s.sourceCurrent f.source then .lost else .none)))).letGoDemand b u.wait := by
  unfold State.finishInsert
  rw [used]
  dsimp only
  rw [action]
  dsimp only
  rw [completeStaging_used used, completeStaging_used used]
  split <;> rfl

end Assembly

theorem usablePrefetch_unusable {f : Option (Fin 256)} {owner : Owner}
    (other : ∀ p, f = some p → s.content.prefetch[p].owner ≠ some owner) : s.usablePrefetch f owner = .unusable := by
  cases f with
  | none => rfl
  | some p => exact if_neg (other p rfl)

theorem usablePrefetch_ready {p : Fin 256} {owner : Owner} {target : FetchTarget}
    (entry : s.content.prefetch[p] = .ready owner target packet) : s.usablePrefetch (some p) owner = .ready packet := by
  refine (if_pos (by rw [entry]; rfl)).trans ?_
  rw [entry]

theorem usablePrefetch_failed {p : Fin 256} {owner : Owner} {target : FetchTarget}
    (entry : s.content.prefetch[p] = .failed owner target) : s.usablePrefetch (some p) owner = .failed := by
  refine (if_pos (by rw [entry]; rfl)).trans ?_
  rw [entry]

theorem usablePrefetch_loading {p : Fin 256} {owner : Owner} {target : FetchTarget}
    (entry : s.content.prefetch[p] = .loading (some owner) target) : s.usablePrefetch (some p) owner = .loading p := by
  refine (if_pos (by rw [entry]; rfl)).trans ?_
  rw [entry]

section Start

variable (used : s.path.staging[b] = some u)

include used

theorem assemble_null (action : u.disposition.action = .null) :
    s.assemble b u = s.setStaging b (some (u.complete nullPacket .none)) := by
  unfold State.assemble
  rw [action]
  exact completeStaging_used used _

theorem assemble_pass {r : Option Rewrite} (action : u.disposition.action = .pass r) : s.assemble b u =
    (s.onPath fun p => { p with passQueue := p.passQueue ++
      [.read (beatsHolding (slotPacketAddress s.path.windows[u.window] u.slot) packetLength (.staging b u.claim))] }).setStaging b
        (some { u with wait := .ringSlot }) := by
  unfold State.assemble
  rw [action]
  exact setWait_used (s := s.onPath _) used _

variable {f : Insert} (action : u.disposition.action = .insert f)

include action

theorem assemble_gone (gone : s.sourceCurrent f.source = false) :
    s.assemble b u = s.setStaging b (some (u.complete nullPacket .none)) := by
  unfold State.assemble
  rw [action]
  dsimp only
  rw [gone]
  exact completeStaging_used used _

variable (current : s.sourceCurrent f.source = true)

include current

theorem assemble_ready {p : Fin 256} {target : FetchTarget} {content : List Byte} (fresh : u.wait = .nothing) (named : f.prefetch = some p)
    (entry : s.content.prefetch[p] = .ready u.owner target content) :
    s.assemble b u = s.setStaging b (some (u.complete (insertPacketBytes content f.rewrite f.offset) .aired)) := by
  unfold State.assemble
  rw [action]
  dsimp only
  rw [current, if_pos rfl]
  unfold State.obtain
  rw [named]
  rw [show s.usablePrefetch (some p) ⟨u.window, u.slot, u.generation⟩ = .ready content from usablePrefetch_ready entry]
  dsimp only
  rw [finishInsert_some used action, current, fresh]
  rfl

theorem assemble_failed {p : Fin 256} {target : FetchTarget} (fresh : u.wait = .nothing) (named : f.prefetch = some p)
    (entry : s.content.prefetch[p] = .failed u.owner target) :
    s.assemble b u = s.setStaging b (some (u.complete nullPacket .lost)) := by
  unfold State.assemble
  rw [action]
  dsimp only
  rw [current, if_pos rfl]
  unfold State.obtain
  rw [named]
  rw [show s.usablePrefetch (some p) ⟨u.window, u.slot, u.generation⟩ = .failed from usablePrefetch_failed entry]
  dsimp only
  rw [finishInsert_none used action, current, fresh]
  rfl

theorem assemble_loading {p : Fin 256} {target : FetchTarget} (named : f.prefetch = some p)
    (entry : s.content.prefetch[p] = .loading (some u.owner) target) :
    s.assemble b u = s.setStaging b (some { u with wait := .prefetch p, deadline := some (after s.clock s.fetchTicks) }) := by
  unfold State.assemble
  rw [action]
  dsimp only
  rw [current, if_pos rfl]
  unfold State.obtain
  rw [named]
  rw [show s.usablePrefetch (some p) ⟨u.window, u.slot, u.generation⟩ = .loading p from usablePrefetch_loading entry]
  exact setWait_armFetch used _

variable (unusable : ∀ p, f.prefetch = some p → s.content.prefetch[p].owner ≠ some u.owner)

include unusable

theorem assemble_demand {q : Fin 4} (free : s.content.demand[q] = .free) (lowest_ : ∀ q' : Fin 4, q' < q → s.content.demand[q'] ≠ .free) :
    s.assemble b u = ((s.onContent fun c => { c with demand := c.demand.set q (.loading (some b) (s.insertTarget f)) }).onPath fun p =>
      { p with demandQueue := p.demandQueue ++ [beatsHolding (s.insertTarget f).address packetLength (.demand q)] }).setStaging b
        (some { u with wait := .demand q, deadline := some (after s.clock s.fetchTicks) }) := by
  have found : lowest s.content.demand (· == .free) = some q :=
    lowest_some (beq_iff_eq.mpr free) fun j lt => beq_eq_false_iff_ne.mpr (lowest_ j lt)
  unfold State.assemble
  rw [action]
  dsimp only
  rw [current, if_pos rfl]
  unfold State.obtain
  rw [show s.usablePrefetch f.prefetch ⟨u.window, u.slot, u.generation⟩ = .unusable from usablePrefetch_unusable unusable]
  dsimp only
  unfold State.requestDemand
  rw [found]
  dsimp only
  unfold State.giveDemand
  refine (setWait_armFetch ?_ _).trans rfl
  exact used

theorem assemble_listed (full : ∀ q : Fin 4, s.content.demand[q] ≠ .free) :
    s.assemble b u = (s.onContent fun c => { c with demandWait := c.demandWait ++ [(b, s.insertTarget f)] }).setStaging b
      (some { u with wait := .demandListed, deadline := some (after s.clock s.fetchTicks) }) := by
  have none : lowest s.content.demand (· == .free) = none := lowest_none fun j => beq_eq_false_iff_ne.mpr (full j)
  unfold State.assemble
  rw [action]
  dsimp only
  rw [current, if_pos rfl]
  unfold State.obtain
  rw [show s.usablePrefetch f.prefetch ⟨u.window, u.slot, u.generation⟩ = .unusable from usablePrefetch_unusable unusable]
  dsimp only
  unfold State.requestDemand
  rw [none]
  refine (setWait_armFetch ?_ _).trans rfl
  exact used

end Start

end Sys2Proof.Machine

namespace Sys2Proof.Proofs

open Sys2Proof.Machine

/-- Settles O18: the overtake, the wait for a buffer, and the claim by the disposition's action. -/
theorem viewReadOvertakes : Obligations.ViewReadOvertakes := by
  refine ⟨fun s tag beat w slot base k a out quiet operating contain wanted open_ unserved => ?overtaken,
    fun s tag beat w slot base k a d out quiet operating wanted taken disposition busy => ?waits,
    fun s tag beat w slot base k a d b out quiet operating wanted taken disposition unserved takes => ?claims⟩
  case overtaken =>
    exact viewRead_ends (slot := ⟨w, slot, base⟩) out quiet wanted (serveRead_overtaken operating quiet contain
      (decideSlot_overtaken (s := s.viewing tag ⟨w, slot, base⟩ k a .undecided) (slot := ⟨w, slot, base⟩) operating unserved (claims_none open_)))
  case waits =>
    have unserved : ∀ b : Fin 8, ∀ u, s.path.staging[b] = some u →
        ¬ (u.window = w ∧ u.slot = slot ∧ u.generation = (s.slotRecord w slot).generation) := fun b u used => by
      obtain ⟨u', used', -, other⟩ := busy b
      cases used.symm.trans used'
      exact other
    have none : (s.viewing tag ⟨w, slot, base⟩ k a .undecided).given 0 = none :=
      given_first.trans (claimable_none fun b => let ⟨u, used, held, _⟩ := busy b; ⟨u, used, held⟩)
    exact viewRead_ends (slot := ⟨w, slot, base⟩) out quiet wanted (settles_waiting quiet operating
      ((decideSlot_waits (s := s.viewing tag ⟨w, slot, base⟩ k a .undecided) (slot := ⟨w, slot, base⟩) operating unserved
        ((claims_some taken).trans disposition) none).trans (viewing_tie _)))
  case claims =>
    intro owner u armed claimed answered waits
    have within : k + 15 ≤ 187 := by
      have last := (viewAt_of_packet (wanted 15 (by decide))).2
      omega
    have given : (s.viewing tag ⟨w, slot, base⟩ k a .undecided).given 0 = some b :=
      given_first.trans (claimable_of_takes (s := s.viewing tag ⟨w, slot, base⟩ k a .undecided) takes)
    let c := claimed.claiming tag ⟨w, slot, base⟩ k a b u
    have decides : (s.viewing tag ⟨w, slot, base⟩ k a .undecided).decideRead 0 = (c.assemble b u).tie 0 ⟨w, slot, base⟩ (.buffer b) :=
      (viewing_decide operating).trans ((decideSlot_claims (s := s.viewing tag ⟨w, slot, base⟩ k a .undecided) (slot := ⟨w, slot, base⟩) operating unserved
        ((claims_some taken).trans disposition) given).trans
          (congrArg (fun x => x.tie 0 ⟨w, slot, base⟩ (.buffer b)) (claim_viewing d)))
    have used : c.path.staging[b] = some u := setStaging_at _
    have answers (packet : List Byte) (outcome : PlayOutcome)
        (assembled : c.assemble b u = c.setStaging b (some (u.complete packet outcome))) : answered packet outcome := by
      have built : c.assemble b u = claimed.claiming tag ⟨w, slot, base⟩ k a b (u.complete packet outcome) :=
        assembled.trans (setStaging_setStaging ..)
      rw [built] at decides
      exact viewRead_ends (slot := ⟨w, slot, base⟩) out quiet wanted (settles_answered (x := claimed) quiet.held quiet.openBurst quiet.voids
        operating rfl decides rfl within)
    have waiting (x : State) (v : StagingUse) (held : x.path.held = []) (openBurst : x.path.openBurst = none) (voids : x.NoVoids)
        (part : x.fault.part = .operating) (live : v.void = false) (unfilled : v.packet = none)
        (built : c.assemble b u = x.claiming tag ⟨w, slot, base⟩ k a b v) : waits x v := by
      rw [built] at decides
      exact viewRead_ends (slot := ⟨w, slot, base⟩) out quiet wanted (settles_assembling held openBurst voids part live decides unfilled)
    refine ⟨fun null => answers _ _ (assemble_null used null), fun r pass => ?pass, fun f insert => ⟨fun gone => ?gone, fun current => ?current⟩⟩
    case pass =>
      exact waiting _ _ quiet.held quiet.openBurst quiet.voids operating rfl rfl
        ((assemble_pass used pass).trans (claiming_again (u := u) rfl))
    case gone => exact answers _ _ (assemble_gone used insert gone)
    case current =>
      refine ⟨fun p target packet named entry => answers _ _ (assemble_ready used insert current rfl named entry),
        fun p target named entry => answers _ _ (assemble_failed used insert current rfl named entry),
        fun p target named entry => waiting _ _ quiet.held quiet.openBurst quiet.voids operating rfl rfl
          ((assemble_loading used insert current named entry).trans (claiming_again (u := u) rfl)),
        fun unusable => ⟨fun q free lowest_ => waiting _ _ quiet.held quiet.openBurst quiet.voids operating rfl rfl
          ((assemble_demand used insert current unusable free lowest_).trans (claiming_again (u := u) rfl)),
          fun full => waiting _ _ quiet.held quiet.openBurst quiet.voids operating rfl rfl
          ((assemble_listed used insert current unusable full).trans (claiming_again (u := u) rfl))⟩⟩

end Sys2Proof.Proofs
end

section
/-! SUPPORT. Data and answers that come from memory: header reads (05, R94), report writes (09, R170 to R173), and the grant of the
memory-side arbiter (08, R159 to R162). -/

namespace Sys2Proof.Machine

variable {s t : State} {tag : Fin 32}

/-! ## Header reads (R94) -/

/-- The header fields that a header read takes from packet bytes 0..5. -/
theorem headerOf_eq (b : List Byte) : headerOf b = ⟨packetPid b, hasPayload b, packetCC b,
    hasAdaptation b && decide (7 ≤ (byteAt b 4).toNat) && (byteAt b 5).getLsbD 4⟩ := by
  refine congrArg (Header.mk _ _ _) ?_
  unfold clockFlag adaptationFlag adaptationLength
  cases hasAdaptation b with
  | false => rfl
  | true =>
    by_cases long : 7 ≤ (byteAt b 4).toNat
    · have present : 1 ≤ (byteAt b 4).toNat := Nat.le_trans (by decide) long
      simp [long, present]
    · simp [long]

/-! ## Report writes (R170, R171, R173) -/

section Report

variable {w : ReportWrite} {ring : ReportRing}

theorem reportAnswered_stale (is : s.report.ring = some ring) (stale : ring.outstanding ≠ some w.serial) (ok : Bool) :
    s.reportAnswered w ok = s := by
  unfold State.reportAnswered
  rw [is]
  exact if_neg stale

variable (is : s.report.ring = some ring) (outstanding : ring.outstanding = some w.serial)

include is outstanding

theorem reportAnswered_record {dropped : Nat} (kind : w.kind = .record dropped) :
    s.reportAnswered w true = s.onReport fun u => u.recordWritten ring dropped := by
  unfold State.reportAnswered
  rw [is]
  refine (if_pos outstanding).trans ?_
  rw [kind]

theorem reportAnswered_header (kind : w.kind = .header) :
    s.reportAnswered w true = s.onReport fun u => { u with ring := some { ring with outstanding := none } } := by
  unfold State.reportAnswered
  rw [is]
  refine (if_pos outstanding).trans ?_
  rw [kind]

theorem reportAnswered_failed : s.reportAnswered w false =
    (s.onReport fun u => u.writeFailed ring (w.kind == .header)).raise .reportWriteFail 0 w.address none := by
  unfold State.reportAnswered
  rw [is]
  refine (if_pos outstanding).trans ?_
  cases w.kind <;> rfl

end Report

/-! ## The grant (R159, R160, R162) -/

/-- A port that waits goes on waiting while what it holds, its reads, the staging buffers and the part state stay. -/
theorem State.PortWaits.congr (waits : s.PortWaits) (held : t.path.held = s.path.held) (openBurst : t.path.openBurst = s.path.openBurst)
    (reads : t.path.reads = s.path.reads) (staging : t.path.staging = s.path.staging) (part : t.fault.part = s.fault.part) :
    t.PortWaits := by
  refine ⟨held.trans waits.held, openBurst.trans waits.openBurst, fun r mem => ?_, staging ▸ waits.voids⟩
  obtain ⟨beat, rest, beats, nonempty, awaits⟩ := waits.reads r (reads ▸ mem)
  refine ⟨beat, rest, beats, nonempty, fun b inRead x here => ?_⟩
  have came := awaits b inRead x here
  unfold State.Awaits at came ⊢
  rw [part, staging]
  exact came

/-- The part of the state that a waiting port turns on. -/
structure State.SamePort (s t : State) : Prop where
  held : t.path.held = s.path.held
  openBurst : t.path.openBurst = s.path.openBurst
  reads : t.path.reads = s.path.reads
  staging : t.path.staging = s.path.staging
  part : t.fault.part = s.fault.part

theorem State.SamePort.waits (same : s.SamePort t) (waits : s.PortWaits) : t.PortWaits :=
  waits.congr same.held same.openBurst same.reads same.staging same.part

theorem wrapApply_samePort (s : State) : s.SamePort s.wrapApply := by
  unfold State.wrapApply
  split
  · exact ⟨rfl, rfl, rfl, rfl, rfl⟩
  · exact ⟨rfl, rfl, rfl, rfl, rfl⟩

/-- A grant that leaves the port waiting is all that its command does. -/
theorem arbiterGrant_ends {granted : State} (out : s.resetHeld = false) (grants : s.grant tag = some granted) (waits : granted.PortWaits) :
    ∃ t, exec (.arbiterGrant tag) s = .next t ∧ granted.EndsAs t := by
  obtain ⟨t, ended, ends⟩ := when_ends (fun _ => granted.serve) out rfl
  refine ⟨t, ?_, serve_of_waits waits ▸ ends⟩
  change execArbiterGrant tag s = _
  unfold execArbiterGrant
  rw [grants]
  exact ended

theorem tagFree_of_free (free : s.path.tags[tag] = none) : s.tagFree = true := by
  unfold State.tagFree
  exact List.any_eq_true.mpr ⟨none, free ▸ Vector.mem_toList_iff.mpr (Vector.getElem_mem tag.isLt), rfl⟩

theorem demandWaiting_of_empty (idle : s.path.demandQueue = []) : s.demandWaiting = false := by
  unfold State.demandWaiting
  rw [idle]
  rfl

/-- The look from the pointer on finds the first phase whose requester waits. -/
theorem grantedPhase_first {g : Fin 16} (waits : s.waiting (requesterOf s.path.activeTable[g]) = true)
    (before : ∀ i : Fin 16, i.val < (g - s.path.phase).val →
      s.waiting (requesterOf s.path.activeTable[s.path.phase + i]) = false) : s.grantedPhase = some g := by
  have at_ : s.path.phase + (g - s.path.phase) = g := by rw [add_comm, sub_add_cancel]
  obtain ⟨front, back, split⟩ := List.append_of_mem (List.mem_finRange (g - s.path.phase))
  have sorted := List.pairwise_lt_finRange 16
  rw [split] at sorted
  have inFront : ∀ j ∈ front, j < g - s.path.phase := fun j mem =>
    (List.pairwise_append.mp sorted).2.2 j mem _ (List.mem_cons_self ..)
  unfold State.grantedPhase
  rw [split, List.map_append, List.map_cons, at_, List.find?_append, List.find?_eq_none.mpr, Option.none_or]
  · exact List.find?_cons_of_pos (p := fun g => s.waiting (requesterOf s.path.activeTable[g])) waits
  · intro p mem
    obtain ⟨j, here, rfl⟩ := List.mem_map.mp mem
    rw [before j (inFront j here)]
    exact Bool.false_ne_true

theorem wraps_iff {c g : Fin 16} : wraps c g = true ↔ g.val = 15 ∨ g < c := by
  unfold wraps
  rw [Bool.or_eq_true, beq_iff_eq, decide_eq_true_iff]

/-- With no demand fetch waiting, the first waiting phase's request is issued, and the pointer moves one past it. -/
theorem grant_phase {g : Fin 16} (idle : s.path.demandQueue = []) (found : s.grantedPhase = some g)
    (free : s.takesTag (requesterOf s.path.activeTable[g]) = true → s.path.tags[tag] = none) :
    s.grant tag = some (if wraps s.path.phase g then
      ((s.issueFor (requesterOf s.path.activeTable[g]) tag).onPath fun p => { p with phase := g + 1 }).wrapApply
      else (s.issueFor (requesterOf s.path.activeTable[g]) tag).onPath fun p => { p with phase := g + 1 }) := by
  unfold State.grant
  dsimp only
  rw [demandWaiting_of_empty idle, found]
  refine (if_neg Bool.false_ne_true).trans (if_neg fun taken => ?_)
  obtain ⟨takes, used⟩ := Bool.and_eq_true_iff.mp taken
  rw [free takes] at used
  exact Bool.false_ne_true used

end Sys2Proof.Machine

namespace Sys2Proof.Proofs

open Sys2Proof.Machine

/-- Settles O22: the read's tag names the entry, which is settled by the data. -/
theorem headerSettles : Obligations.HeaderSettles := by
  intro s tag beat got serial address service beats out issued b state settle
  obtain ⟨t, ended, ends⟩ := onPort_ends (b := true) (fun s => (s.freeTag tag).headerArrives service serial address beats) out rfl
    (beq_self_eq_true beats.length)
  refine ⟨t, ?_, ?_⟩
  · change execHeaderReadData tag beats s = _
    unfold execHeaderReadData
    rw [issued]
    exact ended
  · have made : (if beats.all MemBeat.ok then HeaderState.ready (headerOf (bytesOfBeats address 6 beats)) else .failed) = state := by
      rw [headerOf_eq]
    have same : (s.freeTag tag).headerArrives service serial address beats =
        (s.freeTag tag).onFields service fun f =>
          { f with
            runQueue := f.runQueue.map (settleHeader serial state)
            standbyQueue := f.standbyQueue.map (settleHeader serial state) } := by
      unfold State.headerArrives
      rw [made]
    exact same ▸ ends

/-- Settles O24: the answered write leaves those in flight, and counts where it is the ring's outstanding one. -/
theorem reportWriteAnswered : Obligations.ReportWriteAnswered := by
  refine ⟨fun s i w dropped ring out issued kind is => ?record, fun s i w ring out issued kind is => ?header⟩
  case record =>
    intro taken
    have answers (ok : Bool) (x : State) (answered : taken.reportAnswered w ok = x) :
        ∃ t, exec (.reportRecordWriteResponse i ok) s = .next t ∧ x.EndsAs t := by
      obtain ⟨t, ended, ends⟩ := when_ends (b := w.kind != .header) (fun s => (s.takeIssued i).reportAnswered w ok) out
        (by rw [kind]; rfl)
      refine ⟨t, ?_, answered ▸ ends⟩
      change execReportRecordWriteResponse i ok s = _
      unfold execReportRecordWriteResponse
      rw [issued]
      exact ended
    have ringIs : taken.report.ring = some ring := is
    refine ⟨fun head rest outstanding queue => answers true _ ?written, fun outstanding => answers false _ ?failed,
      fun stale ok => answers ok _ (reportAnswered_stale ringIs stale ok)⟩
    case written =>
      have written : (taken.report.recordWritten ring dropped) =
          { taken.report with
            queue := rest
            reservation := if head.body.isAsRun then s.report.reservation - 1 else s.report.reservation
            dropped := if head.body.isAsRun then s.report.dropped else s.report.dropped - dropped
            ring := some ⟨ring.produced + 1, ring.consumed, true, none⟩ } := by
        unfold ReportUnit.recordWritten
        rw [show taken.report.queue = head :: rest from queue]
        rfl
      rw [reportAnswered_record ringIs outstanding kind]
      exact congrArg (fun u => { taken with report := u }) written
    case failed =>
      rw [reportAnswered_failed ringIs outstanding, kind]
      unfold ReportUnit.writeFailed
      rw [show ((WriteKind.record dropped == .header) = false) from rfl, Bool.or_false]
  case header =>
    intro taken
    have answers (ok : Bool) (x : State) (answered : taken.reportAnswered w ok = x) :
        ∃ t, exec (.reportHeaderWriteResponse i ok) s = .next t ∧ x.EndsAs t := by
      obtain ⟨t, ended, ends⟩ := when_ends (b := w.kind == .header) (fun s => (s.takeIssued i).reportAnswered w ok) out
        (by rw [kind]; rfl)
      refine ⟨t, ?_, answered ▸ ends⟩
      change execReportHeaderWriteResponse i ok s = _
      unfold execReportHeaderWriteResponse
      rw [issued]
      exact ended
    have ringIs : taken.report.ring = some ring := is
    refine ⟨fun outstanding => ⟨answers true _ (reportAnswered_header ringIs outstanding kind), answers false _ ?_⟩,
      fun stale ok => answers ok _ (reportAnswered_stale ringIs stale ok)⟩
    rw [reportAnswered_failed ringIs outstanding, kind]
    unfold ReportUnit.writeFailed
    rw [show ((WriteKind.header == .header) = true) from rfl, Bool.or_true]

/-- Settles O25: a demand fetch first, else the phase found by the look; the port waits on in either case. -/
theorem arbiterGrants : Obligations.ArbiterGrants := by
  refine ⟨fun s tag q rest out waits demand free => ?demand, fun s tag g out waits idle ready before => ?phase⟩
  case demand =>
    have waiting : s.demandWaiting = true := by
      unfold State.demandWaiting
      rw [demand, tagFree_of_free free]
      rfl
    refine arbiterGrant_ends out ?_ (waits.congr rfl rfl rfl rfl rfl)
    unfold State.grant
    dsimp only
    rw [waiting, demand, free]
    rfl
  case phase =>
    intro moved wrapped
    have found := grantedPhase_first ready before
    have wraps_eq (x : State) (cue : x.cue = s.cue) :
        (if wraps s.path.phase g then x.wrapApply else x) = wrapped x := by
      have pending : x.cue.pendingApply = s.cue.pendingApply := congrArg CueUnit.pendingApply cue
      unfold State.wrapApply
      rw [pending]
      change _ = match s.cue.pendingApply with
        | some ref => _
        | none => x
      cases s.cue.pendingApply with
      | none => exact ite_self _
      | some ref => exact if_congr wraps_iff rfl rfl
    have grants (x : State) (issue : s.issueFor (requesterOf s.path.activeTable[g]) tag = x) (cue : x.cue = s.cue)
        (port : s.SamePort x) (free : s.takesTag (requesterOf s.path.activeTable[g]) = true → s.path.tags[tag] = none) :
        ∃ t, exec (.arbiterGrant tag) s = .next t ∧ (wrapped (moved x)).EndsAs t := by
      have ends := grant_phase idle found free
      rw [issue] at ends
      refine arbiterGrant_ends out (ends.trans (congrArg some (wraps_eq (moved x) cue))) ?_
      have portMoved : s.SamePort (moved x) := ⟨port.held, port.openBurst, port.reads, port.staging, port.part⟩
      rw [← wraps_eq (moved x) cue]
      split
      · exact (wrapApply_samePort _).waits (portMoved.waits waits)
      · exact portMoved.waits waits
    refine ⟨fun q rest pass queue free => ?read, fun r rest pass queue => ?write, fun q rest fetch queue free => ?fetch,
      fun u d scan is defined more free => ?scan, fun w rest report queue => ?report⟩
    case read =>
      refine grants _ ?_ rfl ⟨rfl, rfl, rfl, rfl, rfl⟩ fun _ => free
      rw [pass]
      change s.issuePass tag = _
      unfold State.issuePass
      rw [queue]
      rfl
    case write =>
      refine grants _ ?_ rfl ⟨rfl, rfl, rfl, rfl, rfl⟩ fun takes => ?_
      · rw [pass]
        change s.issuePass tag = _
        unfold State.issuePass
        rw [queue]
      · rw [pass] at takes
        unfold State.takesTag at takes
        rw [queue] at takes
        exact absurd takes Bool.false_ne_true
    case fetch =>
      refine grants _ ?_ rfl ⟨rfl, rfl, rfl, rfl, rfl⟩ fun _ => free
      rw [fetch]
      unfold State.issueFor
      dsimp only
      rw [queue]
      rfl
    case scan =>
      intro q
      have read : s.scanRead = some (u, q) := by
        unfold State.scanRead
        rw [is]
        dsimp only
        rw [defined]
        exact if_pos more
      refine grants _ ?_ rfl ⟨rfl, rfl, rfl, rfl, rfl⟩ fun _ => free
      rw [scan]
      unfold State.issueFor
      dsimp only
      rw [read]
      rfl
    case report =>
      refine grants _ ?_ rfl ⟨rfl, rfl, rfl, rfl, rfl⟩ fun takes => ?_
      · rw [report]
        unfold State.issueFor
        dsimp only
        rw [queue]
      · rw [report] at takes
        exact absurd takes Bool.false_ne_true

end Sys2Proof.Proofs
end

section
/-! SUPPORT. The end of a staging buffer's wait (07, R140 to R142) and the settling of a prefetch buffer (04, R86). -/

namespace Sys2Proof.Machine

variable {s t x : State} {tag : Fin 32} {ptag k a : Nat} {slot : SlotRef} {b : Fin 8} {u : StagingUse} {packet : List Byte}

/-! ## What an error report of severity CONTAIN leaves alone -/

theorem handError_rest (e : ErrorReport) : s.handError e = { s with report := (s.handError e).report } := by
  unfold State.handError
  dsimp only
  split <;> rfl

/-- An error of severity CONTAIN moves the Fault Unit and the Report Unit alone. -/
theorem raise_contained_rest {e : ErrorKind} (contain : s.fault.policy[errorNumber e].severity = .contain) (other : e ≠ .configError)
    (index address : Nat) (head : Option (List Byte)) : s.raise e index address head =
      { s with report := (s.raise e index address head).report, fault := (s.raise e index address head).fault } := by
  rw [raise_contained contain other]
  dsimp only
  split
  · rfl
  · rw [handError_rest]
    rfl

theorem raise_contained_samePort {e : ErrorKind} (contain : s.fault.policy[errorNumber e].severity = .contain) (other : e ≠ .configError)
    (index address : Nat) (head : Option (List Byte)) : s.SamePort (s.raise e index address head) := by
  have path := raise_contained_path contain other index address head
  exact ⟨congrArg PathUnit.held path, congrArg PathUnit.openBurst path, congrArg PathUnit.reads path, congrArg PathUnit.staging path,
    raise_contained_part contain other ..⟩

theorem State.SamePort.trans (first : s.SamePort t) (second : t.SamePort x) : s.SamePort x :=
  ⟨second.held.trans first.held, second.openBurst.trans first.openBurst, second.reads.trans first.reads,
    second.staging.trans first.staging, second.part.trans first.part⟩

/-! ## The buffer that is told of a fetch (R141; DEDUCED, log 52) -/

/-- The buffer waits on that fetch for its owner. -/
def StagingUse.Hears (u : StagingUse) (w : StagingWait) (owner : Option Owner) : Prop := u.wait = w ∧ ∀ o, owner = some o → o = u.owner

theorem hears_iff {w : StagingWait} {owner : Option Owner} :
    (u.wait == w && owner.all fun o => o == u.owner) = true ↔ u.Hears w owner := by
  unfold StagingUse.Hears
  cases owner <;> simp

section Told

variable {w : StagingWait} {owner : Option Owner} {told : Option (List Byte)}

theorem tellStaging_unheard (unheard : ∀ c : Fin 8, ∀ v, s.path.staging[c] = some v → ¬ v.Hears w owner) :
    s.tellStaging w owner told = s := by
  unfold State.tellStaging
  rw [List.find?_eq_none.mpr fun c _ => ?_]
  split
  · next v used => exact fun hears => unheard c v used (hears_iff.mp hears)
  · exact Bool.false_ne_true

/-- The one buffer that waits on the fetch is told. -/
theorem tellStaging_heard (used : s.path.staging[b] = some u) (hears : u.Hears w owner)
    (only : ∀ c : Fin 8, ∀ v, s.path.staging[c] = some v → v.Hears w owner → c = b) :
    s.tellStaging w owner told = s.finishInsert b told := by
  unfold State.tellStaging
  split
  · next c found =>
    have passes := List.find?_some found
    split at passes
    · next v here => rw [only c v here (hears_iff.mp passes)]
    · exact absurd passes Bool.false_ne_true
  · next found =>
    have fails := List.find?_eq_none.mp found b (List.mem_finRange b)
    rw [used] at fails
    exact absurd (hears_iff.mpr hears) fails

end Told

/-! ## Letting go of a demand fetch (R89) -/

theorem serveDemandWait_idle (idle : s.content.demandWait = []) : s.serveDemandWait = s := by
  unfold State.serveDemandWait
  rw [idle]
  cases lowest s.content.demand (· == .free) with
  | none => rfl
  | some d => rfl

theorem letGoDemand_last (idle : s.content.demandWait = []) (d : Fin 4) :
    s.letGoDemand b (.demand d) = s.onContent fun c => { c with demand := modifyAt c.demand d Demand.letGo } :=
  serveDemandWait_idle (s := s.onContent fun c => { c with demand := modifyAt c.demand d Demand.letGo }) idle

/-- A demand buffer that has settled is FREE once it is let go. -/
theorem letGoDemand_settled {d : Fin 4} {v : Demand} (settled : v.letGo = .free) (idle : s.content.demandWait = []) :
    ((s.onContent fun c => { c with demand := c.demand.set d v }).letGoDemand b (.demand d)) =
      s.onContent fun c => { c with demand := c.demand.set d .free } := by
  have same : modifyAt (s.content.demand.set d v) d Demand.letGo = s.content.demand.set d .free := by
    unfold modifyAt
    simp [settled]
  refine (letGoDemand_last (s := s.onContent fun c => { c with demand := c.demand.set d v }) idle d).trans ?_
  exact congrArg (fun v => s.onContent fun c => { c with demand := v }) same

/-- Letting go of a demand fetch and the change of a staging buffer commute. -/
theorem letGoDemand_setStaging (idle : s.content.demandWait = []) (d : Fin 4) (v : Option StagingUse) :
    (s.setStaging b v).letGoDemand b (.demand d) = (s.letGoDemand b (.demand d)).setStaging b v := by
  rw [letGoDemand_last idle]
  exact letGoDemand_last (s := s.setStaging b v) idle d

/-! ## The one outstanding read is answered (R137, R140) -/

section Reading

variable (operating : s.fault.part = .operating) (serves : s.PortServes [servedRead ptag slot k a b]) (same : s.SamePort x)

include operating serves same

/-- A buffer whose packet has come answers the read that waits on it. -/
theorem serve_filled (live : u.void = false) (filled : u.packet = some packet) (within : k + 15 ≤ 187) :
    (x.setStaging b (some u)).serve = x.beatFrom ptag k b u packet := by
  have one : (x.setStaging b (some u)).path.reads = [servedRead ptag slot k a b] := same.reads.trans serves.reads
  have voids : x.NoVoids := fun c v used => serves.voids c v (same.staging ▸ used)
  obtain ⟨served, unvoided⟩ := serveRead_served (s := x.setStaging b (some u)) (packet := packet) (same.part.trans operating) one
    (State.NoVoids.setStaging voids live) (setStaging_at _) filled within
  have answered : (x.setStaging b (some u)).beatFrom ptag k b u packet = x.beatFrom ptag k b u packet := by
    have again : ((x.setStaging b (some u)).onPath fun p => { p with reads := [] }).setStaging b (some { u with lastUse := x.clock }) =
        (x.onPath fun p => { p with reads := [] }).setStaging b (some { u with lastUse := x.clock }) :=
      setStaging_setStaging (s := x.onPath fun p => { p with reads := [] }) ..
    exact congrArg (fun y : State => (if k + 15 = 187 then y.completed u else y).emit
      (.readBeat ptag (some ((List.range 16).map fun j => byteAt packet (k + j))) true)) again
  rw [answered] at served unvoided
  exact serve_settles ((serveReads_one one).trans served)
    (beatFrom_waits (same.held.trans serves.held) (same.openBurst.trans serves.openBurst) unvoided)

omit operating in
/-- Ring-slot data that came with an error free the buffer, and its read's beat comes back in error. -/
theorem serve_failed : ((x.setStaging b none).mapSources (ByteSource.failOf b)).serve =
    (((x.onPath fun p => { p with reads := [] }).setStaging b none).emit (.readBeat ptag none false)) := by
  let failed : ReadBeat := ⟨true, (List.range 16).map fun _ => .failed 0⟩
  let bytes : List (Byte × Bool) := (List.range 16).map fun _ => (0, false)
  let y := (x.setStaging b none).onPath fun p => { p with reads := [⟨ptag, [failed]⟩] }
  have mapped : (x.setStaging b none).mapSources (ByteSource.failOf b) = y := by
    have reads : x.path.reads.map (ProcRead.mapSources (ByteSource.failOf b)) = [⟨ptag, [failed]⟩] := by
      rw [same.reads, serves.reads]
      refine congrArg (fun l => [(⟨ptag, [⟨true, l⟩]⟩ : ProcRead)]) ((List.map_map ..).trans (List.map_congr_left fun j _ => ?_))
      exact if_pos rfl
    exact congrArg (fun l => (x.setStaging b none).onPath fun p => { p with reads := l }) reads
  have voids : y.NoVoids := fun c v used => by
    have used : (x.path.staging.set b none)[c] = some v := used
    rw [set_fin] at used
    split at used
    · cases used
    · exact serves.voids c v (same.staging ▸ used)
  have settled : y.decideRead 0 = y := by
    refine decideRead_of_settled (r := ⟨ptag, [failed]⟩) rfl (fun _ => ?_) ?_
    all_goals
      intro beat mem z here
      cases List.mem_singleton.mp mem
      obtain ⟨j, -, rfl⟩ := List.mem_map.mp here
      rfl
  have inHand : failed.bytes.mapM (ByteSource.inHand y.path.staging) = some bytes := rfl
  have returned : y.returnBeat ptag failed bytes = y.emit (.readBeat ptag none false) :=
    returnBeat_memory fun z mem => by obtain ⟨j, -, rfl⟩ := List.mem_map.mp mem; exact fun _ _ _ _ => nofun
  have served : y.serveRead 0 = (y.emit (.readBeat ptag none false)).onPath fun p => { p with reads := [] } :=
    serveRead_last (r := ⟨ptag, [failed]⟩) (rest := []) rfl settled rfl inHand returned rfl voids rfl
  rw [mapped]
  refine serve_settles ((serveReads_one rfl).trans served) ⟨?_, ?_, fun r mem => absurd mem List.not_mem_nil, voids⟩
  · exact same.held.trans serves.held
  · exact same.openBurst.trans serves.openBurst

end Reading

/-! ## The commands of the data -/

section Commands

variable {beat got count : Nat} {beats : List MemBeat} (out : s.resetHeld = false) (fits : beats.length = count)

include out fits

theorem stagingSlotReadData_ends {c : Nat} (issued : s.path.tags[tag] = some ⟨⟨beat, count, .staging b c⟩, got⟩)
    (serves : ((s.freeTag tag).ringSlotData b c beats).serve = x) :
    ∃ t, exec (.stagingSlotReadData tag beats) s = .next t ∧ x.EndsAs t := by
  obtain ⟨t, ended, ends⟩ := onPort_ends (b := true) (k := beats.length == count)
    (fun s => ((s.freeTag tag).ringSlotData b c beats).serve) out rfl (beq_iff_eq.mpr fits)
  refine ⟨t, ?_, serves ▸ ends⟩
  change execStagingSlotReadData tag beats s = _
  unfold execStagingSlotReadData
  rw [issued]
  exact ended

theorem prefetchDataArrival_ends {p : Fin 256} (issued : s.path.tags[tag] = some ⟨⟨beat, count, .prefetch p⟩, got⟩)
    (serves : ((s.freeTag tag).prefetchArrives p beats).serve = x) :
    ∃ t, exec (.prefetchDataArrival tag beats) s = .next t ∧ x.EndsAs t := by
  obtain ⟨t, ended, ends⟩ := onPort_ends (b := true) (k := beats.length == count)
    (fun s => ((s.freeTag tag).prefetchArrives p beats).serve) out rfl (beq_iff_eq.mpr fits)
  refine ⟨t, ?_, serves ▸ ends⟩
  change execPrefetchDataArrival tag beats s = _
  unfold execPrefetchDataArrival
  rw [issued]
  exact ended

theorem demandDataArrival_ends {d : Fin 4} (issued : s.path.tags[tag] = some ⟨⟨beat, count, .demand d⟩, got⟩)
    (serves : ((s.freeTag tag).demandArrives d beats).serve = x) :
    ∃ t, exec (.demandDataArrival tag beats) s = .next t ∧ x.EndsAs t := by
  obtain ⟨t, ended, ends⟩ := onPort_ends (b := true) (k := beats.length == count)
    (fun s => ((s.freeTag tag).demandArrives d beats).serve) out rfl (beq_iff_eq.mpr fits)
  refine ⟨t, ?_, serves ▸ ends⟩
  change execDemandDataArrival tag beats s = _
  unfold execDemandDataArrival
  rw [issued]
  exact ended

end Commands

/-! ## Prefetch buffers that settle (R86) -/

section Prefetched

variable {p : Fin 256} {beats : List MemBeat} {target : FetchTarget} {owner : Owner}

theorem prefetchArrives_released (loading : s.content.prefetch[p] = .loading none target) :
    s.prefetchArrives p beats = s.onContent fun u => { u with prefetch := u.prefetch.set p .free } := by
  unfold State.prefetchArrives
  rw [loading]

variable (loading : s.content.prefetch[p] = .loading (some owner) target)

include loading

theorem prefetchArrives_ready (whole : beats.all MemBeat.ok = true) : s.prefetchArrives p beats =
    (s.onContent fun u => { u with
      prefetch := u.prefetch.set p (.ready owner target (bytesOfBeats target.address packetLength beats)) }).tellStaging (.prefetch p) owner
        (some (bytesOfBeats target.address packetLength beats)) := by
  unfold State.prefetchArrives
  rw [loading]
  exact if_pos whole

theorem prefetchArrives_failed (broken : beats.all MemBeat.ok = false) : s.prefetchArrives p beats =
    ((s.onContent fun u => { u with prefetch := u.prefetch.set p (.failed owner target) }).raise .fetchFail target.service.val
      target.address none).tellStaging (.prefetch p) owner none := by
  unfold State.prefetchArrives
  rw [loading]
  exact if_neg fun whole => Bool.false_ne_true (broken ▸ whole)

end Prefetched

/-! ## Demand buffers that settle (R88) -/

section Demanded

variable {d : Fin 4} {beats : List MemBeat} {target : FetchTarget}

theorem demandArrives_letGo (loading : s.content.demand[d] = .loading none target) (idle : s.content.demandWait = []) :
    s.demandArrives d beats = s.onContent fun u => { u with demand := u.demand.set d .free } := by
  unfold State.demandArrives
  rw [loading]
  exact serveDemandWait_idle (s := s.onContent fun u => { u with demand := u.demand.set d .free }) idle

variable (loading : s.content.demand[d] = .loading (some b) target)

include loading

theorem demandArrives_ready (whole : beats.all MemBeat.ok = true) : s.demandArrives d beats =
    (s.onContent fun u => { u with
      demand := u.demand.set d (.ready b target (bytesOfBeats target.address packetLength beats)) }).tellStaging (.demand d) none
        (some (bytesOfBeats target.address packetLength beats)) := by
  unfold State.demandArrives
  rw [loading]
  exact if_pos whole

theorem demandArrives_failed (broken : beats.all MemBeat.ok = false) : s.demandArrives d beats =
    ((s.onContent fun u => { u with demand := u.demand.set d (.failed b target) }).raise .fetchFail target.service.val
      target.address none).tellStaging (.demand d) none none := by
  unfold State.demandArrives
  rw [loading]
  exact if_neg fun whole => Bool.false_ne_true (broken ▸ whole)

end Demanded

end Sys2Proof.Machine

namespace Sys2Proof.Proofs

open Sys2Proof.Machine

/-- Settles O21: the buffer settles, no staging buffer hears of it, and the port waits on. -/
theorem prefetchSettles : Obligations.PrefetchSettles := by
  intro s tag beat got p beats target out waits issued unheard settled
  have deaf (x : State) (staging : x.path.staging = s.path.staging) (owner : Owner) (owned : s.content.prefetch[p].owner = some owner)
      (told : Option (List Byte)) : x.tellStaging (.prefetch p) owner told = x :=
    tellStaging_unheard fun c v used hears => unheard c v (staging ▸ used) hears.1 (owned.trans (congrArg some (hears.2 owner rfl)))
  have stays (v : Prefetch) : s.SamePort (settled v) := ⟨rfl, rfl, rfl, rfl, rfl⟩
  refine ⟨fun owner loading whole => ?ready, fun owner loading broken rest => ?failed, fun loading => ?released⟩
  case ready =>
    refine prefetchDataArrival_ends out rfl issued ?_
    rw [prefetchArrives_ready (s := s.freeTag tag) loading whole]
    exact (congrArg State.serve (deaf (settled _) rfl owner (by rw [loading]; rfl) _)).trans (serve_of_waits ((stays _).waits waits))
  case failed =>
    refine prefetchDataArrival_ends out rfl issued ?_
    rw [prefetchArrives_failed (s := s.freeTag tag) loading broken]
    rcases rest with quiet | contain
    · have served (path : ((settled (.failed owner target)).raise .fetchFail target.service.val target.address none).path.staging =
          s.path.staging ∨ ∀ c : Fin 8,
            ((settled (.failed owner target)).raise .fetchFail target.service.val target.address none).path.staging[c] = none) :=
        (congrArg State.serve (path.elim (fun same => deaf _ same owner (by rw [loading]; rfl) none) fun empty =>
          tellStaging_unheard (w := .prefetch p) (owner := some owner) (told := none) fun c v used =>
            absurd ((empty c).symm.trans used) nofun)).trans
          (servePort_of_idle (State.PortIdle.raise (s := settled (.failed owner target)) ⟨quiet.held, quiet.openBurst, quiet.reads⟩ ..) _)
      refine served ?_
      rcases raise_path (settled (.failed owner target)) .fetchFail target.service.val target.address none with same | bypassed
      · exact .inl (congrArg PathUnit.staging same : _)
      refine .inr fun c => ?_
      rw [bypassed, bypassed_of_no_reads (p := (settled (.failed owner target)).path) quiet.reads]
      simp
    · have same : s.SamePort ((settled (.failed owner target)).raise .fetchFail target.service.val target.address none) :=
        (stays _).trans (raise_contained_samePort (s := settled (.failed owner target)) contain (by decide) ..)
      exact (congrArg State.serve (deaf _ same.staging owner (by rw [loading]; rfl) _)).trans (serve_of_waits (same.waits waits))
  case released =>
    refine prefetchDataArrival_ends out rfl issued ?_
    rw [prefetchArrives_released (s := s.freeTag tag) loading]
    exact serve_of_waits ((stays _).waits waits)

end Sys2Proof.Proofs
end

section
/-! SUPPORT. How the wait of an INSERT buffer ends, and the read it serves with it (07, R141, R142). -/

namespace Sys2Proof.Machine

variable {s x : State} {ptag k a : Nat} {slot : SlotRef} {b : Fin 8} {u : StagingUse} {packet : List Byte}

theorem recordCurrent_congr {t : State} (splice : t.splice = s.splice) (i : Fin 68) (g : Generation) :
    t.recordCurrent i g = s.recordCurrent i g := by
  unfold State.recordCurrent
  rw [splice]

theorem sourceCurrent_congr {t : State} (splice : t.splice = s.splice) (alert : t.alert = s.alert) (f : Source) :
    t.sourceCurrent f = s.sourceCurrent f := by
  unfold State.sourceCurrent State.recordCurrent State.entryCurrent
  rw [splice, alert]

theorem raise_contained_content {e : ErrorKind} (contain : s.fault.policy[errorNumber e].severity = .contain) (other : e ≠ .configError)
    (index address : Nat) (head : Option (List Byte)) : (s.raise e index address head).content = s.content :=
  (congrArg State.content (raise_contained_rest contain other index address head) : _)

theorem raise_contained_sourceCurrent {e : ErrorKind} (contain : s.fault.policy[errorNumber e].severity = .contain)
    (other : e ≠ .configError) (index address : Nat) (head : Option (List Byte)) (f : Source) :
    (s.raise e index address head).sourceCurrent f = s.sourceCurrent f :=
  sourceCurrent_congr (congrArg State.splice (raise_contained_rest contain other index address head) : _)
    (congrArg State.alert (raise_contained_rest contain other index address head) : _) f

/-- An error of severity CONTAIN and the change of a staging buffer commute. -/
theorem raise_setStaging {e : ErrorKind} (contain : s.fault.policy[errorNumber e].severity = .contain) (other : e ≠ .configError)
    (index address : Nat) (head : Option (List Byte)) (v : Option StagingUse) :
    (s.setStaging b v).raise e index address head = (s.raise e index address head).setStaging b v :=
  raise_onPath contain other index address head _

section Finish

variable {f : Insert} (used : x.path.staging[b] = some u) (action : u.disposition.action = .insert f)

include used action

/-- A prefetch that ends is not let go: only the buffer changes. -/
theorem finishInsert_prefetch {p : Fin 256} (wait : u.wait = .prefetch p) (told : Option (List Byte)) :
    x.finishInsert b told = x.setStaging b (some (match told with
      | some c => u.complete (if x.sourceCurrent f.source then insertPacketBytes c f.rewrite f.offset else nullPacket)
          (if x.sourceCurrent f.source then .aired else .none)
      | none => u.complete nullPacket (if x.sourceCurrent f.source then .lost else .none))) := by
  cases told with
  | some c => rw [finishInsert_some used action, wait]; rfl
  | none => rw [finishInsert_none used action, wait]; rfl

/-- A demand fetch that ends is let go. -/
theorem finishInsert_demand {d : Fin 4} (wait : u.wait = .demand d) (idle : x.content.demandWait = []) (told : Option (List Byte)) :
    x.finishInsert b told = (x.letGoDemand b (.demand d)).setStaging b (some (match told with
      | some c => u.complete (if x.sourceCurrent f.source then insertPacketBytes c f.rewrite f.offset else nullPacket)
          (if x.sourceCurrent f.source then .aired else .none)
      | none => u.complete nullPacket (if x.sourceCurrent f.source then .lost else .none))) := by
  cases told with
  | some c => rw [finishInsert_some used action, wait]; exact letGoDemand_setStaging idle d _
  | none => rw [finishInsert_none used action, wait]; exact letGoDemand_setStaging idle d _

/-- The fetch deadline ends the wait with the null packet, and is reported while the source is current (R142). -/
theorem fetchExpires_insert {y : State} (policy : y.fault = x.fault)
    (finished : x.finishInsert b none = y.setStaging b (some (u.complete nullPacket (if x.sourceCurrent f.source then .lost else .none))))
    (contain : x.fault.policy[errorNumber .fetchLate].severity = .contain) : x.fetchExpires b =
      (if x.sourceCurrent f.source then y.raise .fetchLate (x.insertTarget f).service.val (x.insertTarget f).address none
        else y).setStaging b (some (u.complete nullPacket (if x.sourceCurrent f.source then .lost else .none))) := by
  unfold State.fetchExpires
  rw [used]
  dsimp only
  rw [action]
  dsimp only
  rw [finished]
  split
  · exact raise_setStaging (policy ▸ contain) (by decide) ..
  · rfl

end Finish

end Sys2Proof.Machine

namespace Sys2Proof.Proofs

open Sys2Proof.Machine

/-- Settles O20: the wait ends with the packet that came or the null packet, and the one read is answered from the buffer. -/
theorem stagingWaitEnds : Obligations.StagingWaitEnds := by
  refine ⟨fun s tag beat got beats out waits => ?stale,
    fun s ptag k a slot b u out operating within serves used unheld unfilled => ?ends⟩
  case stale =>
    intro freed
    refine ⟨fun b c issued other => stagingSlotReadData_ends out rfl issued ?_, fun d target issued loading idle => demandDataArrival_ends out rfl issued ?_⟩
    · have ignored : freed.ringSlotData b c beats = freed := by
        unfold State.ringSlotData
        split
        · rfl
        · next v used => exact if_neg fun same => other v used same.1
      exact (congrArg State.serve ignored).trans (serve_of_waits (waits.congr rfl rfl rfl rfl rfl))
    · rw [demandArrives_letGo (s := s.freeTag tag) loading idle]
      exact serve_of_waits (waits.congr rfl rfl rfl rfl rfl)
  case ends =>
    intro ends freed
    have live := serves.voids b u used
    have answers {x : State} (same : s.SamePort x) (packet : List Byte) (outcome : PlayOutcome) :
        (x.setStaging b (some (u.complete packet outcome))).serve = x.beatFrom ptag k b (u.complete packet outcome) packet :=
      serve_filled operating serves same (u := u.complete packet outcome) live rfl within
    have free (tag : Fin 32) : s.SamePort (freed tag) := ⟨rfl, rfl, rfl, rfl, rfl⟩
    refine ⟨fun tag beat got beats r issued pass wait => ⟨fun whole => ?ring, fun broken => ?ringFailed⟩, fun f action => ?insert⟩
    case ring =>
      refine stagingSlotReadData_ends out rfl issued ((congrArg State.serve ?_).trans (answers (free tag) _ _))
      unfold State.ringSlotData
      rw [show (s.freeTag tag).path.staging[b] = some u from used]
      dsimp only
      rw [if_pos ⟨rfl, wait⟩, if_pos whole, pass]
      exact completeStaging_used (s := s.freeTag tag) used _
    case ringFailed =>
      refine stagingSlotReadData_ends out rfl issued ((congrArg State.serve ?_).trans (serve_failed serves (free tag)))
      unfold State.ringSlotData
      rw [show (s.freeTag tag).path.staging[b] = some u from used]
      dsimp only
      rw [if_pos ⟨rfl, wait⟩]
      exact if_neg fun whole => Bool.false_ne_true (broken ▸ whole)
    case insert =>
      intro current built whenAired whenLost
      refine ⟨fun tag beat got p beats owner target issued wait loading owned only => ?prefetch,
        fun tag beat got d beats target issued wait loading idle only => ?demand,
        fun x armed reached contain => ?deadline⟩
      case prefetch =>
        intro settled
        have alone (c : Fin 8) (v : StagingUse) (here : s.path.staging[c] = some v) (hears : v.Hears (.prefetch p) (some owner)) : c = b :=
          only c v here hears.1 (hears.2 owner rfl)
        have hears : u.Hears (.prefetch p) (some owner) := ⟨wait, fun o same => by cases same; exact owned⟩
        refine ⟨fun whole => ?_, fun broken contain => ?_⟩
        · refine prefetchDataArrival_ends out rfl issued ?_
          rw [prefetchArrives_ready (s := s.freeTag tag) loading whole]
          have same : s.SamePort (settled (.ready owner target (bytesOfBeats target.address 188 beats))) := ⟨rfl, rfl, rfl, rfl, rfl⟩
          exact (congrArg State.serve ((tellStaging_heard (s := settled _) used hears alone).trans
            (finishInsert_prefetch (x := settled _) used action wait _))).trans (answers same _ _)
        · let y := (settled (.failed owner target)).raise .fetchFail target.service.val target.address none
          have same : s.SamePort y := State.SamePort.trans (t := settled (.failed owner target)) ⟨rfl, rfl, rfl, rfl, rfl⟩
            (raise_contained_samePort (s := settled (.failed owner target)) contain (by decide) ..)
          have used : y.path.staging[b] = some u := same.staging ▸ used
          have stays : y.sourceCurrent f.source = current :=
            raise_contained_sourceCurrent (s := settled (.failed owner target)) contain (by decide) ..
          refine prefetchDataArrival_ends out rfl issued ?_
          rw [prefetchArrives_failed (s := s.freeTag tag) loading broken]
          have finished := (tellStaging_heard (s := y) (told := none) used hears fun c v here => alone c v (same.staging ▸ here)).trans
            (finishInsert_prefetch used action wait _)
          rw [stays] at finished
          exact (congrArg State.serve finished).trans (answers same _ _)
      case demand =>
        intro settled
        have alone (c : Fin 8) (v : StagingUse) (here : s.path.staging[c] = some v) (hears : v.Hears (.demand d) none) : c = b :=
          only c v here hears.1
        have hears : u.Hears (.demand d) none := ⟨wait, nofun⟩
        refine ⟨fun whole => ?_, fun broken contain => ?_⟩
        · let v : Demand := .ready b target (bytesOfBeats target.address packetLength beats)
          refine demandDataArrival_ends out rfl issued ?_
          rw [demandArrives_ready (s := s.freeTag tag) loading whole]
          have finished := (tellStaging_heard (s := (freed tag).onContent fun c => { c with demand := c.demand.set d v })
            (told := some (bytesOfBeats target.address packetLength beats)) used hears alone).trans
              (finishInsert_demand (x := (freed tag).onContent fun c => { c with demand := c.demand.set d v }) used action wait idle _)
          rw [letGoDemand_settled (s := freed tag) rfl idle] at finished
          exact (congrArg State.serve finished).trans (answers (x := settled) ⟨rfl, rfl, rfl, rfl, rfl⟩ _ _)
        · let raised := (freed tag).raise .fetchFail target.service.val target.address none
          let y := raised.onContent fun c => { c with demand := c.demand.set d (.failed b target) }
          have raises (g : ContentUnit → ContentUnit) : ((freed tag).onContent g).raise .fetchFail target.service.val target.address none =
              raised.onContent g :=
            raise_onContent (s := freed tag) (e := .fetchFail) contain (by decide) target.service.val target.address none g
          have port : s.SamePort raised := (free tag).trans (raise_contained_samePort (s := freed tag) contain (by decide) ..)
          have same : s.SamePort y := ⟨port.held, port.openBurst, port.reads, port.staging, port.part⟩
          have used : y.path.staging[b] = some u := same.staging ▸ used
          have idle : raised.content.demandWait = [] :=
            (congrArg ContentUnit.demandWait (raise_contained_content (s := freed tag) contain (by decide) ..)).trans idle
          have stays : y.sourceCurrent f.source = current :=
            raise_contained_sourceCurrent (s := freed tag) contain (by decide) ..
          refine demandDataArrival_ends out rfl issued ?_
          rw [demandArrives_failed (s := s.freeTag tag) loading broken]
          have finished := (tellStaging_heard (s := y) (told := none) used hears fun c v here => alone c v (same.staging ▸ here)).trans
            (finishInsert_demand used action wait idle _)
          rw [letGoDemand_settled (s := raised) rfl idle, stays] at finished
          have settles : settled.raise .fetchFail target.service.val target.address none =
              raised.onContent fun c => { c with demand := c.demand.set d .free } := raises _
          rw [settles]
          exact (congrArg State.serve ((congrArg (fun z : State => z.tellStaging (.demand d) none none) (raises _)).trans finished)).trans
            (answers (x := raised.onContent fun c => { c with demand := c.demand.set d .free })
              ⟨port.held, port.openBurst, port.reads, port.staging, port.part⟩ _ _)
      case deadline =>
        intro target late
        have expires {y : State} (same : s.SamePort y) (policy : y.fault = s.fault)
            (finished : s.finishInsert b none = y.setStaging b (some (u.complete nullPacket whenLost))) :
            ends (.fetchDeadline b) (late y) nullPacket whenLost := by
          have portLate : s.SamePort (late y) := by
            change s.SamePort (if current then y.raise .fetchLate target.service.val target.address none else y)
            split
            · exact same.trans (raise_contained_samePort (policy ▸ contain) (by decide) ..)
            · exact same
          have due : s.fetchDue b = true := by
            unfold State.fetchDue
            rw [used]
            dsimp only
            rw [armed]
            exact decide_eq_true reached
          obtain ⟨t, ended, ends⟩ := when_ends (fun s => (s.fetchExpires b).serve) out due
          refine ⟨t, ended, ?_⟩
          have served := (congrArg State.serve (fetchExpires_insert used action policy finished contain)).trans (answers portLate _ _)
          exact served ▸ ends
        refine ⟨fun p wait => ?prefetch, fun d target' wait loading idle => ?demand, fun wait => ?listed⟩
        case prefetch => exact expires ⟨rfl, rfl, rfl, rfl, rfl⟩ rfl (finishInsert_prefetch used action wait none)
        case demand =>
          refine expires ⟨rfl, rfl, rfl, rfl, rfl⟩ rfl ((finishInsert_demand used action wait idle none).trans ?_)
          rw [letGoDemand_last idle]
          have same : modifyAt s.content.demand d Demand.letGo = s.content.demand.set d (.loading none target') := by
            unfold modifyAt
            rw [loading]
            rfl
          exact congrArg (fun v => (s.onContent fun c => { c with demand := v }).setStaging b (some (u.complete nullPacket whenLost))) same
        case listed =>
          refine expires ⟨rfl, rfl, rfl, rfl, rfl⟩ rfl ?_
          rw [finishInsert_none used action, wait]
          rfl

end Sys2Proof.Proofs
end

section
/-! SUPPORT. The check of a scanned packet (04, R78, R79). -/

namespace Sys2Proof.Machine

variable {s : State} {u : Scan} {d : ContentDef} {k : Nat} {b : List Byte}

/-- The first clock reference that a packet of component `c` gives, where it is well formed (R78, check 5). -/
def firstClockOf (b : List Byte) (k c : Nat) : Option FirstClock :=
  if clockFlag b = true ∧ malformed b = false then some ⟨clockValue b 6 % 2576980377600, k, c⟩ else none

/-- A packet of one of the content's components: what its examination sets. -/
theorem examine_some {c : Nat} (component : d.comps.findIdx? (·.pid == packetPid b) = some c) : u.examine d k b =
    { u with
      firstCC := if u.firstCC.getD c none = none ∧ hasPayload b then u.firstCC.set c (some (packetCC b)) else u.firstCC
      videoClock :=
        if (d.comps[c]?.map ContentComponent.role) = some .video then u.videoClock.or (firstClockOf b k c) else u.videoClock
      anyClock := u.anyClock.or (firstClockOf b k c) } := by
  have first : (match u.firstCC.getD c none with
      | some _ => u.firstCC
      | none => if hasPayload b then u.firstCC.set c (some (packetCC b)) else u.firstCC) =
      if u.firstCC.getD c none = none ∧ hasPayload b then u.firstCC.set c (some (packetCC b)) else u.firstCC := by
    cases u.firstCC.getD c none with
    | some x => exact (if_neg fun h => nomatch h.1).symm
    | none => exact if_congr (by simp) rfl rfl
  have clock : firstClockOf b k c = (scanClock b).map fun v => ⟨v, k, c⟩ := by
    unfold firstClockOf scanClock
    cases clockFlag b <;> cases malformed b <;> rfl
  unfold Scan.examine
  rw [component, clock]
  dsimp only
  cases scanClock b with
  | none =>
    have clocks (o : Option FirstClock) : o.or none = o := Option.or_none
    simp only [Option.map_none, clocks, ite_self]
    exact congrArg (fun l => { u with firstCC := l }) first
  | some v =>
    have clocks (o : Option FirstClock) (x : FirstClock) : some (o.getD x) = o.or (some x) := by cases o <;> rfl
    have video : (if ((d.comps[c]?.map ContentComponent.role) == some .video) = true then some (u.videoClock.getD ⟨v, k, c⟩) else u.videoClock) =
        if (d.comps[c]?.map ContentComponent.role) = some .video then u.videoClock.or (some ⟨v, k, c⟩) else u.videoClock := by
      rw [clocks]
      exact if_congr beq_iff_eq rfl rfl
    dsimp only [Option.map_some]
    rw [video, clocks]
    exact congrArg (fun l => { u with
      firstCC := l
      videoClock := if (d.comps[c]?.map ContentComponent.role) = some Role.video then u.videoClock.or (some ⟨v, k, c⟩) else u.videoClock
      anyClock := u.anyClock.or (some ⟨v, k, c⟩) }) first

/-- A packet of another PID gives nothing. -/
theorem examine_none (other : d.comps.findIdx? (·.pid == packetPid b) = none) : u.examine d k b = u := by
  unfold Scan.examine
  rw [other]

theorem examine_content : (u.examine d k b).content = u.content := by
  unfold Scan.examine
  split
  · rfl
  · dsimp only
    split <;> rfl

/-- The examination does not look at what has arrived. -/
theorem examine_with_arrived (a : List (Nat × Option (List Byte))) :
    Scan.examine { u with arrived := a } d k b = { u.examine d k b with arrived := a } := by
  cases component : d.comps.findIdx? (·.pid == packetPid b) with
  | none => rw [examine_none component, examine_none component]
  | some c => rw [examine_some component, examine_some component]

theorem examine_arrived : (u.examine d k b).arrived = u.arrived := by
  cases component : d.comps.findIdx? (·.pid == packetPid b) with
  | none => rw [examine_none component]
  | some c => rw [examine_some component]

/-! ## The end of a scan (R79) -/

/-- A scan ends with no other content queued and no cue waiting on its content. -/
theorem endScan_alone {r : ScanResult} (queue : s.content.scanQueue = [])
    (idle : ∀ i : Fin 64, ∀ e rest, s.cue.queues[i] = e :: rest → ¬ (e.state = .waiting ∧ e.cue.content = u.content)) :
    s.endScan u r = (s.onContent fun x => { x with
      scan := none, entries := x.entries.set u.content (s.content.entries[u.content].scanned u r) }).told
        [.contentState ⟨u.content, s.content.entries[u.content].scanned u r⟩] := by
  let ended := (s.onContent fun x => { x with
      entries := x.entries.set u.content (s.content.entries[u.content].scanned u r), scan := none }).produce
        (.contentState ⟨u.content, s.content.entries[u.content].scanned u r⟩)
  have unheard : ended.contentNotice u.content = ended :=
    contentNotice_of_none_waiting fun i ⟨e, head, waits⟩ => by
      obtain ⟨rest, queued⟩ := List.head?_eq_some_iff.mp head
      exact idle i e rest queued waits
  unfold State.endScan
  dsimp only
  refine (congrArg State.startScan unheard).trans ?_
  exact congrArg (fun c => { ended with content := c }) (startScan_idle (u := ended.content) rfl queue)

/-! ## The next packet arrives (R78) -/

section Arrives

variable {serial : Nat} (scanning : s.content.scan = some u) (own : u.serial = serial) (next : u.nextCheck = k) (fresh : u.arrived = [])
  (defined : s.content.entries[u.content].definition = some d)

include scanning own next fresh defined

/-- Data that come for the packet next to be checked are checked. -/
theorem scanData_next (data : Option (List Byte)) : s.scanData serial k data =
    match data with
    | some b =>
      if byteAt b 0 = syncByte then
        if k + 1 < d.packets then s.onContent fun x => { x with scan := some { u.examine d k b with nextCheck := k + 1 } }
        else (s.onContent fun x => { x with scan := some { u with arrived := [(k, data)] } }).endScan
          { u.examine d k b with nextCheck := k + 1 } (Scan.finish { u.examine d k b with nextCheck := k + 1 })
      else (s.onContent fun x => { x with scan := some { u with arrived := [(k, data)] } }).endScan { u with arrived := [(k, data)] }
        (.failed .sync (some k))
    | none => (s.onContent fun x => { x with scan := some { u with arrived := [(k, data)] } }).endScan { u with arrived := [(k, data)] }
        (.failed .memoryError (some k)) := by
  obtain ⟨content, serial', nextRead, nextCheck, arrived, firstCC, videoClock, anyClock⟩ := u
  obtain rfl : serial' = serial := own
  obtain rfl : nextCheck = k := next
  obtain rfl : arrived = [] := fresh
  have found : [(nextCheck, data)].find? (·.1 == nextCheck) = some (nextCheck, data) := by simp
  unfold State.scanData
  rw [scanning]
  dsimp only
  rw [if_pos rfl]
  unfold State.checkScan
  dsimp only [State.onContent_content, List.nil_append]
  rw [defined, found]
  cases data with
  | none => rfl
  | some b =>
    have checked : ({ Scan.examine ⟨content, serial', nextRead, nextCheck, [(nextCheck, some b)], firstCC, videoClock, anyClock⟩ d nextCheck b with
        nextCheck := nextCheck + 1
        arrived := [(nextCheck, some b)].filter fun a => a.1 != nextCheck } : Scan) =
        { Scan.examine ⟨content, serial', nextRead, nextCheck, [], firstCC, videoClock, anyClock⟩ d nextCheck b with
          nextCheck := nextCheck + 1 } := by
      rw [examine_with_arrived (u := ⟨content, serial', nextRead, nextCheck, [], firstCC, videoClock, anyClock⟩)]
      simp [examine_arrived]
    dsimp only
    rw [checked]
    rfl

/-- The examined packet lets the scan go on, or ends it. -/
theorem scanData_packet : s.scanData serial k (some b) =
    if byteAt b 0 = syncByte then
      if k + 1 < d.packets then s.onContent fun x => { x with scan := some { u.examine d k b with nextCheck := k + 1 } }
      else (s.onContent fun x => { x with scan := some { u with arrived := [(k, some b)] } }).endScan
        { u.examine d k b with nextCheck := k + 1 } (Scan.finish { u.examine d k b with nextCheck := k + 1 })
    else (s.onContent fun x => { x with scan := some { u with arrived := [(k, some b)] } }).endScan { u with arrived := [(k, some b)] }
      (.failed .sync (some k)) := scanData_next scanning own next fresh defined (some b)

theorem scanData_error : s.scanData serial k none =
    (s.onContent fun x => { x with scan := some { u with arrived := [(k, none)] } }).endScan { u with arrived := [(k, none)] }
      (.failed .memoryError (some k)) := scanData_next scanning own next fresh defined none

end Arrives

/-- What the end of a scan makes of its entry (R79). -/
theorem scanned_eq {e : ContentEntry} (defined : e.definition = some d) (r : ScanResult) : e.scanned u r =
    match r with
    | .ready first => ⟨.ready, some d, some first, u.firstCC, none, none, e.useCount - 1⟩
    | .failed reason packet => ⟨.failed, some d, none, [], some reason, packet, e.useCount - 1⟩ := by
  obtain ⟨state, definition, iFirst, firstCC, failReason, failPacket, useCount⟩ := e
  obtain rfl : definition = some d := defined
  cases r <;> rfl

end Sys2Proof.Machine

namespace Sys2Proof.Proofs

open Sys2Proof.Machine

/-- Settles O23: the packet that is next to be checked is examined, or ends the scan. -/
theorem scanChecksThePacket : Obligations.ScanChecksThePacket := by
  intro s tag beat got k beats u d out issued scanning next fresh defined b examined freed
  have checks (data : Option (List Byte)) (bytes : s.scanBytes u.serial k beats = data) (x : State)
      (scanned : freed.scanData u.serial k data = x) : ∃ t, exec (.scanReadData tag beats) s = .next t ∧ x.EndsAs t := by
    obtain ⟨t, ended, ends⟩ := onPort_ends (b := true)
      (fun s => (s.freeTag tag).scanData u.serial k (s.scanBytes u.serial k beats)) out rfl (beq_self_eq_true beats.length)
    refine ⟨t, ?_, ?_⟩
    · change execScanReadData tag beats s = _
      unfold execScanReadData
      rw [issued]
      exact ended
    · rw [← scanned, ← bytes]
      exact ends
  have address : s.contentAddress u.content k = contentPacketAddress d k := by
    unfold State.contentAddress
    rw [defined]
  have whole (ok : beats.all MemBeat.ok = true) : s.scanBytes u.serial k beats = some b := by
    unfold State.scanBytes
    rw [scanning]
    refine (if_pos ⟨rfl, ok⟩).trans ?_
    rw [address]
    rfl
  have broken (bad : beats.all MemBeat.ok = false) : s.scanBytes u.serial k beats = none := by
    unfold State.scanBytes
    rw [scanning]
    exact if_neg fun h => Bool.false_ne_true (bad ▸ h.2)
  have examine : u.examine d k b = examined := by
    change u.examine d k b = match d.comps.findIdx? (·.pid == packetPid b) with
      | none => u
      | some c => _
    cases component : d.comps.findIdx? (·.pid == packetPid b) with
    | none => exact examine_none component
    | some c => exact examine_some component
  have packet := scanData_packet (s := freed) (b := b) scanning rfl next fresh defined
  have error := scanData_error (s := freed) scanning rfl next fresh defined
  rw [examine] at packet
  refine ⟨fun ok sync more => checks _ (whole ok) _ ?goes, fun bad queue idle => ?fails, fun ok sync last queue idle => ?ends⟩
  case goes =>
    exact packet.trans ((if_pos sync).trans (if_pos more))
  case fails =>
    intro old e
    have fails (data : Option (List Byte)) (reason : FailReason) (is : reason = if beats.all MemBeat.ok then .sync else .memoryError)
        (ended : freed.scanData u.serial k data = (freed.onContent fun x => { x with scan := some { u with arrived := [(k, data)] } }).endScan
          { u with arrived := [(k, data)] } (.failed reason (some k))) :
        freed.scanData u.serial k data = ((freed.onContent fun x => { x with scan := none, entries := x.entries.set u.content e }).told
          [.contentState ⟨u.content, e⟩]) := by
      have alone := endScan_alone (s := freed.onContent fun x => { x with scan := some { u with arrived := [(k, data)] } })
        (u := { u with arrived := [(k, data)] }) (r := .failed reason (some k)) queue idle
      have entry : (s.content.entries[u.content].scanned { u with arrived := [(k, data)] } (.failed reason (some k))) = e :=
        (scanned_eq defined _).trans (by rw [is])
      exact ended.trans (alone.trans (congrArg (fun e => (freed.onContent fun x => { x with
        scan := none, entries := x.entries.set u.content e }).told [.contentState ⟨u.content, e⟩]) entry))
    cases ok : beats.all MemBeat.ok with
    | true =>
      have sync : byteAt b 0 ≠ syncByte := bad.resolve_left fun bad => Bool.false_ne_true (bad.symm.trans ok)
      exact checks _ (whole ok) _ (fails _ .sync (by rw [ok]; rfl) (packet.trans (if_neg sync)))
    | false => exact checks _ (broken ok) _ (fails _ .memoryError (by rw [ok]; rfl) error)
  case ends =>
    intro old e
    have entry : (s.content.entries[u.content].scanned { examined with nextCheck := k + 1 }
        (Scan.finish { examined with nextCheck := k + 1 })) = e := by
      rw [scanned_eq defined]
      change _ = match examined.videoClock, examined.anyClock with
        | some f, _ => _
        | none, some f => _
        | none, none => _
      unfold Scan.finish
      cases examined.videoClock <;> cases examined.anyClock <;> rfl
    have same : examined.content = u.content := examine ▸ examine_content
    refine checks _ (whole ok) _ ?_
    refine packet.trans ((if_pos sync).trans ((if_neg (Nat.not_lt.mpr last)).trans ?_))
    have ended := endScan_alone (s := freed.onContent fun x => { x with scan := some { u with arrived := [(k, some b)] } })
      (u := { examined with nextCheck := k + 1 }) (r := Scan.finish { examined with nextCheck := k + 1 }) queue (by rw [same]; exact idle)
    rw [ended]
    dsimp only
    rw [same]
    exact congrArg (fun e => (freed.onContent fun x => { x with scan := none, entries := x.entries.set u.content e }).told
          [.contentState ⟨u.content, e⟩]) entry

end Sys2Proof.Proofs
end

section
/-! SUPPORT. What the entry to BYPASS does, block by block (05, R114; 06, R134; 03, R72; 04, R90; 10, R184). -/

namespace Sys2Proof.Machine

variable {s t u : State}

/-! ## Operations over a list of indexes -/

theorem gather_from {α : Type} (f : State → α → State × List ReportBody) (l : List α) (s : State) (bodies : List ReportBody) :
    l.foldl (fun p i => ((f p.1 i).1, p.2 ++ (f p.1 i).2)) (s, bodies) = ((s.gather f l).1, bodies ++ (s.gather f l).2) := by
  unfold State.gather
  induction l generalizing s bodies with
  | nil => simp
  | cons i l ih =>
    rw [List.foldl_cons, List.foldl_cons, ih, ih (f s i).1 ([] ++ (f s i).2)]
    simp

theorem gather_cons {α : Type} (f : State → α → State × List ReportBody) (s : State) (i : α) (l : List α) :
    s.gather f (i :: l) = (((f s i).1.gather f l).1, (f s i).2 ++ ((f s i).1.gather f l).2) :=
  gather_from f l (f s i).1 ([] ++ (f s i).2)

/-- A content entry with that many holds given back. -/
def ContentEntry.given (e : ContentEntry) (n : Nat) : ContentEntry := { e with useCount := e.useCount - n }

theorem ContentEntry.given_given (e : ContentEntry) (m n : Nat) : (e.given m).given n = e.given (m + n) :=
  congrArg (fun c => { e with useCount := c }) (Nat.sub_sub ..)

theorem releaseHold_entry (c d : Fin 128) : (s.releaseHold c).content.entries[d] = s.content.entries[d].given (if c = d then 1 else 0) := by
  have at_ : (s.releaseHold c).content.entries[d] =
      if c = d then { s.content.entries[d] with useCount := s.content.entries[d].useCount - 1 } else s.content.entries[d] :=
    modifyAt_fin ..
  rw [at_]
  split <;> rfl

/-! ## The Splice Engine's answer (R112, R114) -/

/-- An insertion record cut short by BYPASS. -/
def State.cutRecord (s : State) (r : Fin 68) : InsertionRecord :=
  { s.splice.records[r] with
    state := .closing, endReason := some .bypass, endTime := s.clock, tReturn := none, deadline := none, bound := .unset
    closeExpiry := some (after s.clock s.closeTicks) }

/-- The record as it closes with nothing outstanding. -/
def State.closedRecord (s : State) (r : Fin 68) : InsertionRecord := { s.cutRecord r with unconfirmed := 0 }

/-- The record cut short, closed at once where nothing is outstanding. -/
def State.leftRecord (s : State) (r : Fin 68) : InsertionRecord :=
  if (s.cutRecord r).outstanding = 0 then (s.closedRecord r).freed else s.cutRecord r

/-- What the cut of a service's insertion tells. -/
def State.cutBodies (s : State) (i : Fin 64) : List ReportBody :=
  match s.splice.services[i].current with
  | some r => if (s.cutRecord r).outstanding = 0 then [.asRun r (s.closedRecord r)] else []
  | none => []

/-- The cut of a service's insertion gives a hold of the content back. -/
def State.cutReleases (s : State) (c : Fin 128) (i : Fin 64) : Bool :=
  match s.splice.services[i].current with
  | some r => decide (s.splice.records[r].outstanding = 0 ∧ s.splice.records[r].content = c)
  | none => false

section Current

variable {i : Fin 64} {r : Fin 68}

theorem cutBodies_none (idle : s.splice.services[i].current = none) : s.cutBodies i = [] := by
  unfold State.cutBodies
  rw [idle]

theorem cutBodies_some (current : s.splice.services[i].current = some r) : s.cutBodies i =
    if (s.cutRecord r).outstanding = 0 then [.asRun r (s.closedRecord r)] else [] := by
  unfold State.cutBodies
  rw [current]

theorem cutReleases_none (c : Fin 128) (idle : s.splice.services[i].current = none) : s.cutReleases c i = false := by
  unfold State.cutReleases
  rw [idle]

theorem cutReleases_some (c : Fin 128) (current : s.splice.services[i].current = some r) : s.cutReleases c i =
    decide (s.splice.records[r].outstanding = 0 ∧ s.splice.records[r].content = c) := by
  unfold State.cutReleases
  rw [current]

end Current

/-- An update of a record by what it holds. -/
theorem onRecord_const (r : Fin 68) (f : InsertionRecord → InsertionRecord) : s.onRecord r f = s.onRecord r fun _ => f s.splice.records[r] :=
  congrArg (fun v => s.onSplice fun u => { u with records := v }) (modifyAt_congr rfl)

/-- An insertion is cut short by BYPASS: CLOSING, or closed at once. -/
theorem cutShort_bypass (r : Fin 68) : s.cutShort r .bypass =
    let left := (s.onRecord r fun _ => s.cutRecord r).onFields s.splice.records[r].service SpliceFields.left
    if (s.cutRecord r).outstanding = 0 then left.closeRecord r 0 else (left, []) := by
  let f := fun x : InsertionRecord => { x with endReason := some .bypass }
  have record := onRecord_at s r f
  have moved : (s.onRecord r f).onRecord r (fun x => x.closing s.clock (after s.clock s.closeTicks) none) =
      s.onRecord r fun _ => s.cutRecord r :=
    (onRecord_onRecord ..).trans (onRecord_const r _)
  unfold State.cutShort State.leaveActive
  dsimp only
  rw [record]
  exact congrArg (fun x : State => if s.splice.records[r].outstanding = 0 then
      (x.onFields s.splice.records[r].service SpliceFields.left).closeRecord r 0
    else (x.onFields s.splice.records[r].service SpliceFields.left, [])) moved

/-- The services of a list have left the air. -/
structure State.Cut (s t : State) (bodies : List ReportBody) (l : List (Fin 64)) : Prop where
  services : ∀ i : Fin 64, t.splice.services[i] = if i ∈ l then s.splice.services[i].bypassed else s.splice.services[i]
  records : ∀ r : Fin 68, t.splice.records[r] =
    if ∃ i ∈ l, s.splice.services[i].current = some r then s.leftRecord r else s.splice.records[r]
  entries : ∀ c : Fin 128, t.content.entries[c] = s.content.entries[c].given (l.countP (s.cutReleases c))
  told : bodies = l.flatMap s.cutBodies
  rest : t = { s with
    splice := { s.splice with services := t.splice.services, records := t.splice.records }
    content := { s.content with entries := t.content.entries } }

theorem cut_nil : s.Cut s [] [] where
  services _ := (if_neg List.not_mem_nil).symm
  records _ := (if_neg fun ⟨_, mem, _⟩ => List.not_mem_nil mem).symm
  entries _ := rfl
  told := rfl
  rest := rfl

theorem leftRecord_closed {r : Fin 68} (settled : (s.cutRecord r).outstanding = 0) :
    s.leftRecord r = (s.closedRecord r).freed := if_pos settled

theorem leftRecord_owing {r : Fin 68} (owing : (s.cutRecord r).outstanding ≠ 0) : s.leftRecord r = s.cutRecord r := if_neg owing

section One

variable {i : Fin 64} {r : Fin 68}

theorem spliceBypass_none (current : s.splice.services[i].current = none) :
    s.spliceBypass i = (s.onFields i SpliceFields.bypassed, []) := by
  unfold State.spliceBypass
  rw [current]

theorem cut_services (j : Fin 64) : (modifyAt (modifyAt s.splice.services i SpliceFields.left) i SpliceFields.bypassed)[j] =
    if j ∈ [i] then s.splice.services[j].bypassed else s.splice.services[j] := by
  rw [modifyAt_modifyAt, modifyAt_fin]
  exact if_congr (by rw [List.mem_singleton, eq_comm]) rfl rfl

/-- The state of a service's insertion that has left the air. -/
def State.cutAt (s : State) (i : Fin 64) (r : Fin 68) : State := (s.onRecord r fun _ => s.cutRecord r).onFields i SpliceFields.left

variable (current : s.splice.services[i].current = some r) (service : s.splice.records[r].service = i)

include current

theorem named_iff (q : Fin 68) : (∃ j ∈ [i], s.splice.services[j].current = some q) ↔ r = q :=
  ⟨fun ⟨j, mem, named⟩ => by
    cases List.mem_singleton.mp mem
    exact Option.some.inj (current.symm.trans named), fun same => ⟨i, List.mem_singleton.mpr rfl, same ▸ current⟩⟩

/-- The records with one of them cut short. -/
theorem cut_records {v : Vector InsertionRecord 68} {y : InsertionRecord} (set_ : v = s.splice.records.set r y) (left : y = s.leftRecord r)
    (q : Fin 68) : v[q] = if ∃ j ∈ [i], s.splice.services[j].current = some q then s.leftRecord q else s.splice.records[q] := by
  rw [set_, set_fin, left]
  by_cases same : r = q
  · rw [if_pos same, if_pos ((named_iff current q).mpr same), same]
  · rw [if_neg same, if_neg fun h => same ((named_iff current q).mp h)]

include service

theorem spliceBypass_some : s.spliceBypass i =
    if (s.cutRecord r).outstanding = 0 then
      (((s.cutAt i r).closeRecord r 0).1.onFields i SpliceFields.bypassed, ((s.cutAt i r).closeRecord r 0).2)
    else ((s.cutAt i r).onFields i SpliceFields.bypassed, []) := by
  unfold State.spliceBypass
  rw [current]
  dsimp only
  rw [cutShort_bypass, service]
  dsimp only
  split <;> rfl

/-- An insertion with nothing outstanding closes at once. -/
theorem spliceBypass_closes (settled : (s.cutRecord r).outstanding = 0) : s.Cut (s.spliceBypass i).1 (s.spliceBypass i).2 [i] := by
  have record : (s.cutAt i r).splice.records[r] = s.cutRecord r := onRecord_at s r _
  have closed : (s.cutAt i r).closeRecord r 0 =
      (((s.cutAt i r).onRecord r fun _ => (s.closedRecord r).freed).releaseHold (s.cutRecord r).content,
        [.asRun r (s.closedRecord r)]) := by
    unfold State.closeRecord
    rw [record]
    rfl
  have set_ := modifyAt_modifyAt s.splice.records r (fun _ => s.cutRecord r) fun _ => (s.closedRecord r).freed
  rw [spliceBypass_some current service, if_pos settled, closed]
  refine ⟨cut_services, fun q => ?_, fun c => ?_, ?_, by rfl⟩
  · exact cut_records current (y := (s.closedRecord r).freed) set_ (leftRecord_closed settled).symm q
  · refine (releaseHold_entry (s := (s.cutAt i r).onRecord r fun _ => (s.closedRecord r).freed) ..).trans ?_
    rw [List.countP_singleton, cutReleases_some c current]
    have zero : s.splice.records[r].outstanding = 0 := settled
    simp only [zero, true_and, decide_eq_true_eq]
    rfl
  · rw [List.flatMap_singleton, cutBodies_some current, if_pos settled]

/-- An insertion with something outstanding goes CLOSING. -/
theorem spliceBypass_leaves (owing : (s.cutRecord r).outstanding ≠ 0) : s.Cut (s.spliceBypass i).1 (s.spliceBypass i).2 [i] := by
  rw [spliceBypass_some current service, if_neg owing]
  refine ⟨cut_services, cut_records current (y := s.cutRecord r) rfl (leftRecord_owing owing).symm, fun c => ?_, ?_, rfl⟩
  · rw [List.countP_singleton, cutReleases_some c current, if_neg fun h => owing (decide_eq_true_eq.mp h).1]
    rfl
  · rw [List.flatMap_singleton, cutBodies_some current, if_neg owing]

end One

/-- One service leaves the air. -/
theorem spliceBypass_cut {i : Fin 64} (owned : ∀ r, s.splice.services[i].current = some r → s.splice.records[r].service = i) :
    s.Cut (s.spliceBypass i).1 (s.spliceBypass i).2 [i] := by
  cases current : s.splice.services[i].current with
  | none =>
    rw [spliceBypass_none current]
    refine ⟨fun j => ?_, fun r => ?_, fun c => ?_, ?_, rfl⟩
    · exact (modifyAt_fin ..).trans (if_congr (by rw [List.mem_singleton, eq_comm]) rfl rfl)
    · refine (if_neg fun ⟨j, mem, named⟩ => ?_).symm
      cases List.mem_singleton.mp mem
      exact nomatch current.symm.trans named
    · rw [List.countP_singleton, cutReleases_none c current]
      rfl
    · rw [List.flatMap_singleton, cutBodies_none current]
  | some r =>
    by_cases settled : (s.cutRecord r).outstanding = 0
    · exact spliceBypass_closes current (owned r current) settled
    · exact spliceBypass_leaves current (owned r current) settled

/-- A service's current record is its own (R91). -/
def State.OwnsCurrent (s : State) : Prop :=
  ∀ (i : Fin 64) (r : Fin 68), s.splice.services[i].current = some r → s.splice.records[r].service = i

theorem State.RoomFor.owns {n : Nat} (room : s.RoomFor n) : s.OwnsCurrent := fun i r current => (room.current i r current).2

/-- The services of a list leave the air one after another. -/
theorem gather_spliceBypass (l : List (Fin 64)) (nodup : l.Nodup)
    (owned : s.OwnsCurrent) :
    s.Cut (s.gather State.spliceBypass l).1 (s.gather State.spliceBypass l).2 l := by
  induction l generalizing s with
  | nil => exact cut_nil
  | cons i l ih =>
    obtain ⟨fresh, nodup⟩ := List.nodup_cons.mp nodup
    obtain ⟨services, records, entries, told, rest⟩ := spliceBypass_cut (owned i)
    rw [gather_cons]
    generalize s.spliceBypass i = p at services records entries told rest
    obtain ⟨u, bodies⟩ := p
    dsimp only at services records entries told rest ⊢
    have clock : u.clock = s.clock := (congrArg State.clock rest : _)
    have limits : u.limits = s.limits := (congrArg State.limits rest : _)
    have other {j : Fin 64} (mem : j ∈ l) : u.splice.services[j] = s.splice.services[j] := by
      rw [services, if_neg fun h => fresh ((List.mem_singleton.mp h : j = i) ▸ mem)]
    have kept {j : Fin 64} {r : Fin 68} (mem : j ∈ l) (current : s.splice.services[j].current = some r) :
        u.splice.records[r] = s.splice.records[r] := by
      rw [records, if_neg]
      rintro ⟨k, single, named⟩
      cases List.mem_singleton.mp single
      exact fresh (((owned i r named).symm.trans (owned j r current)) ▸ mem)
    have cut {j : Fin 64} {r : Fin 68} (mem : j ∈ l) (current : s.splice.services[j].current = some r) : u.cutRecord r = s.cutRecord r := by
      unfold State.cutRecord State.closeTicks
      rw [kept mem current, clock, limits]
    have ownsLeft : u.OwnsCurrent := fun j r current => by
      rw [services] at current
      split at current
      · exact nomatch current
      · next out =>
        rw [records, if_neg, owned j r current]
        rintro ⟨k, single, named⟩
        cases List.mem_singleton.mp single
        exact out (List.mem_singleton.mpr ((owned j r current).symm.trans (owned i r named)))
    obtain ⟨services', records', entries', told', rest'⟩ := ih nodup ownsLeft
    generalize u.gather State.spliceBypass l = p at services' records' entries' told' rest'
    obtain ⟨v, more⟩ := p
    dsimp only at services' records' entries' told' rest' ⊢
    refine ⟨fun j => ?_, fun r => ?_, fun c => ?_, ?_, ?_⟩
    · rw [services', services]
      by_cases mem : j ∈ l
      · rw [if_pos mem, if_pos (List.mem_cons_of_mem _ mem), if_neg fun h => fresh ((List.mem_singleton.mp h : j = i) ▸ mem)]
      · rw [if_neg mem]
        exact if_congr (by rw [List.mem_singleton, List.mem_cons]; exact (or_iff_left mem).symm) rfl rfl
    · rw [records']
      by_cases later : ∃ j ∈ l, s.splice.services[j].current = some r
      · obtain ⟨j, mem, current⟩ := later
        rw [if_pos ⟨j, mem, (other mem).symm ▸ current⟩, if_pos ⟨j, List.mem_cons_of_mem _ mem, current⟩]
        unfold State.leftRecord State.closedRecord
        rw [cut mem current]
      · have notLater : ¬ ∃ j ∈ l, u.splice.services[j].current = some r :=
          fun ⟨j, mem, current⟩ => later ⟨j, mem, (other mem) ▸ current⟩
        rw [if_neg notLater, records]
        refine if_congr ⟨fun ⟨j, mem, current⟩ => ⟨j, List.mem_cons.mpr (.inl (List.mem_singleton.mp mem)), current⟩,
          fun ⟨j, mem, current⟩ => ?_⟩ rfl rfl
        exact ⟨j, List.mem_singleton.mpr ((List.mem_cons.mp mem).resolve_right fun mem => later ⟨j, mem, current⟩), current⟩
    · rw [entries', entries, ContentEntry.given_given, List.countP_singleton, List.countP_cons]
      have rest : l.countP (u.cutReleases c) = l.countP (s.cutReleases c) := List.countP_congr fun j mem => by
        cases current : s.splice.services[j].current with
        | none => rw [cutReleases_none c current, cutReleases_none c ((other mem).symm ▸ current)]
        | some r => rw [cutReleases_some c current, cutReleases_some c ((other mem).symm ▸ current), kept mem current]
      rw [rest, add_comm]
    · have later : l.flatMap u.cutBodies = l.flatMap s.cutBodies := List.flatMap_congr fun j mem => by
        cases current : s.splice.services[j].current with
        | none => rw [cutBodies_none current, cutBodies_none ((other mem).symm ▸ current)]
        | some r =>
          rw [cutBodies_some current, cutBodies_some ((other mem).symm ▸ current)]
          unfold State.closedRecord
          rw [cut mem current]
      rw [told, told', later]
      simp
    · have both := congrArg (fun x : State => { x with
        splice := { x.splice with services := v.splice.services, records := v.splice.records }
        content := { x.content with entries := v.content.entries } }) rest
      exact rest'.trans both

end Sys2Proof.Machine
end

section
/-! SUPPORT. The Alert Unit's answer to the entry to BYPASS (06, R133, R134), and the flush of the cue queues (03, R72). -/

namespace Sys2Proof.Machine

variable {s t u : State}

/-! ## The Alert Unit's answer (R133, R134) -/

/-- The alert airs or ends: BYPASS ends it. -/
abbrev State.AlertLives (s : State) (e : Fin 4) : Prop := s.alert.entries[e].state = .active ∨ s.alert.entries[e].state = .ending

/-- An alert entry cut short by BYPASS. -/
def State.cutEntry (s : State) (e : Fin 4) : AlertEntry :=
  { s.alert.entries[e] with
    state := .closing, endReason := some .bypass, endTime := some s.clock, durationExpiry := none
    closeExpiry := some (after s.clock s.closeTicks) }

/-- The entry cut short, closed at once where nothing is outstanding. -/
def State.leftEntry (s : State) (e : Fin 4) : AlertEntry :=
  if (s.cutEntry e).outstanding = 0 then { s.cutEntry e with unconfirmed := 0 }.freed else s.cutEntry e

/-- What the end of an alert tells. -/
def State.entryBodies (s : State) (e : Fin 4) : List ReportBody :=
  if s.AlertLives e ∧ (s.cutEntry e).outstanding = 0 then [.alertAsRun e { s.cutEntry e with unconfirmed := 0 }] else []

/-- The end of an alert gives a hold of the content back. -/
def State.entryReleases (s : State) (c : Fin 128) (e : Fin 4) : Bool :=
  decide (s.AlertLives e ∧ s.alert.entries[e].outstanding = 0 ∧ s.alert.entries[e].content = c)

/-- The alerts of a list have ended. -/
structure State.Ended (s t : State) (bodies : List ReportBody) (l : List (Fin 4)) : Prop where
  alerts : ∀ e : Fin 4, t.alert.entries[e] = if e ∈ l ∧ s.AlertLives e then s.leftEntry e else s.alert.entries[e]
  entries : ∀ c : Fin 128, t.content.entries[c] = s.content.entries[c].given (l.countP (s.entryReleases c))
  told : bodies = l.flatMap s.entryBodies
  rest : t = { s with
    alert := { s.alert with entries := t.alert.entries }
    content := { s.content with entries := t.content.entries } }

theorem onEntry_const (e : Fin 4) (f : AlertEntry → AlertEntry) : s.onEntry e f = s.onEntry e fun _ => f s.alert.entries[e] :=
  congrArg (fun v => s.onAlert fun u => { u with entries := v }) (modifyAt_congr rfl)

theorem entryBypass_ended (e : Fin 4) : s.Ended (s.entryBypass e).1 (s.entryBypass e).2 [e] := by
  by_cases lives : s.AlertLives e
  · let cut := s.onEntry e fun _ => s.cutEntry e
    have entry : cut.alert.entries[e] = s.cutEntry e := onEntry_at s e _
    have left : s.entryBypass e = if (s.cutEntry e).outstanding = 0 then cut.closeEntry e 0 else (cut, []) := by
      let f := fun x : AlertEntry => { x with endReason := some .bypass }
      have closing : s.entryBypass e = (s.onEntry e f).entryClosing e := by
        unfold State.entryBypass
        rcases lives with h | h <;> rw [h]
      have moved : ((s.onEntry e f).onEntry e fun x =>
          { x with state := .closing, endTime := some s.clock, closeExpiry := some (after s.clock s.closeTicks), durationExpiry := none }) =
          cut := (onEntry_onEntry ..).trans (onEntry_const e _)
      rw [closing]
      unfold State.entryClosing
      dsimp only
      rw [onEntry_at s e f]
      exact congrArg (fun x : State => if s.alert.entries[e].outstanding = 0 then x.closeEntry e 0 else (x, [])) moved
    have lived (x : Fin 4) (y : AlertEntry) (is : y = s.leftEntry e) : (if e = x then y else s.alert.entries[x]) =
        if x ∈ [e] ∧ s.AlertLives x then s.leftEntry x else s.alert.entries[x] := by
      by_cases same : e = x
      · subst same
        rw [if_pos rfl, if_pos ⟨List.mem_singleton.mpr rfl, lives⟩, is]
      · rw [if_neg same, if_neg fun h => same (List.mem_singleton.mp h.1).symm]
    rw [left]
    by_cases settled : (s.cutEntry e).outstanding = 0
    · have closed : cut.closeEntry e 0 = ((cut.onEntry e fun _ => { s.cutEntry e with unconfirmed := 0 }.freed).releaseHold
          (s.cutEntry e).content, [.alertAsRun e { s.cutEntry e with unconfirmed := 0 }]) := by
        unfold State.closeEntry
        rw [entry]
      rw [if_pos settled, closed]
      refine ⟨fun x => ?_, fun c => ?_, ?_, rfl⟩
      · refine Eq.trans ?_ (lived x _ (if_pos settled).symm)
        have set_ := modifyAt_modifyAt s.alert.entries e (fun _ => s.cutEntry e) fun _ => { s.cutEntry e with unconfirmed := 0 }.freed
        exact (congrArg (fun v : Vector AlertEntry 4 => v[x]) set_).trans (modifyAt_fin ..)
      · refine (releaseHold_entry (s := cut.onEntry e fun _ => { s.cutEntry e with unconfirmed := 0 }.freed) ..).trans ?_
        have zero : s.alert.entries[e].outstanding = 0 := settled
        unfold State.entryReleases
        rw [List.countP_singleton]
        simp only [lives, zero, true_and, decide_eq_true_eq]
        rfl
      · rw [List.flatMap_singleton]
        exact (if_pos ⟨lives, settled⟩).symm
    · rw [if_neg settled]
      refine ⟨fun x => ?_, fun c => ?_, ?_, rfl⟩
      · exact (modifyAt_fin ..).trans (lived x _ (if_neg settled).symm)
      · rw [List.countP_singleton, if_neg fun h => settled (decide_eq_true_eq.mp h).2.1]
        rfl
      · rw [List.flatMap_singleton]
        exact (if_neg fun h => settled h.2).symm
  · have stays : s.entryBypass e = (s, []) := by
      unfold State.entryBypass
      split
      · next h => exact absurd (.inl h) lives
      · next h => exact absurd (.inr h) lives
      · rfl
      · rfl
    rw [stays]
    refine ⟨fun x => (if_neg fun h => ?_).symm, fun c => ?_, ?_, rfl⟩
    · cases List.mem_singleton.mp h.1
      exact lives h.2
    · rw [List.countP_singleton, if_neg fun h => lives (decide_eq_true_eq.mp h).1]
      rfl
    · rw [List.flatMap_singleton]
      exact (if_neg fun h => lives h.1).symm

/-- The alerts of a list end one after another. -/
theorem gather_entryBypass (l : List (Fin 4)) (nodup : l.Nodup) :
    s.Ended (s.gather State.entryBypass l).1 (s.gather State.entryBypass l).2 l := by
  induction l generalizing s with
  | nil => exact ⟨fun e => (if_neg fun h => List.not_mem_nil h.1).symm, fun c => rfl, rfl, rfl⟩
  | cons e l ih =>
    obtain ⟨fresh, nodup⟩ := List.nodup_cons.mp nodup
    obtain ⟨alerts, entries, told, rest⟩ := entryBypass_ended (s := s) e
    rw [gather_cons]
    generalize s.entryBypass e = p at alerts entries told rest
    obtain ⟨u, bodies⟩ := p
    dsimp only at alerts entries told rest ⊢
    have clock : u.clock = s.clock := (congrArg State.clock rest : _)
    have limits : u.limits = s.limits := (congrArg State.limits rest : _)
    have other {x : Fin 4} (mem : x ∈ l) : u.alert.entries[x] = s.alert.entries[x] :=
       (alerts x).trans (if_neg fun (h : x ∈ [e] ∧ s.AlertLives x) => fresh ((List.mem_singleton.mp h.1 : x = e) ▸ mem))
    have lives {x : Fin 4} (mem : x ∈ l) : u.AlertLives x ↔ s.AlertLives x := by
      unfold State.AlertLives
      rw [other mem]
    have cut {x : Fin 4} (mem : x ∈ l) : u.cutEntry x = s.cutEntry x := by
      unfold State.cutEntry State.closeTicks
      rw [other mem, clock, limits]
    obtain ⟨alerts', entries', told', rest'⟩ := ih (s := u) nodup
    generalize u.gather State.entryBypass l = p at alerts' entries' told' rest'
    obtain ⟨v, more⟩ := p
    dsimp only at alerts' entries' told' rest' ⊢
    refine ⟨fun x => ?_, fun c => ?_, ?_, ?_⟩
    · rw [alerts']
      by_cases mem : x ∈ l
      · have left : u.leftEntry x = s.leftEntry x := by
          unfold State.leftEntry
          rw [cut mem]
        exact if_congr ⟨fun h => ⟨List.mem_cons_of_mem _ mem, (lives mem).mp h.2⟩, fun h => ⟨mem, (lives mem).mpr h.2⟩⟩ left (other mem)
      · rw [if_neg fun h => mem h.1, alerts]
        exact if_congr (and_congr_left' (by rw [List.mem_singleton, List.mem_cons]; exact (or_iff_left mem).symm)) rfl rfl
    · rw [entries', entries, ContentEntry.given_given, List.countP_singleton, List.countP_cons]
      have rest : l.countP (u.entryReleases c) = l.countP (s.entryReleases c) := List.countP_congr fun x mem => by
        unfold State.entryReleases
        rw [decide_eq_true_eq, decide_eq_true_eq, lives mem, other mem]
      rw [rest, add_comm]
    · have later : l.flatMap u.entryBodies = l.flatMap s.entryBodies := List.flatMap_congr fun x mem => by
        unfold State.entryBodies
        rw [cut mem]
        exact if_congr (and_congr_left' (lives mem)) rfl rfl
      rw [told, told', later]
      simp
    · have both := congrArg (fun x : State => { x with
        alert := { x.alert with entries := v.alert.entries }
        content := { x.content with entries := v.content.entries } }) rest
      exact rest'.trans both

/-! ## The flush of the cue queues (R72) -/

/-- The end of a cue's test changes nothing at that service. -/
def State.AtRest (s : State) (i : Fin 64) : Prop :=
  { s.splice.services[i] with test := none, standbyQueue := [], state := s.splice.services[i].state.testEnds } = s.splice.services[i]

/-- The flushed entry held its content, for it was ARMED. -/
def heldBy (c : Fin 128) (e : QueueEntry) : Bool := decide (e.state = .armed ∧ e.cue.content = c)

/-- The answers to the cues of a queue. -/
def State.flushedBodies (s : State) (i : Fin 64) : List ReportBody := s.cue.queues[i].map fun e => spliceAnswer i e.cue .flushed none

/-- The queues of a list have been flushed. -/
structure State.Flushed (s t : State) (bodies : List ReportBody) (l : List (Fin 64)) : Prop where
  queues : ∀ i : Fin 64, t.cue.queues[i] = if i ∈ l then [] else s.cue.queues[i]
  entries : ∀ c : Fin 128, t.content.entries[c] = s.content.entries[c].given ((l.flatMap fun i => s.cue.queues[i]).countP (heldBy c))
  told : bodies = l.flatMap s.flushedBodies
  rest : t = { s with
    cue := { s.cue with queues := t.cue.queues }
    content := { s.content with entries := t.content.entries } }

theorem dropEntry_atRest {i : Fin 64} (rest : s.AtRest i) (e : QueueEntry) :
    s.dropEntry i e = if e.state = .armed then s.releaseHold e.cue.content else s := by
  unfold State.dropEntry
  refine if_congr Iff.rfl ?_ rfl
  exact congrArg (fun v => (s.releaseHold e.cue.content).onSplice fun u => { u with services := v }) (modifyAt_of_fixed rest)

/-- The entries of a queue are dropped, and the ARMED ones give their holds back. -/
theorem dropEntries_atRest {i : Fin 64} (rest : s.AtRest i) (l : List QueueEntry) :
    let t := l.foldl (fun s e => s.dropEntry i e) s
    (∀ c : Fin 128, t.content.entries[c] = s.content.entries[c].given (l.countP (heldBy c))) ∧
      t = { s with content := { s.content with entries := t.content.entries } } := by
  induction l generalizing s with
  | nil => exact ⟨fun c => rfl, rfl⟩
  | cons e l ih =>
    dsimp only
    rw [List.foldl_cons, dropEntry_atRest rest]
    by_cases armed : e.state = .armed
    · rw [if_pos armed]
      obtain ⟨entries, left⟩ := ih (s := s.releaseHold e.cue.content) rest
      refine ⟨fun c => ?_, left⟩
      rw [entries c, releaseHold_entry, ContentEntry.given_given, List.countP_cons, add_comm]
      refine congrArg (fun n => s.content.entries[c].given (_ + n)) (if_congr ?_ rfl rfl)
      simp [heldBy, armed]
    · rw [if_neg armed]
      obtain ⟨entries, left⟩ := ih (s := s) rest
      refine ⟨fun c => ?_, left⟩
      rw [entries c, List.countP_cons, if_neg fun h => armed (decide_eq_true_eq.mp h).1]
      rfl

theorem flushQueue_flushed {i : Fin 64} (rest : s.AtRest i) : s.Flushed (s.flushQueue i).1 (s.flushQueue i).2 [i] := by
  obtain ⟨entries, left⟩ := dropEntries_atRest rest s.cue.queues[i]
  unfold State.flushQueue
  dsimp only
  generalize s.cue.queues[i].foldl (fun s e => s.dropEntry i e) s = t at entries left
  have cue : t.cue = s.cue := (congrArg State.cue left : _)
  refine ⟨fun j => ?_, fun c => ?_, ?_, ?_⟩
  · refine (modifyAt_fin ..).trans ?_
    rw [cue]
    exact if_congr (by rw [List.mem_singleton, eq_comm]) rfl rfl
  · rw [List.flatMap_singleton]
    exact entries c
  · rw [List.flatMap_singleton]
    rfl
  · have moved := congrArg (fun x : State => x.onQueue i fun _ => []) left
    have queues : (t.onQueue i fun _ => []).cue.queues = (s.onQueue i fun _ => []).cue.queues :=
      congrArg (fun c : CueUnit => modifyAt c.queues i fun _ => []) cue
    rw [queues]
    exact moved

theorem gather_flushQueue (l : List (Fin 64)) (nodup : l.Nodup) (rest : ∀ i, s.AtRest i) :
    s.Flushed (s.gather State.flushQueue l).1 (s.gather State.flushQueue l).2 l := by
  induction l generalizing s with
  | nil => exact ⟨fun i => (if_neg List.not_mem_nil).symm, fun c => rfl, rfl, rfl⟩
  | cons i l ih =>
    obtain ⟨fresh, nodup⟩ := List.nodup_cons.mp nodup
    obtain ⟨queues, entries, told, left⟩ := flushQueue_flushed (rest i)
    rw [gather_cons]
    generalize s.flushQueue i = p at queues entries told left
    obtain ⟨u, bodies⟩ := p
    dsimp only at queues entries told left ⊢
    have splice : u.splice = s.splice := (congrArg State.splice left : _)
    have other {j : Fin 64} (mem : j ∈ l) : u.cue.queues[j] = s.cue.queues[j] := by
      rw [queues, if_neg fun h => fresh ((List.mem_singleton.mp h : j = i) ▸ mem)]
    obtain ⟨queues', entries', told', left'⟩ := ih (s := u) nodup fun j => by unfold State.AtRest; rw [splice]; exact rest j
    generalize u.gather State.flushQueue l = p at queues' entries' told' left'
    obtain ⟨v, more⟩ := p
    dsimp only at queues' entries' told' left' ⊢
    refine ⟨fun j => ?_, fun c => ?_, ?_, ?_⟩
    · rw [queues', queues]
      by_cases mem : j ∈ l
      · rw [if_pos mem, if_pos (List.mem_cons_of_mem _ mem)]
      · rw [if_neg mem]
        exact if_congr (by rw [List.mem_singleton, List.mem_cons]; exact (or_iff_left mem).symm) rfl rfl
    · have later : (l.flatMap fun j => u.cue.queues[j]) = l.flatMap fun j => s.cue.queues[j] := List.flatMap_congr fun j mem => other mem
      rw [entries', entries, ContentEntry.given_given, later, List.flatMap_singleton, List.flatMap_cons, List.countP_append]
    · have later : l.flatMap u.flushedBodies = l.flatMap s.flushedBodies := List.flatMap_congr fun j mem => by
        unfold State.flushedBodies
        rw [other mem]
      rw [told, told', later]
      simp
    · have both := congrArg (fun x : State => { x with
        cue := { x.cue with queues := v.cue.queues }
        content := { x.content with entries := v.content.entries } }) left
      exact left'.trans both

end Sys2Proof.Machine
end

section
/-! SUPPORT. The entry to BYPASS as a whole (10, R184): the blocks' answers, and the records they hand over. -/

namespace Sys2Proof.Machine

variable {s t u v : State}

/-! ## Records handed over in a free order (R166, R184) -/

/-- An interleaving keeps each list in its own order. -/
theorem interleave_sublist {α : Type} (fuel free : Nat) (lists : List (List α)) (enough : (lists.map List.length).sum ≤ fuel)
    (l : List α) (mem : l ∈ lists) : l.Sublist (interleave fuel free lists).1 := by
  induction fuel generalizing free lists l with
  | zero =>
    have short := List.le_sum_of_mem (List.mem_map_of_mem (f := List.length) mem)
    rw [List.length_eq_zero_iff.mp (Nat.le_zero.mp (short.trans enough))]
    exact List.nil_sublist _
  | succ fuel ih =>
    by_cases empty : l = []
    · rw [empty]
      exact List.nil_sublist _
    · have live : l ∈ lists.filter fun l => !l.isEmpty := List.mem_filter.mpr ⟨mem, by simp [empty]⟩
      have full : ∀ l ∈ lists.filter (fun l => !l.isEmpty), l ≠ [] := fun l here => by simpa using (List.mem_filter.mp here).2
      rw [← sum_filter lists] at enough
      unfold interleave
      generalize lists.filter (fun l => !l.isEmpty) = live at *
      split
      · exact absurd live List.not_mem_nil
      · rw [List.mem_singleton.mp live]
      · next a b more =>
        let pick := Config.orderChoice free % (a :: b :: more).length
        have lt : pick < (a :: b :: more).length := Nat.mod_lt _ (by simp)
        obtain ⟨-, sum⟩ := modify_tail (a :: b :: more) pick lt (full _ (List.getElem_mem lt))
        have later (m : List α) (here : m ∈ (a :: b :: more).modify pick List.tail) :=
          ih (free + 1) ((a :: b :: more).modify pick List.tail) (by omega) m here
        obtain ⟨j, inside, rfl⟩ := List.getElem_of_mem live
        have moved : ((a :: b :: more).modify pick List.tail)[j]'(by rw [List.length_modify]; exact inside) ∈
            (a :: b :: more).modify pick List.tail := List.getElem_mem _
        rw [List.getElem_modify] at moved
        by_cases same : pick = j
        · subst same
          rw [if_pos rfl] at moved
          have head : ((a :: b :: more).getD pick []).take 1 ++ (a :: b :: more)[pick].tail = (a :: b :: more)[pick] := by
            rw [List.getD_eq_getElem _ _ lt, ← List.drop_one, List.take_append_drop]
          have joined := (List.Sublist.refl (((a :: b :: more).getD pick []).take 1)).append (later _ moved)
          rw [head] at joined
          exact joined
        · rw [if_neg same] at moved
          exact (later _ moved).trans (List.sublist_append_right ..)

/-- What handing records over adds to the pending queue. -/
structure State.Hands (s t : State) (bodies : List ReportBody) (new : List ReportRecord) : Prop where
  queue : t.report.queue = s.report.queue ++ new
  asRuns : ∀ b ∈ bodies, b.isAsRun = true → b ∈ new.map ReportRecord.body
  whole : generalCount s.report.queue + bodies.countP (fun b => !b.isAsRun) ≤ 24 → new.map ReportRecord.body = bodies
  reservation : t.report.reservation = s.report.reservation
  holdoff : t.report.holdoff = s.report.holdoff

theorem produce_hands (b : ReportBody) : ∃ new, s.Hands (s.produce b) [b] new := by
  by_cases room : (b.isAsRun || decide (generalCount s.report.queue < Config.generalLimit)) = true
  · have made : (s.produce b).report = { s.report with
        production := s.report.production + 1, queue := s.report.queue ++ [⟨b, s.report.production, s.clock⟩] } := if_pos room
    refine ⟨[⟨b, s.report.production, s.clock⟩], (congrArg ReportUnit.queue made : _), fun c mem _ => ?_, fun _ => rfl,
      (congrArg ReportUnit.reservation made : _), (congrArg ReportUnit.holdoff made : _)⟩
    exact List.mem_singleton.mp mem ▸ List.mem_singleton.mpr rfl
  · have made : (s.produce b).report = { s.report with
        production := s.report.production + 1, dropped := min (s.report.dropped + 1) (2 ^ 32 - 1) } := if_neg room
    obtain ⟨general, full⟩ := not_or.mp fun h => room (Bool.or_eq_true_iff.mpr h)
    have full : 24 ≤ generalCount s.report.queue := Nat.not_lt.mp fun lt => full (decide_eq_true lt)
    refine ⟨[], (congrArg ReportUnit.queue made).trans (List.append_nil _).symm, fun c mem asRun => ?_, fun le => ?_,
      (congrArg ReportUnit.reservation made : _), (congrArg ReportUnit.holdoff made : _)⟩
    · exact absurd (List.mem_singleton.mp mem ▸ asRun) general
    · rw [List.countP_singleton, if_pos (by simpa using general)] at le
      omega

theorem produceAll_hands (bodies : List ReportBody) : ∃ new, s.Hands (s.produceAll bodies) bodies new := by
  induction bodies generalizing s with
  | nil => exact ⟨[], (List.append_nil _).symm, fun _ mem => absurd mem List.not_mem_nil, fun _ => rfl, rfl, rfl⟩
  | cons b bodies ih =>
    obtain ⟨new, first⟩ := produce_hands (s := s) b
    obtain ⟨more, rest⟩ := ih (s := s.produce b)
    have step : s.produceAll (b :: bodies) = (s.produce b).produceAll bodies := rfl
    rw [step]
    refine ⟨new ++ more, ?_, fun c mem asRun => ?_, fun le => ?_, rest.reservation.trans first.reservation, rest.holdoff.trans first.holdoff⟩
    · rw [← List.append_assoc, ← first.queue]
      exact rest.queue
    · rw [List.map_append, List.mem_append]
      rcases List.mem_cons.mp mem with here | later
      · exact .inl (first.asRuns c (List.mem_singleton.mpr here) asRun)
      · exact .inr (rest.asRuns c later asRun)
    · rw [List.countP_cons] at le
      have one : new.map ReportRecord.body = [b] := first.whole (by rw [List.countP_singleton]; omega)
      have general : generalCount (s.produce b).report.queue = generalCount s.report.queue + (if (!b.isAsRun) = true then 1 else 0) := by
        rw [first.queue]
        unfold generalCount
        rw [List.countP_append]
        have counted := congrArg (List.countP fun b : ReportBody => !b.isAsRun) one
        rw [List.countP_map, List.countP_singleton] at counted
        exact congrArg _ counted
      rw [List.map_append, one, rest.whole (by rw [general]; omega)]
      rfl

/-- Records of several blocks are handed over, each block's in its own order. -/
theorem produceUnordered_hands (lists : List (List ReportBody)) : ∃ bodies new, s.Hands (s.produceUnordered lists) bodies new ∧
    bodies.Perm lists.flatten ∧ (∀ l ∈ lists, l.Sublist bodies) ∧
    s.produceUnordered lists = { s with report := (s.produceUnordered lists).report, free := (s.produceUnordered lists).free } := by
  let p := interleave (lists.map List.length).sum s.free lists
  obtain ⟨new, hands⟩ := produceAll_hands (s := { s with free := p.2 }) p.1
  refine ⟨p.1, new, ⟨hands.queue, hands.asRuns, hands.whole, hands.reservation, hands.holdoff⟩, interleave_perm _ _ _ (le_refl _),
    interleave_sublist _ _ _ (le_refl _), ?_⟩
  have rest := told_rest { s with free := p.2 } p.1
  have free := congrArg State.free rest
  have same := congrArg (fun n => { s with report := (State.told { s with free := p.2 } p.1).report, free := n }) free
  exact rest.trans same.symm

/-! ## The entry, block by block -/

theorem toList_eq_map {α : Type} {n : Nat} (x : Vector α n) : x.toList = (List.finRange n).map fun i => x[i] :=
  List.ext_getElem (by simp) fun i _ _ => by simp

theorem flushAll_eq (s : State) : s.flushAll = s.gather State.flushQueue (List.finRange 64) := rfl

theorem bypassed_atRest {i : Fin 64} {f : SpliceFields} (left : s.splice.services[i] = f.bypassed) : s.AtRest i := by
  unfold State.AtRest
  rw [left]
  rfl

/-- The bytes that turn to memory move the requests and the reads alone (R149). -/
theorem allFromMemory_rest (p : PathUnit) : ∃ queue reads next,
    p.allFromMemory = { p with passQueue := queue, reads := reads, nextRequest := next } := by
  have fold (l : List ProcRead) (a : PathUnit × List ProcRead) : ∃ queue reads next,
      l.foldl (fun (acc : PathUnit × List ProcRead) r => ((acc.1.fromMemory r).1, acc.2 ++ [(acc.1.fromMemory r).2])) a =
        ({ a.1 with passQueue := queue, nextRequest := next }, reads) := by
    induction l generalizing a with
    | nil => exact ⟨_, _, _, rfl⟩
    | cons r l ih =>
      obtain ⟨queue, reads, next, eq⟩ := ih ((a.1.fromMemory r).1, a.2 ++ [(a.1.fromMemory r).2])
      exact ⟨queue, reads, next, eq⟩
  obtain ⟨queue, reads, next, eq⟩ := fold p.reads (p, [])
  exact ⟨queue, reads, next, congrArg (fun a : PathUnit × List ProcRead => { a.1 with reads := a.2 }) eq⟩

theorem bypassed_tables (p : PathUnit) : p.bypassed.staging = Vector.replicate 8 none ∧ p.bypassed.windows = p.windows ∧
    p.bypassed.activeTable = p.activeTable ∧ p.bypassed.stagedTable = p.stagedTable ∧ p.bypassed.phase = p.phase := by
  obtain ⟨queue, reads, next, eq⟩ := allFromMemory_rest { p with staging := Vector.replicate 8 none }
  unfold PathUnit.bypassed
  rw [eq]
  exact ⟨rfl, rfl, rfl, rfl, rfl⟩

theorem cutBodies_asRun {i : Fin 64} {b : ReportBody} (mem : b ∈ s.cutBodies i) : b.isAsRun = true := by
  unfold State.cutBodies at mem
  split at mem
  · split at mem
    · exact List.mem_singleton.mp mem ▸ rfl
    · exact absurd mem List.not_mem_nil
  · exact absurd mem List.not_mem_nil

theorem entryBodies_asRun {e : Fin 4} {b : ReportBody} (mem : b ∈ s.entryBodies e) : b.isAsRun = true := by
  unfold State.entryBodies at mem
  split at mem
  · exact List.mem_singleton.mp mem ▸ rfl
  · exact absurd mem List.not_mem_nil

/-- The blocks' answers, and the part state. -/
theorem enterBypass_does (owned : s.OwnsCurrent) (answer : List ReportBody) :
    s.Bypasses (s.enterBypass answer) answer ∧ (s.enterBypass answer).fault = { s.fault with part := .bypass } := by
  unfold State.enterBypass
  dsimp only
  have cut := gather_spliceBypass (s := s.onFault fun u => { u with part := .bypass }) (List.finRange 64) (List.nodup_finRange 64) owned
  generalize (s.onFault fun u => { u with part := .bypass }).gather State.spliceBypass (List.finRange 64) = p at cut ⊢
  obtain ⟨x, splices⟩ := p
  have ended := gather_entryBypass (s := x) (List.finRange 4) (List.nodup_finRange 4)
  dsimp only at cut ⊢
  generalize x.gather State.entryBypass (List.finRange 4) = p at ended ⊢
  obtain ⟨y, alerts⟩ := p
  dsimp only at ended ⊢
  rw [flushAll_eq]
  obtain ⟨services, records, given, told, rest⟩ := cut
  obtain ⟨entries, given', told', rest'⟩ := ended
  have flushed := gather_flushQueue (s := y.onAlert fun u => { u with overlays := Vector.replicate 64 .none }) (List.finRange 64)
    (List.nodup_finRange 64) fun i => bypassed_atRest (by
      rw [rest']
      exact (services i).trans (if_pos (List.mem_finRange i)))
  generalize (y.onAlert fun u => { u with overlays := Vector.replicate 64 .none }).gather State.flushQueue (List.finRange 64) = p at flushed ⊢
  obtain ⟨z, answers⟩ := p
  dsimp only at flushed ⊢
  obtain ⟨queues, given'', told'', rest''⟩ := flushed
  generalize x.splice.services = sv at services rest
  generalize x.splice.records = rv at records rest
  generalize x.content.entries = ev at given rest given'
  subst rest
  generalize y.alert.entries = av at entries rest'
  generalize y.content.entries = ev' at given' rest'
  subst rest'
  generalize z.cue.queues = qv at queues rest''
  generalize z.content.entries = ev'' at given'' rest''
  subst rest''
  obtain rfl : splices = (List.finRange 64).flatMap s.cutBodies := told.trans (List.flatMap_congr fun i _ => rfl)
  obtain rfl : alerts = (List.finRange 4).flatMap s.entryBodies := told'.trans (List.flatMap_congr fun i _ => rfl)
  obtain rfl : answers = (List.finRange 64).flatMap s.flushedBodies := told''.trans (List.flatMap_congr fun i _ => rfl)
  let lists := [(List.finRange 64).flatMap s.cutBodies, (List.finRange 4).flatMap s.entryBodies,
    (List.finRange 64).flatMap s.flushedBodies, answer]
  let y : State := { s with
    fault := { s.fault with part := .bypass }
    splice := { s.splice with services := sv, records := rv }
    alert := { s.alert with entries := av, overlays := Vector.replicate 64 .none }
    cue := { s.cue with queues := qv }
    content := ContentUnit.releaseBuffers { s.content with entries := ev'' }
    path := s.path.bypassed }
  change s.Bypasses (y.produceUnordered lists) answer ∧ (y.produceUnordered lists).fault = { s.fault with part := .bypass }
  obtain ⟨bodies, new, hands, perm, ordered, rest⟩ := produceUnordered_hands (s := y) lists
  generalize y.produceUnordered lists = v at hands rest
  have added : s.added v = new.map ReportRecord.body := by
    unfold State.added
    rw [hands.queue]
    exact congrArg (List.map ReportRecord.body) List.drop_left
  have asRun (l : List ReportBody) (inLists : l ∈ lists) (b : ReportBody) (mem : b ∈ l) (is : b.isAsRun = true) : b ∈ s.added v :=
    added ▸ hands.asRuns b ((ordered l inLists).subset mem) is
  have splice : v.splice = y.splice := (congrArg State.splice rest : _)
  have alert : v.alert = y.alert := (congrArg State.alert rest : _)
  have cue : v.cue = y.cue := (congrArg State.cue rest : _)
  have content : v.content = y.content := (congrArg State.content rest : _)
  have path : v.path = y.path := (congrArg State.path rest : _)
  refine ⟨?_, (congrArg State.fault rest : _)⟩
  refine ⟨fun i => ?services, fun i r current => ?current, fun r idle => ?records, fun e lives => ?ending, fun e still => ?entries, ?overlays,
    ?maps, ?queues, fun room => ?flushed, ?waiting, fun b => ?prefetch, fun d => ?demand, ?content, fun c => ?held, ?path, ?rest⟩
  case services =>
    rw [splice]
    exact (services i).trans (if_pos (List.mem_finRange i))
  case current =>
    intro cut
    have left : v.splice.records[r] = s.leftRecord r := by
      rw [splice]
      exact (records r).trans (if_pos ⟨i, List.mem_finRange i, current⟩)
    have is : s.cutRecord r = cut := rfl
    rw [left]
    unfold State.leftRecord
    rw [is]
    split
    · next settled =>
      refine ⟨rfl, asRun _ (List.mem_cons_self ..) _ (List.mem_flatMap.mpr ⟨i, List.mem_finRange i, ?_⟩) rfl⟩
      rw [cutBodies_some current, is, if_pos settled]
      exact List.mem_singleton.mpr rfl
    · rfl
  case records =>
    rw [splice]
    exact (records r).trans (if_neg fun ⟨i, _, current⟩ => idle i current)
  case ending =>
    intro cut
    have left : v.alert.entries[e] = s.leftEntry e := by
      rw [alert]
      exact (entries e).trans (if_pos ⟨List.mem_finRange e, lives⟩)
    have is : s.cutEntry e = cut := rfl
    rw [left]
    unfold State.leftEntry
    rw [is]
    split
    · next settled =>
      refine ⟨rfl, asRun _ (List.mem_cons_of_mem _ (List.mem_cons_self ..)) _ (List.mem_flatMap.mpr ⟨e, List.mem_finRange e, ?_⟩) rfl⟩
      unfold State.entryBodies
      rw [if_pos ⟨lives, settled⟩]
      exact List.mem_singleton.mpr rfl
    · rfl
  case entries =>
    rw [alert]
    refine (entries e).trans (if_neg fun h => ?_)
    rcases h.2 with lives | lives <;> rcases still with is | is <;> exact nomatch lives.symm.trans is
  case overlays => rw [alert]
  case maps => rw [alert]; exact ⟨rfl, rfl⟩
  case queues =>
    rw [cue]
    exact ⟨fun i => (queues i).trans (if_pos (List.mem_finRange i)), rfl, rfl⟩
  case flushed =>
    have splices : ((List.finRange 64).flatMap s.cutBodies).countP (fun b => !b.isAsRun) = 0 :=
      List.countP_eq_zero.mpr fun b mem => by
        obtain ⟨i, -, here⟩ := List.mem_flatMap.mp mem
        rw [cutBodies_asRun here]
        exact Bool.false_ne_true
    have alerts : ((List.finRange 4).flatMap s.entryBodies).countP (fun b => !b.isAsRun) = 0 :=
      List.countP_eq_zero.mpr fun b mem => by
        obtain ⟨i, -, here⟩ := List.mem_flatMap.mp mem
        rw [entryBodies_asRun here]
        exact Bool.false_ne_true
    have flushes : ((List.finRange 64).flatMap s.flushedBodies).length = (s.cue.queues.toList.map List.length).sum := by
      rw [List.length_flatMap, toList_eq_map, List.map_map]
      exact congrArg List.sum (List.map_congr_left fun i _ => List.length_map _)
    have counted := perm.countP_eq fun b : ReportBody => !b.isAsRun
    rw [show lists.flatten = (List.finRange 64).flatMap s.cutBodies ++ ((List.finRange 4).flatMap s.entryBodies ++
      ((List.finRange 64).flatMap s.flushedBodies ++ (answer ++ []))) from rfl, List.countP_append, List.countP_append,
      List.countP_append, splices, alerts, List.append_nil] at counted
    have few := List.countP_le_length (p := fun b : ReportBody => !b.isAsRun) (l := (List.finRange 64).flatMap s.flushedBodies)
    have fewAnswers := List.countP_le_length (p := fun b : ReportBody => !b.isAsRun) (l := answer)
    have whole : s.added v = bodies := added.trans (hands.whole (by
      have general : generalCount y.report.queue = s.report.queue.countP fun q => !q.body.isAsRun := rfl
      omega))
    rw [whole]
    exact ⟨ordered _ (List.mem_cons_of_mem _ (List.mem_cons_of_mem _ (List.mem_cons_self ..))),
      ordered _ (List.mem_cons_of_mem _ (List.mem_cons_of_mem _ (List.mem_cons_of_mem _ (List.mem_cons_self ..))))⟩
  case waiting => exact ⟨⟨new, hands.queue.symm⟩, hands.reservation, hands.holdoff⟩
  case prefetch =>
    have mapped : v.content.prefetch[b] = s.content.prefetch[b].release := by
      rw [content]
      exact Vector.getElem_map ..
    rw [mapped]
    cases s.content.prefetch[b] <;> rfl
  case demand =>
    have mapped : v.content.demand[d] = s.content.demand[d].letGo := by
      rw [content]
      exact Vector.getElem_map ..
    rw [mapped]
    cases s.content.demand[d] <;> rfl
  case content => rw [content]; exact ⟨rfl, rfl, rfl⟩
  case held =>
    have total : v.content.entries[c] = s.content.entries[c].given ((List.finRange 64).countP (s.cutReleases c) +
        (List.finRange 4).countP (s.entryReleases c) + ((List.finRange 64).flatMap fun i => s.cue.queues[i]).countP (heldBy c)) := by
      rw [content, ← ContentEntry.given_given, ← ContentEntry.given_given]
      refine (given'' c).trans (congrArg (fun e => ContentEntry.given e _) ?_)
      exact (given' c).trans (congrArg (fun e => ContentEntry.given e _) (given c))
    rw [total]
    refine congrArg (fun n => s.content.entries[c].given n) ?_
    unfold State.bypassReleases
    rw [add_comm, ← add_assoc]
    rfl
  case path => rw [path]; exact bypassed_tables s.path
  case rest =>
    exact ⟨(congrArg State.ingest rest : _), (congrArg State.slots rest : _), (congrArg State.timebase rest : _),
      (congrArg State.clock rest : _), (congrArg State.limits rest : _), (congrArg State.loader rest : _), (congrArg State.pending rest : _)⟩

end Sys2Proof.Machine
end

section
/-! SUPPORT. The part enters BYPASS by the pin, by a BYPASS cue, by an error (10, R180 to R185; 09, R175), and by the mode
TRANSPARENT at the release of RESET_N (11, R189, R193). -/

namespace Sys2Proof.Machine

variable {s t v : State} {answer : List ReportBody}

/-- What ends a command leaves the entry to BYPASS as it is. -/
theorem State.Bypasses.ended (h : s.Bypasses v answer) (ends : v.EndsAs t) : s.Bypasses t answer := by
  rw [ends.rest]
  exact ⟨h.services, h.current, h.records, h.ending, h.entries, h.overlays, h.maps, h.queues, h.flushed, h.waiting, h.prefetch, h.demand,
    h.content, h.held, h.path, h.rest⟩

/-- The entry to BYPASS does not look at the Fault Unit. -/
theorem State.Bypasses.onFault {f : FaultUnit → FaultUnit} (h : (s.onFault f).Bypasses v answer) : s.Bypasses v answer :=
  ⟨h.services, h.current, h.records, h.ending, h.entries, h.overlays, h.maps, h.queues, h.flushed, h.waiting, h.prefetch, h.demand,
    h.content, h.held, h.path, h.rest⟩

theorem State.EndsAs.fault (ends : v.EndsAs t) : t.fault = v.fault := (congrArg State.fault ends.rest : _)

theorem attn_of_bypass (ends : v.EndsAs t) (bypass : v.fault.part = .bypass) : t.report.attn = true := by
  rw [ends.attn]
  unfold State.attnCause
  rw [ends.fault, bypass]
  exact Bool.or_true _

/-! ## An error report (R175, R180 to R183) -/

section Raise

variable {k : ErrorKind} (index address : Nat) (packet : Option (List Byte))

theorem captureError_masked (masked : s.fault.policy[errorNumber k].masked = true) (c : Capture) :
    s.fault.captureError k c = (s.fault.capture, false) := if_pos masked

theorem captureError_unmasked (unmasked : s.fault.policy[errorNumber k].masked = false) (c : Capture) :
    s.fault.captureError k c = (some (s.fault.capture.getD c), s.fault.capture.isNone) := by
  refine (if_neg fun masked => Bool.false_ne_true (unmasked ▸ masked)).trans ?_
  cases s.fault.capture <;> rfl

/-- The holdoff entry after a record was produced. -/
def State.heldOff (s : State) : Holdoff := if s.limits.holdoff = 0 then .idle else .holding 0 (after s.clock s.holdoffTicks)

section Error

variable {e : ErrorReport}

theorem handError_idle (idle : s.report.holdoff[holdoffIndex e.kind e.index] = .idle) : s.handError e =
    (s.told [.error { e with repeats := 0 }]).onReport fun u => { u with
      holdoff := u.holdoff.set (holdoffIndex e.kind e.index) s.heldOff } := by
  unfold State.handError
  dsimp only
  rw [idle]
  rfl

theorem handError_lapsed {n : Nat} (lapsed : s.report.holdoff[holdoffIndex e.kind e.index] = .lapsed n) : s.handError e =
    (s.told [.error { e with repeats := n }]).onReport fun u => { u with
      holdoff := u.holdoff.set (holdoffIndex e.kind e.index) s.heldOff } := by
  unfold State.handError
  dsimp only
  rw [lapsed]
  rfl

theorem handError_holding {n : Nat} {x : StationTime} (holding : s.report.holdoff[holdoffIndex e.kind e.index] = .holding n x) :
    s.handError e = s.onReport fun u => { u with
      holdoff := u.holdoff.set (holdoffIndex e.kind e.index) (.holding (min (n + 1) (2 ^ 32 - 1)) x) } := by
  unfold State.handError
  dsimp only
  rw [holding]

end Error

/-- An error that acts on the latch: its record, the latch, and in OPERATING the entry to BYPASS. -/
theorem raise_acting (acts : s.fault.policy[errorNumber k].severity = .bypass ∨ k = .configError) :
    s.raise k index address packet =
      let effect : BypassEffect := if s.fault.part = .operating then .entered else .held
      let c := s.fault.captureError k ⟨k, index, s.clock, address, packet⟩
      let captured := s.onFault fun u => { u with capture := c.1 }
      let recorded := if s.fault.policy[errorNumber k].masked then captured
        else captured.handError ⟨k, index, address, packet, s.fault.policy[errorNumber k].severity, effect, c.2, c.1, 0⟩
      let latched := recorded.onFault fun u => u.setLatch (latchCause k)
      if s.fault.part = .operating then latched.enterBypass [] else latched := by
  have acting : s.fault.acts k = true := by
    unfold FaultUnit.acts
    rcases acts with severity | kind
    · rw [severity]
      rfl
    · rw [kind, Bool.or_eq_true]
      exact .inr rfl
  have effect : s.fault.effect k = if s.fault.part = .operating then .entered else .held := by
    unfold FaultUnit.effect
    rw [acting]
    cases s.fault.part <;> rfl
  unfold State.raise
  dsimp only
  rw [acting, effect]
  cases s.fault.part <;> rfl

end Raise

theorem latchCause_eq (k : ErrorKind) : latchCause k = if k = .configError then .config else .error := by
  cases k <;> rfl

end Sys2Proof.Machine

namespace Sys2Proof.Proofs

open Sys2Proof.Machine

/-- Settles O8: the pin and the BYPASS cue both have the part enter BYPASS, which the blocks answer. -/
theorem bypassEntry : Obligations.BypassEntry := by
  intro s ref out operating latch hold room
  have pinned := enterBypass_does (s := s.onFault fun u => { u with pinHold := true }) room.owns []
  have latched := enterBypass_does (s := s.onFault fun u => u.setLatch .cue) room.owns [cueAnswer ref 13 none none .done none]
  obtain ⟨t, pin, pinEnds⟩ := when_ends (b := !s.fault.pinHold) State.pinAsserted out (by rw [hold]; rfl)
  obtain ⟨u, cue, cueEnds⟩ := when_ends (b := s.takesCues) (fun s => s.handleBypass ref) out (by unfold State.takesCues; rw [operating]; rfl)
  have byPin : s.pinAsserted = (s.onFault fun u => { u with pinHold := true }).enterBypass [] := by
    unfold State.pinAsserted
    rw [operating]
    exact if_pos rfl
  have byCue : s.handleBypass ref = (s.onFault fun u => u.setLatch .cue).enterBypass [cueAnswer ref 13 none none .done none] := by
    unfold State.handleBypass State.bypassed
    rw [operating]
    exact if_neg (by decide)
  rw [byPin] at pinEnds
  rw [byCue] at cueEnds
  refine ⟨t, u, ?_, cue, pinEnds.fault.trans pinned.2, cueEnds.fault.trans (latched.2.trans ?_),
    attn_of_bypass pinEnds (congrArg FaultUnit.part pinned.2 : _), attn_of_bypass cueEnds (congrArg FaultUnit.part latched.2 : _),
    (pinned.1.ended pinEnds).onFault, (latched.1.ended cueEnds).onFault⟩
  · change execBypassNAssert s = _
    unfold execBypassNAssert
    rw [out]
    exact pin
  · exact congrArg (fun l => { s.fault with part := .bypass, latch := some (Option.getD l .cue) }) latch

/-- Settles O37: the record under the holdoff, then the severity. -/
theorem errorsCapturedAndRecorded : Obligations.ErrorsCapturedAndRecorded := by
  refine ⟨fun s k index address packet acts idle => ?acting, fun s k index address packet contain other => ?contained⟩
  case acting =>
    intro held next reported
    have is (effect : BypassEffect) (effectIs : (if s.fault.part = .operating then BypassEffect.entered else .held) = effect) :
        (let c := s.fault.captureError k ⟨k, index, s.clock, address, packet⟩
        let captured := s.onFault fun u => { u with capture := c.1 }
        let recorded := if s.fault.policy[errorNumber k].masked then captured
          else captured.handError ⟨k, index, address, packet, s.fault.policy[errorNumber k].severity,
            if s.fault.part = .operating then .entered else .held, c.2, c.1, 0⟩
        recorded.onFault fun u => u.setLatch (latchCause k)) = reported effect := by
      rw [effectIs]
      dsimp only
      change _ = State.onFault (if s.fault.policy[errorNumber k].masked = true then s else _) _
      cases masked : s.fault.policy[errorNumber k].masked with
      | true =>
        rw [captureError_masked masked]
        unfold FaultUnit.setLatch
        rw [latchCause_eq]
        rfl
      | false =>
        rw [captureError_unmasked masked]
        unfold FaultUnit.setLatch
        rw [latchCause_eq]
        refine congrArg (fun x : State => x.onFault fun u =>
          { u with latch := some (u.latch.getD (if k = .configError then .config else .error)) }) ?_
        exact handError_idle (s := s.onFault fun u => { u with capture := some held }) (e := ⟨k, index, address, packet, _, effect, _, _, 0⟩) idle
    refine ⟨fun still => ?_, fun operating room => ?_⟩
    · rw [raise_acting index address packet acts]
      exact (if_neg still).trans (is .held (if_neg still))
    · intro v
      have entered : v = (reported .entered).enterBypass [] := by
        refine (raise_acting index address packet acts).trans ((if_pos operating).trans ?_)
        exact congrArg (fun x : State => x.enterBypass []) (is .entered (if_pos operating))
      have splice : (reported .entered).splice = s.splice := by
        change State.splice (State.onFault (if s.fault.policy[errorNumber k].masked = true then s else _) _) = s.splice
        split <;> rfl
      have owned : (reported .entered).OwnsCurrent := by
        unfold State.OwnsCurrent
        rw [splice]
        exact room.owns
      rw [entered]
      exact ⟨(enterBypass_does owned []).2, (enterBypass_does owned []).1⟩
  case contained =>
    intro place captured held s' record next produced
    rw [raise_contained contain other]
    refine ⟨fun masked => ?_, fun unmasked => ?_⟩
    · rw [captureError_masked masked]
      exact if_pos masked
    · have recorded : (if s.fault.policy[errorNumber k].masked then s.onFault fun u => { u with capture := (s.fault.captureError k captured).1 }
          else (s.onFault fun u => { u with capture := (s.fault.captureError k captured).1 }).handError
            ⟨k, index, address, packet, .contain, .none, (s.fault.captureError k captured).2, (s.fault.captureError k captured).1, 0⟩) =
          s'.handError ⟨k, index, address, packet, .contain, .none, s.fault.capture.isNone, some held, 0⟩ := by
        rw [captureError_unmasked unmasked]
        exact if_neg fun masked => Bool.false_ne_true (unmasked ▸ masked)
      refine ⟨fun idle => recorded.trans ?_, fun n lapsed => recorded.trans ?_, fun n x holding => recorded.trans ?_⟩
      · exact handError_idle (s := s') idle
      · exact handError_lapsed (s := s') lapsed
      · exact handError_holding (s := s') holding

end Sys2Proof.Proofs
end

section
/-! SUPPORT. The end of start-up (11, R193), and what the entry to BYPASS leaves alone in every state (10, R184). -/

namespace Sys2Proof.Machine

variable {s t u : State}

/-! ## What the entry to BYPASS leaves alone -/

/-- The Fault Unit, the loader, the PID map, the cue ring and the records handed over are the same. -/
structure State.Alike (s t : State) : Prop where
  fault : t.fault = s.fault
  loader : t.loader = s.loader
  ingest : t.ingest = s.ingest
  ring : t.cue.ring = s.cue.ring
  report : t.report = s.report

theorem State.Alike.trans (first : s.Alike t) (second : t.Alike u) : s.Alike u :=
  ⟨second.fault.trans first.fault, second.loader.trans first.loader, second.ingest.trans first.ingest, second.ring.trans first.ring,
    second.report.trans first.report⟩

theorem State.Alike.refl (s : State) : s.Alike s := ⟨rfl, rfl, rfl, rfl, rfl⟩

theorem gather_alike {α : Type} {f : State → α → State × List ReportBody} (keeps : ∀ (s : State) a, s.Alike (f s a).1) (s : State) (l : List α) :
    s.Alike (s.gather f l).1 := by
  induction l generalizing s with
  | nil => exact .refl s
  | cons a l ih =>
    rw [gather_cons]
    exact (keeps s a).trans (ih _)

theorem cutShort_alike (s : State) (r : Fin 68) : s.Alike (s.cutShort r .bypass).1 := by
  rw [cutShort_bypass]
  dsimp only
  split
  · exact ⟨rfl, rfl, rfl, rfl, rfl⟩
  · exact ⟨rfl, rfl, rfl, rfl, rfl⟩

theorem spliceBypass_alike (s : State) (i : Fin 64) : s.Alike (s.spliceBypass i).1 := by
  unfold State.spliceBypass
  cases s.splice.services[i].current with
  | none => exact ⟨rfl, rfl, rfl, rfl, rfl⟩
  | some r =>
    obtain ⟨fault, loader, ingest, ring, report⟩ := cutShort_alike s r
    exact ⟨fault, loader, ingest, ring, report⟩

theorem entryClosing_alike (s : State) (e : Fin 4) : s.Alike (s.entryClosing e).1 := by
  unfold State.entryClosing
  dsimp only
  split <;> exact ⟨rfl, rfl, rfl, rfl, rfl⟩

theorem entryBypass_alike (s : State) (e : Fin 4) : s.Alike (s.entryBypass e).1 := by
  unfold State.entryBypass
  have ended : s.Alike (s.onEntry e fun x => { x with endReason := some .bypass }) := ⟨rfl, rfl, rfl, rfl, rfl⟩
  split
  · exact ended.trans (entryClosing_alike ..)
  · exact ended.trans (entryClosing_alike ..)
  · exact .refl s
  · exact .refl s

theorem flushQueue_alike (s : State) (i : Fin 64) : s.Alike (s.flushQueue i).1 := by
  have drops (l : List QueueEntry) (s : State) : s.Alike (l.foldl (fun s e => s.dropEntry i e) s) := by
    induction l generalizing s with
    | nil => exact .refl s
    | cons e l ih =>
      refine State.Alike.trans ?_ (ih _)
      change s.Alike (s.dropEntry i e)
      unfold State.dropEntry
      split <;> exact ⟨rfl, rfl, rfl, rfl, rfl⟩
  obtain ⟨fault, loader, ingest, ring, report⟩ := drops s.cue.queues[i] s
  exact ⟨fault, loader, ingest, ring, report⟩

/-- Whatever the state, the entry to BYPASS moves the part state, hands records over and keeps the loader, the PID map and the
cue ring. -/
theorem enterBypass_keeps (s : State) (answer : List ReportBody) :
    (s.enterBypass answer).fault = { s.fault with part := .bypass } ∧ (s.enterBypass answer).loader = s.loader ∧
      (s.enterBypass answer).ingest = s.ingest ∧ (s.enterBypass answer).cue.ring = s.cue.ring ∧
        s.report.queue <+: (s.enterBypass answer).report.queue := by
  unfold State.enterBypass
  dsimp only
  have splices := gather_alike spliceBypass_alike (s.onFault fun u => { u with part := .bypass }) (List.finRange 64)
  generalize (s.onFault fun u => { u with part := .bypass }).gather State.spliceBypass (List.finRange 64) = p at splices ⊢
  have alerts := gather_alike entryBypass_alike p.1 (List.finRange 4)
  generalize p.1.gather State.entryBypass (List.finRange 4) = q at alerts ⊢
  rw [flushAll_eq]
  have flushes := gather_alike flushQueue_alike (q.1.onAlert fun u => { u with overlays := Vector.replicate 64 .none }) (List.finRange 64)
  generalize (q.1.onAlert fun u => { u with overlays := Vector.replicate 64 .none }).gather State.flushQueue (List.finRange 64) = r at flushes ⊢
  have overlaid : q.1.Alike (q.1.onAlert fun u => { u with overlays := Vector.replicate 64 .none }) := ⟨rfl, rfl, rfl, rfl, rfl⟩
  obtain ⟨fault, loader, ingest, ring, report⟩ := ((splices.trans alerts).trans overlaid).trans flushes
  obtain ⟨bodies, new, hands, -, -, rest⟩ := produceUnordered_hands
    (s := (r.1.onContent ContentUnit.releaseBuffers).onPath PathUnit.bypassed) [p.2, q.2, r.2, answer]
  have queue : r.1.report.queue = s.report.queue := congrArg ReportUnit.queue report
  refine ⟨(congrArg State.fault rest : _).trans fault, (congrArg State.loader rest : _).trans loader,
    (congrArg State.ingest rest : _).trans ingest, (congrArg (fun x : State => x.cue.ring) rest : _).trans ring, new, ?_⟩
  exact (congrArg (· ++ new) queue).symm.trans hands.queue.symm

/-! ## A part in which nothing goes on enters BYPASS (R189) -/

/-- Nothing is queued, airs, or is fetched. -/
structure State.Blank (s : State) : Prop where
  services : ∀ i : Fin 64, s.splice.services[i] = {}
  entries : ∀ e : Fin 4, s.alert.entries[e].state = .free
  overlays : s.alert.overlays = Vector.replicate 64 .none
  queues : ∀ i : Fin 64, s.cue.queues[i] = []
  buffers : s.content.releaseBuffers = s.content
  path : s.path.bypassed = s.path

theorem gather_of_fixed {α : Type} {f : State → α → State × List ReportBody} (l : List α) (fixed : ∀ a ∈ l, f s a = (s, [])) :
    s.gather f l = (s, []) := by
  induction l with
  | nil => rfl
  | cons a l ih => rw [gather_cons, fixed a (List.mem_cons_self ..), ih fun b mem => fixed b (List.mem_cons_of_mem _ mem)]; rfl

theorem State.Blank.enterBypass (blank : s.Blank) : s.enterBypass [] = s.onFault fun u => { u with part := .bypass } := by
  let y := s.onFault fun u => { u with part := .bypass }
  have splices : y.gather State.spliceBypass (List.finRange 64) = (y, []) := gather_of_fixed _ fun i _ => by
    have fields : y.splice.services[i] = {} := blank.services i
    unfold State.spliceBypass
    rw [fields]
    refine Prod.ext ?_ rfl
    exact congrArg (fun v => y.onSplice fun u => { u with services := v }) (modifyAt_of_fixed (by rw [fields]; rfl))
  have alerts : y.gather State.entryBypass (List.finRange 4) = (y, []) := gather_of_fixed _ fun e _ => by
    have free : y.alert.entries[e].state = .free := blank.entries e
    unfold State.entryBypass
    rw [free]
  have flushes : y.gather State.flushQueue (List.finRange 64) = (y, []) := gather_of_fixed _ fun i _ => by
    have queue : y.cue.queues[i] = [] := blank.queues i
    unfold State.flushQueue
    rw [queue]
    refine Prod.ext ?_ rfl
    exact congrArg (fun v => y.onCue fun u => { u with queues := v }) (modifyAt_of_fixed queue.symm)
  have overlays : (y.onAlert fun u => { u with overlays := Vector.replicate 64 .none }) = y :=
    congrArg (fun o => y.onAlert fun u => { u with overlays := o }) blank.overlays.symm
  unfold State.enterBypass
  dsimp only
  rw [splices]
  dsimp only
  rw [alerts]
  dsimp only
  rw [overlays, flushAll_eq, flushes]
  dsimp only
  have released : ((y.onContent ContentUnit.releaseBuffers).onPath PathUnit.bypassed) = y := by
    have content := congrArg (fun c => { y with content := c, path := y.path.bypassed }) blank.buffers
    have path := congrArg (fun p => { y with path := p }) blank.path
    exact content.trans path
  rw [released]
  rfl

/-! ## The end of start-up (R193) -/

theorem takeCues_none (absent : s.cue.ring = none) (fuel : Nat) : State.takeCues fuel s = s := by
  cases fuel with
  | zero => rfl
  | succ fuel =>
    unfold State.takeCues
    rw [absent]

/-- The loader has ended start-up, and STARTED is told. -/
def State.startUpTold (s : State) (failure : Option StartFailure) : State :=
  (s.onLoader fun u => { u with stage := .ended, boot := none }).told
    [.started ((s.onLoader fun u => { u with stage := .ended, boot := none }).startReport failure)]

theorem endStartUp_bypass {failure : Option StartFailure} (absent : s.cue.ring = none) (enters : s.fault.enters = .bypass) :
    s.endStartUp failure = (s.startUpTold failure).enterBypass [] := by
  have same : (s.startUpTold failure).fault.enters = .bypass := enters
  have ended : s.endStartUp failure = State.takeCues cueFuel ((s.startUpTold failure).enterBypass []) := by
    unfold State.endStartUp
    dsimp only
    change State.takeCues cueFuel (match (s.startUpTold failure).fault.enters with
      | .bypass => (s.startUpTold failure).enterBypass []
      | .operating | .starting => _) = _
    rw [same]
  refine ended.trans (takeCues_none ((enterBypass_keeps ..).2.2.2.1.trans ?_) _)
  exact absent

theorem endStartUp_operating {failure : Option StartFailure} (absent : s.cue.ring = none) (enters : s.fault.enters = .operating) :
    s.endStartUp failure = (s.startUpTold failure).onFault fun u => { u with part := .operating } := by
  have same : (s.startUpTold failure).fault.enters = .operating := enters
  have ended : s.endStartUp failure =
      State.takeCues cueFuel ((s.startUpTold failure).onFault fun u => { u with part := .operating }) := by
    unfold State.endStartUp
    dsimp only
    change State.takeCues cueFuel (match (s.startUpTold failure).fault.enters with
      | .bypass => (s.startUpTold failure).enterBypass []
      | .operating | .starting => (s.startUpTold failure).onFault fun u => { u with part := .operating }) = _
    rw [same]
  refine ended.trans (takeCues_none ?_ _)
  exact absent

end Sys2Proof.Machine

namespace Sys2Proof.Proofs

open Sys2Proof.Machine

/-- Settles O6: each mode's load sequence begins; TRANSPARENT ends at once, in a part in which nothing goes on. -/
theorem releaseStartsTheLoad : Obligations.ReleaseStartsTheLoad := by
  have released (s : State) (mode1 mode0 : Bool) (held : s.resetHeld = true) : exec (.resetNRelease mode1 mode0) s =
      (({ s with resetHeld := false } : State).startLoading (startModeOf mode1 mode0)).did := if_pos held
  refine ⟨fun queue free pin => ?transparent, fun s held => ⟨?_, ?_, ?_⟩⟩
  case transparent =>
    intro s
    let x : State := { s with
      resetHeld := false
      loader := { s.loader with mode := some .transparent }
      fault := { s.fault with latch := some .transparent } }
    have blank : (x.startUpTold none).Blank := by
      refine ⟨fun i => ?_, fun e => ?_, rfl, fun i => ?_, ?_, ?_⟩
      · exact Vector.getElem_replicate ..
      · exact congrArg AlertEntry.state (Vector.getElem_replicate ..)
      · exact Vector.getElem_replicate ..
      · have prefetch : (Vector.replicate 256 Prefetch.free).map Prefetch.release = Vector.replicate 256 .free := Vector.map_replicate ..
        have demand : (Vector.replicate 4 Demand.free).map Demand.letGo = Vector.replicate 4 .free := Vector.map_replicate ..
        exact congrArg₂ (fun p d => ({ (x.startUpTold none).content with prefetch := p, demand := d } : ContentUnit)) prefetch demand
      · exact bypassed_of_no_reads (p := (x.startUpTold none).path) rfl
    have loaded : ({ s with resetHeld := false } : State).startLoading .transparent =
        (x.startUpTold none).onFault fun u => { u with part := .bypass } := by
      refine Eq.trans ?_ blank.enterBypass
      exact endStartUp_bypass (s := x) rfl (by cases pin <;> rfl)
    have unwritten : ((x.startUpTold none).onFault fun u => { u with part := .bypass }).issueWrite =
        (x.startUpTold none).onFault fun u => { u with part := .bypass } := by
      unfold State.issueWrite
      have window : ((x.startUpTold none).onFault fun u => { u with part := .bypass }).reportWindow = none := rfl
      rw [window]
    rw [released s false false rfl]
    change Host.Outcome.next (({ s with resetHeld := false } : State).startLoading .transparent).epilogue = _
    rw [loaded]
    unfold State.epilogue
    rw [unwritten]
    cases pin with
    | false => rfl
    | true => rfl
  all_goals
    rw [released s _ _ held]
    exact did_ends _

end Sys2Proof.Proofs
end

section
/-! SUPPORT. Start-up records (11, R190 to R193): what their handling leaves of the loader, and how a failure ends start-up. -/

namespace Sys2Proof.Machine

variable {s t u : State}

/-! ## A configuration record does not touch the loader -/

/-- The loader is the same. -/
abbrev State.KeepsLoader (s t : State) : Prop := t.loader = s.loader

theorem foldl_keepsLoader {α : Type} {f : State → α → State} (keeps : ∀ (s : State) a, s.KeepsLoader (f s a)) (l : List α) (s : State) :
    s.KeepsLoader (l.foldl f s) := by
  induction l generalizing s with
  | nil => rfl
  | cons a l ih => exact (ih (f s a)).trans (keeps s a)

theorem counted_loader (source : Source) (aired : Bool) : s.KeepsLoader (s.counted source aired) := by
  cases source with
  | insertion r g =>
    unfold State.counted
    dsimp only
    split
    · rfl
    · split <;> rfl
  | alert i g v =>
    unfold State.counted
    dsimp only
    split
    · rfl
    · split <;> rfl

theorem letGo_loader (named : Option (Fin 256)) (owner : Owner) : s.KeepsLoader (s.letGo named owner) := by
  cases named with
  | none => rfl
  | some p =>
    unfold State.KeepsLoader State.letGo
    dsimp only
    split <;> rfl

theorem discard_loader (w : Fin 16) (slot : Nat) (g : Generation) (d : Disposition) : s.KeepsLoader (s.discard w slot g d) := by
  rw [discard_eq]
  cases d.action with
  | insert f => exact (letGo_loader ..).trans (counted_loader ..)
  | pass r => rfl
  | null => rfl

theorem settleWindow_loader (s : State) (w : Fin 16) : s.KeepsLoader (s.settleWindow w) :=
  foldl_keepsLoader (fun s slot => by
    unfold State.KeepsLoader State.settleSlot
    dsimp only
    split
    · rfl
    · exact discard_loader ..) _ s

theorem setWait_loader (b : Fin 8) (w : StagingWait) : s.KeepsLoader (s.setWait b w) := by
  unfold State.KeepsLoader State.setWait
  split <;> rfl

theorem serveDemandWait_loader (s : State) : s.KeepsLoader s.serveDemandWait := by
  unfold State.KeepsLoader State.serveDemandWait
  split
  · exact setWait_loader ..
  · rfl

theorem letGoDemand_loader (b : Fin 8) (w : StagingWait) : s.KeepsLoader (s.letGoDemand b w) := by
  cases w with
  | demand d => exact serveDemandWait_loader _
  | nothing | ringSlot | prefetch p | demandListed => rfl

theorem freeStagingOf_loader (s : State) (w : Fin 16) : s.KeepsLoader (s.freeStagingOf w) :=
  foldl_keepsLoader (fun s b => by
    unfold State.KeepsLoader State.freeStaging
    split
    · exact letGoDemand_loader ..
    · rfl) _ s

theorem replaceWindow_loader (s : State) (i : Fin 16) (e : WindowEntry) : s.KeepsLoader (s.replaceWindow i e) := by
  have setUp (s : State) : s.KeepsLoader (s.setUpWindow i e) := by cases e <;> rfl
  have drop (s : State) (old : WindowEntry) (stays : Bool) : s.KeepsLoader (s.dropWindow i old stays) := by
    cases old with
    | ingest base slots stride rate =>
      unfold State.KeepsLoader State.dropWindow
      dsimp only
      split <;> simp only [State.onPath_loader, State.onIngest_loader, State.onSlots_loader] <;>
        exact (freeStagingOf_loader (s.settleWindow i) i).trans (settleWindow_loader s i)
    | view base source => exact freeStagingOf_loader s source
    | empty | cue base slots | report base records => rfl
  let placed := s.onPath fun p => { p with windows := p.windows.set i e }
  exact (setUp (placed.dropWindow i s.path.windows[i] (e.kindCode == 1))).trans
    (drop placed s.path.windows[i] (e.kindCode == 1))

theorem silenceOccurs_loader (s : State) (i : Fin 64) : s.KeepsLoader (s.silenceOccurs i) := by
  unfold State.KeepsLoader State.silenceOccurs
  split <;> rfl

theorem rearmAll_loader (s : State) : s.KeepsLoader s.rearmAll :=
  foldl_keepsLoader (fun s i => by
    unfold State.KeepsLoader State.rearmSilence
    split
    · rfl
    · split
      · dsimp only
        split
        · exact silenceOccurs_loader ..
        · rfl
      · rfl) _ s

/-- A configuration record is no matter of the loader's. -/
theorem configure_loader (s : State) (startup : Bool) (r : ConfigRecord) : s.KeepsLoader (s.configure startup r).1 := by
  cases r with
  | window r =>
    change s.KeepsLoader (s.applyWindow r).1
    unfold State.applyWindow
    split
    · dsimp only
      split
      · rfl
      · split
        · rfl
        · exact replaceWindow_loader ..
    · rfl
  | service r =>
    change s.KeepsLoader (s.applyService r).1
    unfold State.applyService
    split
    · dsimp only
      split
      · rfl
      · split
        · split <;> rfl
        · split
          · rfl
          · split
            · rfl
            · split <;> rfl
    · rfl
  | group r =>
    change s.KeepsLoader (s.applyGroup startup r).1
    unfold State.applyGroup
    split <;> rfl
  | arbiter r => rfl
  | limits r =>
    change s.KeepsLoader (s.applyLimits r).1
    unfold State.applyLimits
    dsimp only
    split
    · exact rearmAll_loader (s.onLimits fun l => l.apply r)
    · rfl
  | policy r =>
    change s.KeepsLoader (s.applyPolicy r).1
    unfold State.applyPolicy
    split
    · rfl
    · split <;> rfl

end Sys2Proof.Machine
end

section
/-! SUPPORT. How a failure ends start-up, and how the snoop takes boot records (11, R190 to R193). -/

namespace Sys2Proof.Machine

variable {s t u : State}

/-! ## A failure (R192, R193) -/

/-- A record handed over is appended, or the queue stays. -/
theorem produce_queue (b : ReportBody) : (s.produce b).report.queue = s.report.queue ∨
    ∃ r, (s.produce b).report.queue = s.report.queue ++ [r] := by
  unfold State.produce State.onReport ReportUnit.produce
  dsimp only
  split
  · exact .inr ⟨_, rfl⟩
  · exact .inl rfl

theorem handError_queue (e : ErrorReport) : (s.handError e).report.queue = s.report.queue ∨
    ∃ r, (s.handError e).report.queue = s.report.queue ++ [r] := by
  unfold State.handError
  dsimp only
  split
  · exact produce_queue _
  · exact produce_queue _
  · exact .inl rfl

/-- A CONFIG_ERROR at start-up sets the latch, and adds at most one record. -/
theorem raise_config (starting : s.fault.part = .starting) (address : Nat) :
    let w := s.raise .configError 0 address none
    w = { s with report := w.report, fault := w.fault } ∧ w.fault.latch = some (s.fault.latch.getD .config) ∧
      w.fault.pinHold = s.fault.pinHold ∧ (w.report.queue = s.report.queue ∨ ∃ r, w.report.queue = s.report.queue ++ [r]) := by
  intro w
  have still : s.fault.part ≠ .operating := by rw [starting]; decide
  let x := s.onFault fun u => { u with capture := (s.fault.captureError .configError ⟨.configError, 0, s.clock, address, none⟩).1 }
  let e : ErrorReport := ⟨.configError, 0, address, none, s.fault.policy[errorNumber .configError].severity, .held,
    (s.fault.captureError .configError ⟨.configError, 0, s.clock, address, none⟩).2,
    (s.fault.captureError .configError ⟨.configError, 0, s.clock, address, none⟩).1, 0⟩
  have raised : w = (if s.fault.policy[errorNumber .configError].masked then x else x.handError e).onFault fun u => u.setLatch .config := by
    refine (raise_acting 0 address none (.inr rfl)).trans ((if_neg still).trans ?_)
    rw [if_neg still]
    rfl
  rw [raised]
  split
  · exact ⟨rfl, rfl, rfl, .inl rfl⟩
  · refine ⟨?_, ?_, ?_, handError_queue (s := x) e⟩
    · rw [handError_rest]
      rfl
    · exact (congrArg (fun u : FaultUnit => some (u.latch.getD .config)) (handError_fault (s := x) e) : _)
    · exact (congrArg FaultUnit.pinHold (handError_fault (s := x) e) : _)

theorem told_one_left (b : ReportBody) : (s.told [b]).fault = s.fault ∧ (s.told [b]).loader = s.loader ∧
    (s.told [b]).path = s.path ∧ (s.told [b]).ingest = s.ingest := ⟨rfl, rfl, rfl, rfl⟩

/-- What a failure at start-up leaves. -/
structure State.Fails (s v : State) (f : StartFailure) : Prop where
  part : v.fault.part = .bypass
  latch : v.fault.latch = some (s.fault.latch.getD .config)
  stage : v.loader.stage = .ended
  boot : v.loader.boot = none
  windows : v.path.windows = s.path.windows
  ingest : v.ingest = s.ingest
  told : s.report.queue.countP (fun q => !q.body.isAsRun) < 23 →
    .started ⟨s.loader.mode.getD .transparent, some f, .bypass, s.fault.pinHold, s.loader.eepromLoaded, s.loader.eepromRefused,
      s.loader.bootLoaded, s.loader.bootRefused⟩ ∈ s.added v

theorem failStartUp_fails {f : StartFailure} (starting : s.fault.part = .starting) (absent : s.cue.ring = none) :
    s.Fails (s.failStartUp f) f := by
  obtain ⟨rest, latch, pinHold, queue⟩ := raise_config starting (64 * f.index)
  unfold State.failStartUp
  generalize s.raise .configError 0 (64 * f.index) none = w at rest latch pinHold queue ⊢
  have enters : w.fault.enters = .bypass := by
    unfold FaultUnit.enters
    rw [latch]
    exact if_pos (Bool.or_true _)
  have loader : w.loader = s.loader := (congrArg State.loader rest : _)
  have ring : w.cue.ring = none := (congrArg (fun x : State => x.cue.ring) rest : _).trans absent
  let body : ReportBody := .started ⟨s.loader.mode.getD .transparent, some f, .bypass, s.fault.pinHold, s.loader.eepromLoaded,
    s.loader.eepromRefused, s.loader.bootLoaded, s.loader.bootRefused⟩
  have told : w.startUpTold (some f) = (w.onLoader fun u => { u with stage := .ended, boot := none }).told [body] := by
    have report : (w.onLoader fun u => { u with stage := .ended, boot := none }).startReport (some f) =
        ⟨s.loader.mode.getD .transparent, some f, .bypass, s.fault.pinHold, s.loader.eepromLoaded, s.loader.eepromRefused,
          s.loader.bootLoaded, s.loader.bootRefused⟩ := by
      rw [← loader, ← pinHold, ← enters]
      rfl
    exact congrArg (fun r => (w.onLoader fun u => { u with stage := .ended, boot := none }).told [.started r]) report
  rw [endStartUp_bypass ring enters, told]
  clear told
  obtain ⟨new, hands⟩ := produceAll_hands (s := w.onLoader fun u => { u with stage := .ended, boot := none }) [body]
  obtain ⟨faultTold, loaderTold, pathTold, ingestTold⟩ := told_one_left (s := w.onLoader fun u => { u with stage := .ended, boot := none }) body
  have few_body : [body].countP (fun b => !b.isAsRun) ≤ 1 := List.countP_le_length
  change State.Hands _ (State.told _ [body]) _ _ at hands
  generalize (w.onLoader fun u => { u with stage := .ended, boot := none }).told [body] = y at hands faultTold loaderTold pathTold ingestTold ⊢
  obtain ⟨fault, loaderLeft, ingest, -, more, grown⟩ := enterBypass_keeps y []
  have path : (y.enterBypass []).path = y.path.bypassed := enterBypass_path y []
  rw [faultTold] at fault
  rw [loaderTold] at loaderLeft
  rw [ingestTold] at ingest
  rw [pathTold] at path
  refine ⟨(congrArg FaultUnit.part fault : _), (congrArg FaultUnit.latch fault : _).trans latch, (congrArg StartLoader.stage loaderLeft : _),
    (congrArg StartLoader.boot loaderLeft : _), ?_, ingest.trans (congrArg State.ingest rest : _), fun few => ?_⟩
  · rw [path]
    exact (bypassed_tables w.path).2.1.trans (congrArg (fun x : State => x.path.windows) rest : _)
  · have room : generalCount w.report.queue + [body].countP (fun b => !b.isAsRun) ≤ 24 := by
      unfold generalCount
      rcases queue with same | ⟨r, same⟩
      · rw [same]
        omega
      · rw [same, List.countP_append]
        have := List.countP_le_length (p := fun q : ReportRecord => !q.body.isAsRun) (l := [r])
        rw [List.length_singleton] at this
        omega
    have all := hands.whole room
    have whole : (y.enterBypass []).report.queue = w.report.queue ++ new ++ more :=
      grown.symm.trans (congrArg (· ++ more) hands.queue)
    have mem : body ∈ (new ++ more).map ReportRecord.body := by
      rw [List.map_append, all]
      exact List.mem_append_left _ (List.mem_singleton.mpr rfl)
    unfold State.added
    rw [whole, List.append_assoc]
    rcases queue with same | ⟨r, same⟩
    · rw [same, List.drop_left]
      exact mem
    · rw [same, List.append_assoc, List.drop_left, List.map_append]
      exact List.mem_append_right _ mem

/-! ## The snoop (R191) -/

/-- The snoop does not run, or its head slot is not committed. -/
def State.SnoopRests (s : State) : Prop :=
  s.loader.stage ≠ .snoop ∨ ∀ b, s.loader.boot = some b → b.committed.getD b.head false = false

theorem snoopBoot_rests (rests : s.SnoopRests) (fuel : Nat) : State.snoopBoot fuel s = s := by
  cases fuel with
  | zero => rfl
  | succ fuel =>
    unfold State.snoopBoot
    split
    · next boot snooping here =>
      rcases rests with other | uncommitted
      · exact absurd snooping other
      · exact if_neg fun committed => Bool.false_ne_true ((uncommitted boot here).symm.trans committed)
    · rfl

/-- One boot record is taken, and the snoop then rests. -/
theorem snoopBoot_takes {boot : BootShadow} (fuel : Nat) (snooping : s.loader.stage = .snoop) (here : s.loader.boot = some boot)
    (committed : boot.committed.getD boot.head false = true) (rests : (s.takeBoot boot).SnoopRests) :
    State.snoopBoot (fuel + 1) s = s.takeBoot boot := by
  unfold State.snoopBoot
  rw [snooping, here]
  exact (if_pos committed).trans (snoopBoot_rests rests fuel)

theorem loadedAs_ends {b : List Byte} (kind : recordKindByte b = 0xFF) : loadedAs b = .ends := if_pos kind

theorem loadedAs_record {b : List Byte} {r : ConfigRecord} (kind : recordKindByte b ≠ 0xFF) (record : configRecord b = some r) :
    loadedAs b = .record r := by
  refine (if_neg kind).trans ?_
  rw [record]

theorem loadedAs_failed {b : List Byte} (kind : recordKindByte b ≠ 0xFF) (unknown : configRecord b = none) : loadedAs b = .failed := by
  refine (if_neg kind).trans ?_
  rw [unknown]

theorem loadRecord_eq (s : State) (boot : Bool) (r : ConfigRecord) : s.loadRecord boot r =
    (s.configure true r).1.onLoader fun u => u.count boot ((s.configure true r).2 == .done) := rfl

/-- The count of a record leaves the stage and the boot shadow. -/
theorem loadRecord_loader (s : State) (boot : Bool) (r : ConfigRecord) :
    (s.loadRecord boot r).loader.stage = s.loader.stage ∧ (s.loadRecord boot r).loader.boot = s.loader.boot := by
  have kept := configure_loader s true r
  have counts (u : StartLoader) (accepted : Bool) : (u.count boot accepted).stage = u.stage ∧ (u.count boot accepted).boot = u.boot := by
    cases boot <;> cases accepted <;> exact ⟨rfl, rfl⟩
  rw [← kept]
  exact counts (s.configure true r).1.loader _

theorem bootShadow_write (b : BootShadow) (address : Nat) (data : BeatData) (enables : Enables) : b.write address data enables =
    { b with
      shadow := b.shadow.writeLanes address data (enabledLanes enables)
      committed :=
        if address % 64 = 48 ∧ ∀ k < 16, 8 ≤ k → enables.getLsbD k = true then b.committed.set (address / 64) true else b.committed } := by
  refine congrArg (fun c => { b with shadow := b.shadow.writeLanes address data (enabledLanes enables), committed := c }) ?_
  refine if_congr (and_congr_right fun _ => (extractLsb'_allOnes_iff enables 8 8).trans ⟨fun set k lt low => ?_, fun set k lt => ?_⟩) rfl rfl
  · have bit := set (k - 8) (by omega)
    rwa [Nat.add_sub_cancel' low] at bit
  · exact set (8 + k) (by omega) (by omega)

end Sys2Proof.Machine

namespace Sys2Proof.Proofs

open Sys2Proof.Machine

/-- Settles O9: a read of the EEPROM that ends, and a beat that the snoop takes a slot at. -/
theorem eepromRecordHandled : Obligations.EepromRecordHandled := by
  refine ⟨fun s k bytes out stage length => ?eeprom, fun s boot address data enables here => ⟨fun above => ?above, fun below => ?below⟩⟩
  case eeprom =>
    have ends {result : EepromRead} {x : State} (formed : result.wellFormed = true) (ended : s.eepromEnds k result = x) :
        ∃ t, exec (.eepromRecordRead result) s = .next t ∧ x.EndsAs t := by
      obtain ⟨t, executed, ends⟩ := onPort_ends (b := true) (fun s => s.eepromEnds k result) out rfl formed
      refine ⟨t, ?_, ended ▸ ends⟩
      change execEepromRecordRead result s = _
      unfold execEepromRecordRead
      rw [stage]
      exact executed
    have formed : (EepromRead.record bytes).wellFormed = true := decide_eq_true length
    refine ⟨fun r kind record more => ends formed ?record, fun kind mode hold latch absent => ends formed ?ends,
      fun boot kind mode here uncommitted => ends formed ?both, fun step starting absent => ?unreadable⟩
    case record =>
      unfold State.eepromEnds
      dsimp only
      rw [loadedAs_record kind record]
      dsimp only
      rw [if_pos (show k + 1 < Config.bootSlots from Nat.succ_lt_succ more), loadRecord_eq]
      unfold State.beginRead
      have counted : ((s.configure true r).1.onLoader fun u => u.count false ((s.configure true r).2 == .done)) =
          (s.configure true r).1.onLoader fun u =>
            if (s.configure true r).2 = .done then { u with eepromLoaded := u.eepromLoaded + 1 }
            else { u with eepromRefused := u.eepromRefused + 1 } :=
        congrArg (fun u => { (s.configure true r).1 with loader := u }) (count_eeprom (s.configure true r).1.loader (s.configure true r).2)
      rw [counted]
    case ends =>
      unfold State.eepromEnds
      dsimp only
      rw [loadedAs_ends kind]
      have single : s.endEeprom = s.endStartUp none := by
        unfold State.endEeprom
        rw [mode]
        exact if_neg (by decide)
      refine single.trans ((endStartUp_operating absent ?_).trans ?_)
      · unfold FaultUnit.enters
        rw [hold, latch]
        rfl
      · unfold State.startUpTold State.startReport FaultUnit.enters
        simp only [State.onLoader_fault, State.onLoader_loader, mode, hold, latch]
        rfl
    case both =>
      unfold State.eepromEnds
      dsimp only
      rw [loadedAs_ends kind]
      have both : s.endEeprom = State.snoopBoot Config.bootSlots (s.onLoader fun u => { u with stage := .snoop }) := if_pos mode
      refine both.trans (snoopBoot_rests (.inr fun b is => ?_) _)
      cases here.symm.trans is
      exact uncommitted
    case unreadable =>
      obtain ⟨t, executed, ended⟩ := ends (result := .unreadable step) rfl rfl
      have fails := failStartUp_fails (s := s) (f := ⟨false, k, .unreadable⟩) starting absent
      have rest := ended.rest
      refine ⟨t, executed, ?_, ?_, ?_, ?_, ?_, ?_⟩
      · exact (congrArg (fun x : State => x.fault.part) rest : _).trans fails.part
      · exact (congrArg (fun x : State => x.fault.latch) rest : _).trans fails.latch
      · exact (congrArg (fun x : State => x.loader.stage) rest : _).trans fails.stage
      · exact (congrArg (fun x : State => x.loader.boot) rest : _).trans fails.boot
      · exact (congrArg (fun x : State => x.path.windows) rest : _).trans fails.windows
      · exact (congrArg State.ingest rest : _).trans fails.ingest
  case above => exact if_neg fun h => absurd h.1 (Nat.not_lt.mpr above)
  case below =>
    intro next bytes taken
    have beat : s.bootBeat address data enables = State.snoopBoot Config.bootSlots (s.onLoader fun u => { u with boot := some next }) := by
      refine (if_pos ⟨below, by rw [here]; rfl⟩).trans (congrArg (State.snoopBoot Config.bootSlots) ?_)
      have written : s.loader.boot.map (fun b => b.write address data enables) = some next := by
        rw [here, Option.map_some, bootShadow_write]
      exact congrArg (fun b => s.onLoader fun u => { u with boot := b }) written
    rw [beat]
    refine ⟨fun rests => snoopBoot_rests (s := s.onLoader fun u => { u with boot := some next }) (rests.imp_right fun uncommitted b is => ?_) _, fun snooping committed after => ?takes⟩
    · cases is
      exact uncommitted
    case takes =>
      let x := s.onLoader fun u => { u with boot := some next }
      have takes (rests : (x.takeBoot next).SnoopRests) : State.snoopBoot Config.bootSlots x = x.takeBoot next :=
        snoopBoot_takes 255 snooping rfl committed rests
      refine ⟨fun r kind record more => ?record, fun kind hold latch absent => ?ends, fun kind unknown starting absent => ?fails⟩
      case record =>
        have loads : x.takeBoot next = taken.loadRecord true r := by
          unfold State.takeBoot
          dsimp only
          rw [show loadedAs (next.shadow.readBytes (64 * next.head) 64) = .record r from loadedAs_record kind record]
          exact if_pos (Nat.succ_lt_succ more)
        obtain ⟨-, bootLeft⟩ := loadRecord_loader taken true r
        refine (takes (.inr fun b is => ?_)).trans (loads.trans ?_)
        · rw [loads, bootLeft] at is
          cases is
          rw [List.getD_eq_getElem?_getD, List.getElem?_set_ne (Nat.succ_ne_self _).symm]
          exact List.getD_eq_getElem?_getD ▸ after
        · rw [loadRecord_eq]
          exact congrArg (fun u => { (taken.configure true r).1 with loader := u })
            (count_boot (taken.configure true r).1.loader (taken.configure true r).2)
      case ends =>
        have ended : x.takeBoot next = taken.endStartUp none := by
          unfold State.takeBoot
          dsimp only
          rw [show loadedAs (next.shadow.readBytes (64 * next.head) 64) = .ends from loadedAs_ends kind]
          rfl
        have operating : taken.endStartUp none = (taken.startUpTold none).onFault fun u => { u with part := .operating } := by
          refine endStartUp_operating absent ?_
          change s.fault.enters = _
          unfold FaultUnit.enters
          rw [hold, latch]
          rfl
        refine (takes (.inl ?_)).trans (ended.trans (operating.trans ?_))
        · rw [ended, operating]
          exact fun same => nomatch same
        · unfold State.startUpTold State.startReport FaultUnit.enters
          simp only [State.onLoader_fault, State.onLoader_loader, taken, hold, latch]
          rfl
      case fails =>
        have ended : x.takeBoot next = taken.failStartUp ⟨true, next.head, .unknownKind⟩ := by
          unfold State.takeBoot
          dsimp only
          rw [show loadedAs (next.shadow.readBytes (64 * next.head) 64) = .failed from loadedAs_failed kind unknown]
          rfl
        have fails := failStartUp_fails (s := taken) (f := ⟨true, next.head, .unknownKind⟩) starting absent
        have final := (takes (.inl (by rw [ended, fails.stage]; exact fun same => nomatch same))).trans ended
        intro v
        have reached : v = taken.failStartUp ⟨true, next.head, .unknownKind⟩ := final
        rw [reached]
        exact ⟨fails.part, fails.latch, fails.stage, fails.boot, fails.windows, fails.ingest, fails.told⟩

end Sys2Proof.Proofs
end

section
/-! SUPPORT. How a clock sample is handled (02, R31 to R42). -/

namespace Sys2Proof.Machine

variable {s : State} {i : Fin 64} {c : Clock} {x : Sample}

/-! ## The state of the clock that a sample finds -/

theorem sample_unanchored (unset : c.state = .none) :
    c.sample x = ({ c with state := .acquire, anchor := some (x.value, x.n), good := 0 }, none) := by
  unfold Clock.sample
  rw [unset]

/-- The jump of a clock that has an anchor, with its notice (R35). -/
def Clock.jumped (c : Clock) (x : Sample) (cause : JumpCause) (error : Option Int) (spacing : Nat) : Clock × Option SampleEvent :=
  (c.jump x, some ⟨.jump, some cause, error, some spacing⟩)

/-- The three tests of a sample against the anchor (R33 to R36). -/
theorem sample_anchored {last : Nat} {at_ : Count32} (live : c.state ≠ .none) (anchor : c.anchor = some (last, at_)) : c.sample x =
    if x.flag then c.jumped x .flag none (x.n - at_).toNat
    else if (x.n - at_).toNat = 0 ∨ 1048576 < (x.n - at_).toNat then c.jumped x .spacing none (x.n - at_).toNat
    else if jumpError < (clockError x.value ((last + ticksOf c.p (x.n - at_).toNat) % clockModulus)).natAbs then
      c.jumped x .error (some (clockError x.value ((last + ticksOf c.p (x.n - at_).toNat) % clockModulus))) (x.n - at_).toNat
    else c.normal x (clockError x.value ((last + ticksOf c.p (x.n - at_).toNat) % clockModulus)) (x.n - at_).toNat := by
  unfold Clock.sample
  rw [anchor]
  cases state : c.state with
  | none => exact absurd state live
  | acquire => rfl
  | locked => rfl

/-- The error is the one residue in its range (R34). -/
theorem clockError_eq {value predicted : Nat} {e : Int} (residue : ((value : Int) - predicted - e) % 2576980377600 = 0)
    (low : -1288490188800 ≤ e) (high : e < 1288490188800) : clockError value predicted = e := by
  unfold clockError
  rw [show ((clockModulus : Nat) : Int) = 2576980377600 from rfl]
  dsimp only
  omega

/-- A normal sample moves P and the anchor (R36). -/
def Clock.moved (c : Clock) (x : Sample) (e : Int) (d k : Nat) : Clock := { c with p := adjustP c.p e d k, anchor := some (x.value, x.n) }

/-- The notice of a change of lock (R37, R38). -/
def lockNotice (kind : ClockEventKind) (e : Int) (d : Nat) : SampleEvent := ⟨kind, none, some e, some d⟩

theorem normal_acquire {e : Int} {d : Nat} (acquiring : c.state = .acquire) : c.normal x e d =
    if 4 ≤ (if e.natAbs ≤ goodError then c.good + 1 else 0) then
      ({ c.moved x e d 2 with state := .locked, good := if e.natAbs ≤ goodError then c.good + 1 else 0, bad := 0 }, some (lockNotice .lock e d))
    else ({ c.moved x e d 2 with good := if e.natAbs ≤ goodError then c.good + 1 else 0 }, none) := by
  unfold Clock.normal
  split
  · next locked => exact nomatch acquiring.symm.trans locked
  · rfl
  · rfl

theorem normal_locked {e : Int} {d : Nat} (locked : c.state = .locked) : c.normal x e d =
    if 3 ≤ (if badError < e.natAbs then c.bad + 1 else 0) then
      ({ c.moved x e d 6 with state := .acquire, good := 0, bad := 0 }, some (lockNotice .unlock e d))
    else ({ c.moved x e d 6 with bad := if badError < e.natAbs then c.bad + 1 else 0 }, none) := by
  unfold Clock.normal
  split
  · rfl
  · next acquiring => exact nomatch locked.symm.trans acquiring
  · next unset => exact nomatch locked.symm.trans unset

/-! ## What a sample does to the state -/

theorem handleSample_quiet {moved : Clock} (here : s.timebase.clocks[i] = some c) (sampled : c.sample x = (moved, none)) :
    s.handleSample i x = s.setClock i (some (moved.stamp s.clock s.silenceTicks)) := by
  unfold State.handleSample
  rw [here]
  dsimp only
  rw [sampled]

theorem handleSample_event {moved : Clock} {e : SampleEvent} (here : s.timebase.clocks[i] = some c)
    (sampled : c.sample x = (moved, some e)) (steady : e.kind ≠ .jump) : s.handleSample i x =
      (s.setClock i (some (moved.stamp s.clock s.silenceTicks))).produce
        (.clockEvent ⟨i, e.kind, e.cause, c.state, e.error, e.spacing, moved.stamp s.clock s.silenceTicks⟩) := by
  unfold State.handleSample
  rw [here]
  dsimp only
  rw [sampled]
  exact if_neg steady

theorem handleSample_jumped {cause : JumpCause} {error : Option Int} {spacing : Nat} (here : s.timebase.clocks[i] = some c)
    (sampled : c.sample x = c.jumped x cause error spacing) : s.handleSample i x =
      ((s.setClock i (some ((c.jump x).stamp s.clock s.silenceTicks))).produce
        (.clockEvent ⟨i, .jump, some cause, c.state, error, some spacing, (c.jump x).stamp s.clock s.silenceTicks⟩)).jumpNotice i := by
  unfold State.handleSample
  rw [here]
  dsimp only
  rw [sampled]
  exact if_pos rfl

end Sys2Proof.Machine

namespace Sys2Proof.Proofs

open Sys2Proof.Machine

/-- Settles O29: by the clock state, then by the three tests of a sample against the anchor. -/
theorem clockSampleHandled : Obligations.ClockSampleHandled := by
  refine fun s i c x here => ⟨fun unset => handleSample_quiet here (sample_unanchored unset), fun last at_ live anchor => ?_⟩
  have tests := sample_anchored (x := x) live anchor
  intro d jumped
  have jumps {cause : JumpCause} {error : Option Int} (sampled : c.sample x = c.jumped x cause error d) :
      s.handleSample i x = jumped cause error := handleSample_jumped here sampled
  refine ⟨fun flag => jumps (tests.trans (if_pos flag)), fun unflagged spacing => jumps ?_, fun unflagged apart near e residue low high => ?_⟩
  · exact tests.trans ((if_neg (Bool.eq_false_iff.mp unflagged)).trans (if_pos spacing))
  · have sampled : c.sample x = if jumpError < e.natAbs then c.jumped x .error (some e) d else c.normal x e d := by
      have error : clockError x.value ((last + ticksOf c.p d) % clockModulus) = e := clockError_eq residue low high
      rw [← error]
      exact tests.trans ((if_neg (Bool.eq_false_iff.mp unflagged)).trans (if_neg (not_or.mpr ⟨apart, Nat.not_lt.mpr near⟩)))
    intro moved event
    refine ⟨fun far => jumps (sampled.trans (if_pos far)), fun close acquiring => ?_, fun close locked => ?_⟩
    · have normal := sampled.trans ((if_neg (Nat.not_lt.mpr close)).trans (normal_acquire acquiring))
      intro good
      split
      · next four => exact handleSample_event here (normal.trans (if_pos four)) (fun same => nomatch same)
      · next few => exact handleSample_quiet here (normal.trans (if_neg few))
    · have normal := sampled.trans ((if_neg (Nat.not_lt.mpr close)).trans (normal_locked locked))
      intro bad
      split
      · next three => exact handleSample_event here (normal.trans (if_pos three)) (fun same => nomatch same)
      · next few => exact handleSample_quiet here (normal.trans (if_neg few))

end Sys2Proof.Proofs
end

section
/-! SUPPORT. How a take settles what its slot held, and how the packet is checked and stored (01, R11 to R25; 07, R147). -/

namespace Sys2Proof.Machine

variable {s t x : State} {w : Fin 16} {slot : Nat}

/-! ## What the rules of a take keep -/

/-- The part, the error policy, the Window Table and the Slot Table are as they were. -/
structure State.KeepsTables (s t : State) : Prop where
  windows : t.path.windows = s.path.windows
  slots : t.slots = s.slots
  policy : t.fault.policy = s.fault.policy
  part : t.fault.part = s.fault.part

theorem State.KeepsTables.refl (s : State) : s.KeepsTables s := ⟨rfl, rfl, rfl, rfl⟩

theorem State.KeepsTables.trans (first : s.KeepsTables t) (second : t.KeepsTables x) : s.KeepsTables x :=
  ⟨second.windows.trans first.windows, second.slots.trans first.slots, second.policy.trans first.policy, second.part.trans first.part⟩

/-- Only the account of a source and its end change: the Splice Engine, the Alert Engine, the content holds and the reports. -/
structure State.KeepsIngest (s t : State) : Prop extends s.KeepsTables t where
  path : t.path = s.path
  ingest : t.ingest = s.ingest
  demand : t.content.demand = s.content.demand
  demandWait : t.content.demandWait = s.content.demandWait

theorem State.KeepsIngest.refl (s : State) : s.KeepsIngest s := ⟨.refl s, rfl, rfl, rfl, rfl⟩

theorem State.KeepsIngest.trans (first : s.KeepsIngest t) (second : t.KeepsIngest x) : s.KeepsIngest x :=
  ⟨first.toKeepsTables.trans second.toKeepsTables, second.path.trans first.path, second.ingest.trans first.ingest,
    second.demand.trans first.demand, second.demandWait.trans first.demandWait⟩

theorem told_keepsIngest (bodies : List ReportBody) : s.KeepsIngest (s.told bodies) := by
  rw [told_rest]
  exact ⟨⟨rfl, rfl, rfl, rfl⟩, rfl, rfl, rfl, rfl⟩

theorem raise_contained_policy {e : ErrorKind} (contain : s.fault.policy[errorNumber e].severity = .contain) (other : e ≠ .configError)
    (index address : Nat) (head : Option (List Byte)) : (s.raise e index address head).fault.policy = s.fault.policy := by
  rw [raise_contained contain other]
  dsimp only
  split
  · rfl
  · rw [handError_fault]
    rfl

theorem raise_contained_keepsIngest {e : ErrorKind} (contain : s.fault.policy[errorNumber e].severity = .contain)
    (other : e ≠ .configError) (index address : Nat) (head : Option (List Byte)) : s.KeepsIngest (s.raise e index address head) := by
  have rest := raise_contained_rest contain other index address head
  have path := raise_contained_path contain other index address head
  have content := raise_contained_content contain other index address head
  exact ⟨⟨congrArg PathUnit.windows path, (congrArg State.slots rest : _), raise_contained_policy contain other ..,
    raise_contained_part contain other ..⟩, path, (congrArg State.ingest rest : _), congrArg ContentUnit.demand content,
    congrArg ContentUnit.demandWait content⟩

theorem counted_keepsIngest (source : Source) (aired : Bool) : s.KeepsIngest (s.counted source aired) := by
  cases source with
  | insertion r g =>
    unfold State.counted
    dsimp only
    split
    · exact .refl s
    · split
      · refine .trans ?_ (told_keepsIngest _)
        exact ⟨⟨rfl, rfl, rfl, rfl⟩, rfl, rfl, rfl, rfl⟩
      · exact ⟨⟨rfl, rfl, rfl, rfl⟩, rfl, rfl, rfl, rfl⟩
  | alert i g v =>
    unfold State.counted
    dsimp only
    split
    · exact .refl s
    · split
      · refine .trans ?_ (told_keepsIngest _)
        exact ⟨⟨rfl, rfl, rfl, rfl⟩, rfl, rfl, rfl, rfl⟩
      · exact ⟨⟨rfl, rfl, rfl, rfl⟩, rfl, rfl, rfl, rfl⟩

theorem counted_prefetch (source : Source) (aired : Bool) : (s.counted source aired).content.prefetch = s.content.prefetch := by
  have told (y : State) (bodies : List ReportBody) : (y.told bodies).content = y.content := (congrArg State.content (told_rest y bodies) : _)
  cases source with
  | insertion r g =>
    unfold State.counted
    dsimp only
    split
    · rfl
    · split
      · rw [told]
        rfl
      · rfl
  | alert i g v =>
    unfold State.counted
    dsimp only
    split
    · rfl
    · split
      · rw [told]
        rfl
      · rfl

theorem letGo_unowned {p : Fin 256} {owner : Owner} (other : s.content.prefetch[p].owner ≠ some owner) : s.letGo (some p) owner = s :=
  if_neg other

theorem letGo_keepsIngest (named : Option (Fin 256)) (owner : Owner) : s.KeepsIngest (s.letGo named owner) := by
  cases named with
  | none => exact .refl s
  | some p =>
    unfold State.letGo
    dsimp only
    split
    · exact ⟨⟨rfl, rfl, rfl, rfl⟩, rfl, rfl, rfl, rfl⟩
    · exact .refl s

/-! ## The old disposition (R25) -/

theorem aside_iff : s.aside = true ↔ s.fault.part ≠ .operating := bne_iff_ne

/-- The record is unplayed in its settled state TAKEN, whether or not it is FILLING. -/
theorem unplayed_eq (r : SlotRecord) :
    r.unplayed = if r.state = .rest .taken ∨ r.state = .filling .taken then r.disposition else none := by
  unfold SlotRecord.unplayed
  rcases r.state with k | k <;> cases k <;> simp [SlotState.settled]

/-- The INGEST_OVERRUN of an old disposition (R25). -/
def State.overrun (s : State) (w : Fin 16) (slot : Nat) (d : Disposition) : State :=
  if d.bypassTake = true ∨ s.fault.part ≠ .operating then s
  else s.raise .ingestOverrun w.val (slotAddress s.path.windows[w] slot) none

/-- The old disposition is given up: its source is told, its prefetch buffer released (R25, R87). -/
def State.givenUp (s : State) (w : Fin 16) (slot : Nat) (g : Generation) (a : Action) : State :=
  match a with
  | .insert f => (s.counted f.source false).letGo f.prefetch ⟨w, slot, g⟩
  | .pass _ | .null => s

theorem oldSettled_unplayed {d : Disposition} (unplayed : (s.slotRecord w slot).unplayed = some d) :
    s.oldSettled w slot = (s.overrun w slot d).givenUp w slot (s.slotRecord w slot).generation d.action := by
  rw [unplayed_eq] at unplayed
  split at unplayed
  · next taken =>
    unfold State.oldSettled
    dsimp only
    rw [decide_eq_true taken, unplayed]
    rfl
  · exact nomatch unplayed

theorem oldSettled_played (played : (s.slotRecord w slot).unplayed = none) : s.oldSettled w slot = s := by
  rw [unplayed_eq] at played
  unfold State.oldSettled
  dsimp only
  split at played
  · next taken =>
    rw [decide_eq_true taken, played]
  · next other => rw [decide_eq_false other]

theorem settleOld_eq : s.settleOld w slot = s.oldSettled w slot := by
  unfold State.settleOld
  dsimp only
  split
  · next played => exact (oldSettled_played played).symm
  · next d unplayed =>
    rw [oldSettled_unplayed unplayed]
    refine (discard_eq ..).trans (congrArg (fun y : State => y.givenUp w slot (s.slotRecord w slot).generation d.action) ?_)
    exact if_congr (Bool.or_eq_true_iff.trans (or_congr_right aside_iff)) rfl rfl

theorem overrun_keepsIngest (contain : s.fault.policy[errorNumber .ingestOverrun].severity = .contain) (d : Disposition) :
    s.KeepsIngest (s.overrun w slot d) := by
  unfold State.overrun
  split
  · exact .refl s
  · exact raise_contained_keepsIngest contain (by decide) ..

theorem overrun_prefetch (contain : s.fault.policy[errorNumber .ingestOverrun].severity = .contain) (d : Disposition) :
    (s.overrun w slot d).content.prefetch = s.content.prefetch := by
  unfold State.overrun
  split
  · rfl
  · exact congrArg ContentUnit.prefetch (raise_contained_content contain (by decide) ..)

theorem givenUp_keepsIngest (g : Generation) (a : Action) : s.KeepsIngest (s.givenUp w slot g a) := by
  cases a with
  | pass r => exact .refl s
  | null => exact .refl s
  | insert f => exact (counted_keepsIngest ..).trans (letGo_keepsIngest ..)

theorem oldSettled_keepsIngest (contain : s.fault.policy[errorNumber .ingestOverrun].severity = .contain) :
    s.KeepsIngest (s.oldSettled w slot) := by
  cases unplayed : (s.slotRecord w slot).unplayed with
  | none =>
    rw [oldSettled_played unplayed]
    exact .refl s
  | some d =>
    rw [oldSettled_unplayed unplayed]
    exact (overrun_keepsIngest contain d).trans (givenUp_keepsIngest ..)

/-! ## The staging buffer of the old take (R147) -/

theorem mapSources_mapSources (f g : ByteSource → ByteSource) : (s.mapSources f).mapSources g = s.mapSources (g ∘ f) := by
  refine congrArg (fun l => s.onPath fun p => { p with reads := l }) ((List.map_map ..).trans (List.map_congr_left fun r _ => ?_))
  refine congrArg (fun l => { r with beats := l }) ((List.map_map ..).trans (List.map_congr_left fun b _ => ?_))
  exact congrArg (fun l => { b with bytes := l }) (List.map_map ..)

theorem mapSources_congr {f g : ByteSource → ByteSource} (same : ∀ x, f x = g x) : s.mapSources f = s.mapSources g :=
  congrArg s.mapSources (funext same)

/-- A slot that no reclaimed buffer serves: nothing in hand is decided again. -/
theorem takeBack_untaken (untaken : ∀ p ∈ s.path.reads, ∀ b ∈ p.beats, ∀ x ∈ b.bytes, ∀ at_ k address u,
    x = .packet at_ k address (.reclaimed u) → ¬ (at_.window = w ∧ at_.slot = slot)) : s.mapSources (ByteSource.takeBack w slot) = s := by
  refine congrArg (fun l => s.onPath fun p => { p with reads := l }) ((List.map_congr_left fun r mem => ?_).trans (List.map_id s.path.reads))
  refine ProcRead.mapSources_of_fixed fun b here x byte => ?_
  unfold ByteSource.takeBack ByteSource.mapPacket
  cases x with
  | packet at_ k a serving =>
    cases serving with
    | reclaimed u => exact congrArg (ByteSource.packet at_ k a) (if_neg (untaken r mem b here _ byte at_ k a u rfl))
    | undecided | waiting | buffer c => rfl
  | got v | failed v | memory r o | overtaken k a => rfl

/-- What is in hand from a reclaimed buffer of the slot is decided afresh. -/
theorem takeBack_decided : s.mapSources (ByteSource.takeBack w slot) = s.decidedAfresh w slot none := by
  refine (mapSources_congr fun x => ?_ : s.mapSources _ = s.mapSources _)
  cases x with
  | packet at_ k a serving =>
    cases serving with
    | reclaimed u =>
      unfold ByteSource.takeBack ByteSource.mapPacket
      simp only [decide_eq_true_eq]
    | undecided | waiting | buffer b => rfl
  | got v | failed v | memory r o | overtaken k a => rfl

/-- Bytes that a HELD buffer serves, and what is in hand from a reclaimed one, are decided afresh. -/
theorem reserve_decided (b : Fin 8) :
    (s.mapSources (ByteSource.reserve b .undecided)).mapSources (ByteSource.takeBack w slot) = s.decidedAfresh w slot (some b) := by
  refine (mapSources_mapSources ..).trans (mapSources_congr fun x => ?_ : s.mapSources _ = s.mapSources _)
  cases x with
  | packet at_ k a serving =>
    cases serving with
    | reclaimed u =>
      simp [ByteSource.takeBack, ByteSource.reserve, ByteSource.mapPacket]
    | buffer c =>
      by_cases own : c = b
      · subst own
        simp [ByteSource.takeBack, ByteSource.reserve, ByteSource.mapPacket]
      · simp [ByteSource.takeBack, ByteSource.reserve, ByteSource.mapPacket, own, Ne.symm own]
    | undecided | waiting => rfl
  | got v | failed v | memory r o | overtaken k a => rfl

/-- The demand fetch of a buffer that becomes VOID is let go (R89). -/
theorem letGoDemand_left {b : Fin 8} {wait : StagingWait}
    (waits : ∀ d, wait = .demand d → (∃ target, s.content.demand[d] = .loading (some b) target) ∧ s.content.demandWait = []) :
    s.letGoDemand b wait = s.demandLeft b wait := by
  cases wait with
  | demandListed | nothing | ringSlot => rfl
  | prefetch p => rfl
  | demand d =>
    obtain ⟨⟨target, loading⟩, idle⟩ := waits d rfl
    rw [letGoDemand_last idle]
    unfold State.demandLeft
    dsimp only
    rw [loading]
    refine congrArg (fun x => s.onContent fun c => { c with demand := s.content.demand.set d x }) ?_
    rw [loading]
    rfl

/-- At most one buffer serves the slot: the first that does is the whole list. -/
theorem stagingFor_one (one : ∀ b b', s.Serves w slot b → s.Serves w slot b' → b = b') {b : Fin 8} (serves : s.Serves w slot b) :
    stagingFor s.path.staging w slot (s.slotRecord w slot).generation = [b] := by
  have only : ∀ b : Fin 8, (List.finRange 8).filter (fun c => decide (c = b)) = [b] := by decide
  refine (List.filter_congr fun c _ => ?_).trans (only b)
  refine Bool.eq_iff_iff.mpr ⟨fun test => decide_eq_true (one c b (mem_stagingFor.mp (List.mem_filter.mpr ⟨List.mem_finRange c, test⟩)) serves),
    fun same => ?_⟩
  rw [of_decide_eq_true same]
  exact (List.mem_filter.mp (mem_stagingFor.mpr serves)).2

theorem settleStaging_none (idle : ∀ b, ¬ s.Serves w slot b) : s.settleStaging w slot = s.decidedAfresh w slot none := by
  unfold State.settleStaging
  rw [stagingFor_none fun b u used same => idle b ⟨u, used, same⟩]
  exact takeBack_decided

theorem stagingSettled_none (idle : ∀ b, ¬ s.Serves w slot b) : s.stagingSettled w slot = s.decidedAfresh w slot none := by
  unfold State.stagingSettled
  dsimp only
  split
  · rfl
  · next b first =>
    have test := List.find?_some first
    split at test
    · next u used => exact absurd ⟨u, used, of_decide_eq_true test⟩ (idle b)
    · exact absurd test Bool.false_ne_true

/-- A buffer of the slot that is given up before its packet has come. -/
def StagingUse.voided (u : StagingUse) : StagingUse := { u with void := true, packet := some nullPacket, deadline := none, wait := .nothing }

theorem stagingSettled_one (one : ∀ b b', s.Serves w slot b → s.Serves w slot b' → b = b') {b : Fin 8} {u : StagingUse}
    (used : s.path.staging[b] = some u) (serves : u.window = w ∧ u.slot = slot ∧ u.generation = (s.slotRecord w slot).generation) :
    s.stagingSettled w slot =
      if u.held then (s.setStaging b none).decidedAfresh w slot (some b)
      else (((s.setStaging b (some u.voided)).demandLeft b u.wait).raise .ingestOverrun w.val
        (slotAddress s.path.windows[w] slot) none).decidedAfresh w slot none := by
  unfold State.stagingSettled
  dsimp only
  split
  · next missed =>
    have test := List.find?_eq_none.mp missed b (List.mem_finRange b)
    rw [used] at test
    exact absurd (decide_eq_true serves) test
  · next c first =>
    have test := List.find?_some first
    split at test
    · next v found =>
      obtain rfl := one c b ⟨v, found, of_decide_eq_true test⟩ ⟨u, used, serves⟩
      rw [used]
      rfl
    · exact absurd test Bool.false_ne_true

/-- One staging buffer at most is settled at a take (R147). -/
theorem settleStaging_eq (one : ∀ b b', s.Serves w slot b → s.Serves w slot b' → b = b')
    (waits : ∀ b u d, s.Serves w slot b → s.path.staging[b] = some u → u.wait = .demand d →
      (∃ target, s.content.demand[d] = .loading (some b) target) ∧ s.content.demandWait = []) :
    s.settleStaging w slot = s.stagingSettled w slot := by
  by_cases served : ∃ b, s.Serves w slot b
  · obtain ⟨b, u, used, serves⟩ := served
    rw [stagingSettled_one one used serves]
    unfold State.settleStaging
    rw [stagingFor_one one ⟨u, used, serves⟩, List.foldl_cons, List.foldl_nil]
    unfold State.takeFromStaging
    rw [used]
    dsimp only
    by_cases held : u.held = true
    · rw [if_pos held, if_pos held]
      exact reserve_decided b
    · rw [if_neg held, if_neg held, takeBack_decided]
      refine congrArg (fun y : State => (y.raise .ingestOverrun w.val (slotAddress s.path.windows[w] slot) none).decidedAfresh w slot none) ?_
      unfold State.voidStaging
      rw [used]
      exact letGoDemand_left (s := s.setStaging b (some u.voided)) fun d wait => waits b u d ⟨u, used, serves⟩ used wait
  · have idle (b : Fin 8) (serves : s.Serves w slot b) : False := served ⟨b, serves⟩
    rw [settleStaging_none idle, stagingSettled_none idle]

theorem demandLeft_keeps (b : Fin 8) (wait : StagingWait) :
    s.KeepsTables (s.demandLeft b wait) ∧ (s.demandLeft b wait).ingest = s.ingest := by
  unfold State.demandLeft
  split
  · exact ⟨⟨rfl, rfl, rfl, rfl⟩, rfl⟩
  · split
    · exact ⟨⟨rfl, rfl, rfl, rfl⟩, rfl⟩
    · exact ⟨.refl s, rfl⟩
  · exact ⟨.refl s, rfl⟩
  · exact ⟨.refl s, rfl⟩
  · exact ⟨.refl s, rfl⟩

theorem stagingSettled_keeps (contain : s.fault.policy[errorNumber .ingestOverrun].severity = .contain) :
    s.KeepsTables (s.stagingSettled w slot) ∧ (s.stagingSettled w slot).ingest = s.ingest := by
  have afresh (y : State) (b : Option (Fin 8)) : y.KeepsTables (y.decidedAfresh w slot b) := ⟨rfl, rfl, rfl, rfl⟩
  unfold State.stagingSettled
  dsimp only
  split
  · exact ⟨afresh s none, rfl⟩
  · next b _ =>
    split
    · exact ⟨.refl s, rfl⟩
    · next u _ =>
      split
      · exact ⟨⟨rfl, rfl, rfl, rfl⟩, rfl⟩
      · obtain ⟨left, ingest⟩ := demandLeft_keeps (s := s.setStaging b (some u.voided)) b u.wait
        have raised := raise_contained_keepsIngest (s := (s.setStaging b (some u.voided)).demandLeft b u.wait) (e := .ingestOverrun)
          (by rw [left.policy]; exact contain) (by decide) w.val (slotAddress s.path.windows[w] slot) none
        have set : s.KeepsTables (s.setStaging b (some u.voided)) := ⟨rfl, rfl, rfl, rfl⟩
        exact ⟨((set.trans left).trans raised.toKeepsTables).trans (afresh _ none), raised.ingest.trans ingest⟩

/-! ## A take (R12, R25) -/

/-- The Slot Table stores the disposition of a take (R25). -/
theorem storeTake_eq (action : Action) : s.storeTake w slot action = s.onSlot w slot fun r =>
    ⟨.rest .taken, r.generation + 1, some (if s.fault.part = .operating then ⟨action, false⟩ else ⟨.pass none, true⟩)⟩ := by
  have same : (if s.aside then (⟨.pass none, true⟩ : Disposition) else ⟨action, false⟩) =
      if s.fault.part = .operating then ⟨action, false⟩ else ⟨.pass none, true⟩ := by
    by_cases operating : s.fault.part = .operating
    · rw [if_pos operating]
      exact if_neg fun aside => aside_iff.mp aside operating
    · rw [if_neg operating]
      exact if_pos (aside_iff.mpr operating)
  unfold State.storeTake
  rw [same]

/-- The take is counted on the window: its slot and index become the last take's (R11). -/
def State.takeCounted (s : State) (w : Fin 16) (a : Assembly) (slot : Nat) (n : Count32) : State :=
  s.onIngest fun u => { u with assembly := u.assembly.set w (some { a with lastTake := some (slot, n) }) }

section Take

variable {a : Assembly}

theorem nextIndex_eq {base slots stride rate : Nat} (window : s.path.windows[w] = .ingest base slots stride rate) : a.nextIndex (slotCount s.path.windows[w]) slot =
    match a.lastTake with
    | none => 0
    | some (last, m) => m + BitVec.ofNat 32 (if last = slot then slots else (slot + slots - last) % slots) := by
  rw [window]
  unfold Assembly.nextIndex
  cases a.lastTake with
  | none => rfl
  | some last => rfl

variable (here : s.ingest.assembly[w] = some a)

include here

theorem take_torn : s.take w slot none = (((s.takeCounted w a slot (a.nextIndex (slotCount s.path.windows[w]) slot)).settleOld w slot).settleStaging
    w slot).storeTake w slot .null := by
  unfold State.take
  rw [here]
  rfl

theorem take_packet (b : List Byte) : s.take w slot (some b) =
    let n := a.nextIndex (slotCount s.path.windows[w]) slot
    let out := (((s.takeCounted w a slot n).settleOld w slot).settleStaging w slot).takePacket w slot n b
    out.1.storeTake w slot out.2 := by
  unfold State.take
  rw [here]
  rfl

end Take

/-- The service of a packet hangs on the Ingest Parser alone. -/
theorem lookup_congr (services : t.ingest.services = s.ingest.services) (pid : Pid) : t.lookup w pid = s.lookup w pid := by
  unfold State.lookup
  rw [services]

theorem takePacket_unsynced {b : List Byte} (unsynced : byteAt b 0 ≠ 0x47) (n : Count32) :
    s.takePacket w slot n b = (s.raisePacket .syncLoss w.val w slot b, .null) := if_neg unsynced

theorem takePacket_unserved {b : List Byte} (synced : byteAt b 0 = 0x47) (unserved : s.lookup w (packetPid b) = none) (n : Count32) :
    s.takePacket w slot n b = (s, .pass none) := by
  refine (if_pos synced).trans ?_
  rw [unserved]

theorem takePacket_served {b : List Byte} {i : Fin 64} {comp : Nat} {d : Service} (synced : byteAt b 0 = 0x47)
    (served : s.lookup w (packetPid b) = some (i, comp)) (service : s.ingest.services[i] = some d) (n : Count32) :
    s.takePacket w slot n b = s.serviceTake d i comp w slot n b := by
  refine (if_pos synced).trans ?_
  rw [served]
  dsimp only
  rw [service]

end Sys2Proof.Machine

namespace Sys2Proof.Proofs

open Sys2Proof.Machine

/-- Settles O28: what the take settles first, by the disposition's action and the state of its prefetch buffer. -/
theorem overrunDiscardsTheOldDisposition : Obligations.OverrunDiscardsTheOldDisposition := by
  intro s w slot base slots stride rate a d here window taken unplayed unserved untaken contain n counted raised stored takes
  have index : a.nextIndex (slotCount s.path.windows[w]) slot = n := nextIndex_eq window
  have old : (s.slotRecord w slot).unplayed = some d := by rw [unplayed_eq, if_pos taken, unplayed]
  have overrun : (counted.overrun w slot d) = raised := by
    refine congrArg (fun address => if d.bypassTake = true ∨ s.fault.part ≠ .operating then counted
      else counted.raise .ingestOverrun w.val address none) ?_
    exact congrArg (slotAddress · slot) window
  have settles {settled : State} (given : raised.givenUp w slot (s.slotRecord w slot).generation d.action = settled) : takes settled := by
    have old : counted.oldSettled w slot = settled := by
      rw [oldSettled_unplayed (s := counted) old, overrun]
      exact given
    have kept : counted.KeepsIngest settled := old ▸ oldSettled_keepsIngest (s := counted) contain
    have idle (b : Fin 8) (serves : settled.Serves w slot b) : False := by
      obtain ⟨u, used, window, number, generation⟩ := serves
      refine unserved b ⟨u, ?_, window, number, ?_⟩
      · rw [kept.path] at used
        exact used
      · rw [generation]
        unfold State.slotRecord
        rw [kept.slots]
        rfl
    have untouched : settled.decidedAfresh w slot none = settled := by
      rw [← takeBack_decided]
      refine takeBack_untaken ?_
      rw [kept.path]
      exact untaken
    have staging : (counted.settleOld w slot).settleStaging w slot = settled := by
      rw [settleOld_eq, old, settleStaging_none idle, untouched]
    refine ⟨?_, fun b synced unknown => ?_⟩
    · rw [take_torn here, index]
      exact (congrArg (fun y : State => y.storeTake w slot .null) staging).trans (storeTake_eq _)
    · have found := takePacket_unserved (s := settled) (slot := slot) synced ((lookup_congr (by rw [kept.ingest]; rfl) _).trans unknown) n
      rw [take_packet here, index]
      exact (congrArg (fun y : State => let out := y.takePacket w slot n b; out.1.storeTake w slot out.2) staging).trans
        ((congrArg (fun out : State × Action => out.1.storeTake w slot out.2) found).trans (storeTake_eq _))
  refine ⟨fun r action => settles ?_, fun action => settles ?_, fun f action => ?_⟩
  · rw [action]
    rfl
  · rw [action]
    rfl
  · intro owner told left
    have given : raised.givenUp w slot (s.slotRecord w slot).generation d.action = told.letGo f.prefetch owner := by
      rw [action]
      rfl
    refine ⟨fun unnamed => settles ?_, fun p named => ?_⟩
    · rw [given, unnamed]
      rfl
    · rw [named] at given
      have raisedContent : raised.content.prefetch = s.content.prefetch := by
        rw [← overrun]
        exact overrun_prefetch (s := counted) contain d
      have same : told.content.prefetch = s.content.prefetch := (counted_prefetch f.source false).trans raisedContent
      have released {v : Prefetch} (is : s.content.prefetch[p] = v) (owned : v.owner = some owner) :
          takes (left p v.released) := by
        refine settles (given.trans ((letGo_owned ?_).trans ?_))
        · rw [same, is, owned]
        · rw [same, is]
      refine ⟨fun other => settles (given.trans (letGo_unowned ?_)), fun target is => released is rfl, fun target packet is => released is rfl,
        fun target is => released is rfl⟩
      rw [same]
      exact other

end Sys2Proof.Proofs
end

section
/-! SUPPORT. The checks of a service packet at its take, and the take of any packet (01, R12 to R19). -/

namespace Sys2Proof.Machine

variable {s t x : State} {w : Fin 16} {slot : Nat} {i : Fin 64} {comp : Nat} {b : List Byte}

/-! ## The continuity check (R18) -/

/-- The packet follows the last one of its component, or need not. -/
def InputCC.Follows (c : InputCC) (marked : Bool) (cc : CC) : Prop := marked = true ∨ c.last = none ∨ c.last.map (· + 1) = some cc

/-- The packet is the one repeat that is allowed. -/
def InputCC.Repeats (c : InputCC) (marked : Bool) (cc : CC) : Prop := ¬ c.Follows marked cc ∧ c.last = some cc ∧ c.duplicate = false

theorem check_follows {c : InputCC} {marked : Bool} {cc : CC} (follows : c.Follows marked cc) : c.check marked cc = (⟨some cc, false⟩, false) := by
  unfold InputCC.check
  cases last : c.last with
  | none => rfl
  | some old =>
    refine if_pos ?_
    rcases follows with set | unset | next
    · rw [set]
      rfl
    · exact nomatch last.symm.trans unset
    · rw [last] at next
      rw [← Option.some.inj next, beq_self_eq_true, Bool.or_true]

theorem check_breaks {c : InputCC} {marked : Bool} {cc : CC} (breaks : ¬ c.Follows marked cc) : c.check marked cc =
    if c.last = some cc then (⟨some cc, !c.duplicate⟩, c.duplicate) else (⟨some cc, false⟩, true) := by
  unfold InputCC.check
  cases last : c.last with
  | none => exact absurd (.inr (.inl last)) breaks
  | some old =>
    have unmarked : (marked || cc == old + 1) = false := by
      refine Bool.or_eq_false_iff.mpr ⟨Bool.eq_false_iff.mpr fun set => breaks (.inl set), beq_eq_false_iff_ne.mpr fun next => ?_⟩
      exact breaks (.inr (.inr (by rw [last, next]; rfl)))
    dsimp only
    rw [unmarked, if_neg Bool.false_ne_true]
    by_cases same : cc = old
    · subst same
      rw [if_pos rfl, if_pos rfl]
    · rw [if_neg same, if_neg fun here => same (Option.some.inj here).symm]

/-- The state after the check, and whether CC_GAP is raised. -/
theorem check_eq {c : InputCC} {marked : Bool} {cc : CC} {again gap : Bool} (repeats : again = true ↔ c.Repeats marked cc)
    (gaps : gap = false ↔ c.Follows marked cc ∨ c.Repeats marked cc) : c.check marked cc = (⟨some cc, again⟩, gap) := by
  by_cases follows : c.Follows marked cc
  · rw [check_follows follows, gaps.mpr (.inl follows), Bool.eq_false_iff.mpr fun is => (repeats.mp is).1 follows]
  · rw [check_breaks follows]
    by_cases same : c.last = some cc
    · have again_eq : again = !c.duplicate := Bool.eq_iff_iff.mpr (repeats.trans
        ⟨fun is => by rw [is.2.2]; rfl, fun is => ⟨follows, same, Bool.not_eq_true' _ |>.mp is⟩⟩)
      have gap_eq : gap = c.duplicate := by
        rw [← Bool.not_not gap, ← Bool.not_not c.duplicate, ← again_eq]
        refine congrArg not (Bool.eq_iff_iff.mpr ?_)
        rw [Bool.not_eq_true', gaps, repeats]
        exact or_iff_right follows
      rw [if_pos same, again_eq, gap_eq]
    · have other : ¬ c.Repeats marked cc := fun is => same is.2.1
      rw [if_neg same, Bool.eq_false_iff.mpr fun is => other (repeats.mp is),
        Bool.eq_true_of_not_eq_false fun is => (gaps.mp is).elim follows other]

/-! ## The checks of a service packet (R16 to R19) -/

theorem raisePacket_eq {base slots stride rate : Nat} (window : s.path.windows[w] = .ingest base slots stride rate) (k : ErrorKind)
    (index : Nat) : s.raisePacket k index w slot b = s.raise k index (base + slot * stride + (if stride = 192 then 4 else 0)) (some (b.take 4)) := by
  unfold State.raisePacket packetHead
  rw [window]
  unfold slotPacketAddress packetStart
  dsimp only

/-- The new continuity state of a component. -/
def State.noteCC (s : State) (i : Fin 64) (comp : Nat) (c : InputCC) : State :=
  s.onIngest fun u => { u with inputCC := u.inputCC.set i (u.inputCC[i].set comp c) }

theorem checkContinuity_eq (s : State) (i : Fin 64) (comp : Nat) (w : Fin 16) (slot : Nat) (b : List Byte) :
    s.checkContinuity i comp w slot b =
      let out := (s.ingest.inputCC[i].getD comp {}).check (discontinuityFlag b && !malformed b) (packetCC b)
      if hasPayload b then
        if out.2 then (s.noteCC i comp out.1).raisePacket .ccGap i.val w slot b else s.noteCC i comp out.1
      else s := rfl

theorem setClock_keepsTables (i : Fin 64) (c : Option Clock) : s.KeepsTables (s.setClock i c) := ⟨rfl, rfl, rfl, rfl⟩

/-- The handling of a clock sample leaves the tables. -/
theorem handleSample_keepsTables (i : Fin 64) (x : Sample) : s.KeepsTables (s.handleSample i x) := by
  unfold State.handleSample
  split
  · exact .refl s
  · dsimp only
    split
    · exact setClock_keepsTables ..
    · split
      · unfold State.jumpNotice
        split <;> exact ⟨rfl, rfl, rfl, rfl⟩
      · exact ⟨rfl, rfl, rfl, rfl⟩

/-! ## Its take -/

theorem keepsIngest_if {c : Prop} [Decidable c] (keep : s.KeepsIngest t) : s.KeepsIngest (if c then t else s) := by
  split
  · exact keep
  · exact .refl s


/-- TRANSPORT_FLAG and MALFORMED_PACKET are raised. -/
def State.headerChecked (s : State) (i : Fin 64) (w : Fin 16) (slot : Nat) (b : List Byte) : State :=
  let flagged := if transportError b then s.raisePacket .transportFlag i.val w slot b else s
  if malformed b then flagged.raisePacket .malformedPacket i.val w slot b else flagged

/-- The new continuity state is kept, and CC_GAP raised where the packet neither follows nor is the one repeat. -/
theorem checkContinuity_checked {c : InputCC} {next : InputCC} {follows repeated : Prop} [Decidable follows] [Decidable repeated]
    (old : s.ingest.inputCC[i].getD comp {} = c) (isFollows : follows = c.Follows (discontinuityFlag b && !malformed b) (packetCC b))
    (isRepeated : repeated = c.Repeats (discontinuityFlag b && !malformed b) (packetCC b))
    (isNext : next = ⟨some (packetCC b), decide repeated⟩) : s.checkContinuity i comp w slot b =
      if hasPayload b then
        if follows ∨ repeated then s.noteCC i comp next else (s.noteCC i comp next).raisePacket .ccGap i.val w slot b
      else s := by
  rw [checkContinuity_eq, old, check_eq (again := decide repeated) (gap := !decide (follows ∨ repeated))
    (by rw [decide_eq_true_iff, isRepeated]) (by rw [Bool.not_eq_false', decide_eq_true_iff, isFollows, isRepeated]), isNext]
  dsimp only
  refine if_congr Iff.rfl ?_ rfl
  by_cases fine : follows ∨ repeated
  · rw [if_pos fine, decide_eq_true fine]
    rfl
  · rw [if_neg fine, decide_eq_false fine]
    rfl

/-- The clock sample is handled. -/
def State.sampled (s : State) (d : Service) (i : Fin 64) (comp : Nat) (n : Count32) (b : List Byte) : State :=
  if givesSample d comp b then s.handleSample i ⟨clockValue b 6, n, discontinuityFlag b⟩ else s

theorem serviceTake_eq (d : Service) (n : Count32) : s.serviceTake d i comp w slot n b =
    let sampled := ((s.headerChecked i w slot b).checkContinuity i comp w slot b).sampled d i comp n b
    if sampled.aside then (sampled, .pass none)
    else sampled.decidePacket d (takeNotice d i comp w slot ((sampled.slotRecord w slot).generation + 1) n b) := rfl

end Sys2Proof.Machine

namespace Sys2Proof.Proofs

open Sys2Proof.Machine

/-- Settles O27: what the slot held is settled, the packet is checked, and its disposition stored. -/
theorem takeStoresTheDisposition : Obligations.TakeStoresTheDisposition := by
  intro s w slot base slots stride rate a here window one waits contain contained n counted settled stored address
  have index : a.nextIndex (slotCount s.path.windows[w]) slot = n := nextIndex_eq window
  obtain ⟨keeps, path, oldIngest, demand, demandWait⟩ := oldSettled_keepsIngest (s := counted) (w := w) (slot := slot) contain
  have same (c : Fin 8) : (counted.oldSettled w slot).Serves w slot c ↔ s.Serves w slot c := by
    unfold State.Serves State.slotRecord
    rw [path, keeps.slots]
    rfl
  have staging : (counted.settleOld w slot).settleStaging w slot = settled := by
    rw [settleOld_eq]
    refine settleStaging_eq (fun c c' serves serves' => one c c' ((same c).mp serves) ((same c').mp serves')) fun c u d serves used wait => ?_
    rw [path] at used
    rw [demand, demandWait]
    exact waits c u d ((same c).mp serves) used wait
  obtain ⟨keeps', ingest'⟩ := stagingSettled_keeps (s := counted.oldSettled w slot) (w := w) (slot := slot)
    (by rw [keeps.policy]; exact contain)
  have kept : s.KeepsTables settled := (show s.KeepsTables counted from ⟨rfl, rfl, rfl, rfl⟩).trans (keeps.trans keeps')
  have ingest : settled.ingest = counted.ingest := ingest'.trans oldIngest
  have window' : settled.path.windows[w] = .ingest base slots stride rate := by
    rw [kept.windows]
    exact window
  have takes {b : List Byte} {y : State} {action : Action} (taken : settled.takePacket w slot n b = (y, action)) :
      s.take w slot (some b) = stored y action := by
    rw [take_packet here, index]
    exact (congrArg (fun z : State => let out := z.takePacket w slot n b; out.1.storeTake w slot out.2) staging).trans
      ((congrArg (fun out : State × Action => out.1.storeTake w slot out.2) taken).trans (storeTake_eq _))
  have found (pid : Pid) : settled.lookup w pid = s.lookup w pid := lookup_congr (by rw [ingest]; rfl) pid
  refine ⟨?_, fun b unsynced loss => takes ?_, fun b synced unknown => takes (takePacket_unserved synced ((found _).trans unknown) n), ?_⟩
  · rw [take_torn here, index]
    exact (congrArg (fun y : State => y.storeTake w slot .null) staging).trans (storeTake_eq _)
  · exact (takePacket_unsynced unsynced n).trans (congrArg (·, Action.null) (raisePacket_eq window' ..))
  · intro b i comp d synced served service flag mal gap raised flagged formed old marked follows repeated next followed checked reference
      sampled out
    have raises {y : State} {k : ErrorKind} (keeps : settled.KeepsTables y) (contain : contained k) (other : k ≠ .configError) :
        y.raisePacket k i.val w slot b = raised y k ∧ y.KeepsIngest (raised y k) :=
      ⟨raisePacket_eq (by rw [keeps.windows]; exact window') .., raise_contained_keepsIngest
        (by rw [keeps.policy, kept.policy]; exact contain) other ..⟩
    have flaggedIs : (if transportError b then settled.raisePacket .transportFlag i.val w slot b else settled) = flagged ∧
        settled.KeepsIngest flagged := by
      obtain ⟨is, keep⟩ := raises (.refl settled) flag (by decide)
      rw [is]
      exact ⟨rfl, keepsIngest_if keep⟩
    have formedIs : settled.headerChecked i w slot b = formed ∧ settled.KeepsIngest formed := by
      obtain ⟨is, keep⟩ := raises flaggedIs.2.toKeepsTables mal (by decide)
      unfold State.headerChecked
      dsimp only
      rw [flaggedIs.1, is]
      exact ⟨rfl, flaggedIs.2.trans (keepsIngest_if keep)⟩
    have input : formed.ingest.inputCC[i].getD comp {} = old := by
      rw [formedIs.2.ingest, ingest]
      rfl
    have checkedIs : formed.checkContinuity i comp w slot b = checked ∧ settled.KeepsTables checked := by
      have noted : settled.KeepsTables followed := formedIs.2.toKeepsTables.trans ⟨rfl, rfl, rfl, rfl⟩
      obtain ⟨is, keep⟩ := raises noted gap (by decide)
      refine ⟨(checkContinuity_checked (follows := follows) (repeated := repeated) (next := next) input rfl rfl rfl).trans ?_, ?_⟩
      · exact if_congr Iff.rfl (if_congr Iff.rfl rfl is) rfl
      · change settled.KeepsTables (if _ then (if _ then _ else _) else _)
        split
        · split
          · exact noted
          · exact noted.trans keep.toKeepsTables
        · exact formedIs.2.toKeepsTables
    have sampledIs : settled.KeepsTables sampled := by
      change settled.KeepsTables (if _ then _ else _)
      split
      · exact checkedIs.2.trans (handleSample_keepsTables ..)
      · exact checkedIs.2
    have all : s.KeepsTables sampled := kept.trans sampledIs
    have served' : settled.takePacket w slot n b =
        if sampled.aside then (sampled, .pass none)
        else sampled.decidePacket d (takeNotice d i comp w slot ((sampled.slotRecord w slot).generation + 1) n b) := by
      rw [takePacket_served synced ((found _).trans served) (by rw [ingest]; exact service), serviceTake_eq, formedIs.1, checkedIs.1]
      rfl
    have generation : (sampled.slotRecord w slot).generation = (s.slotRecord w slot).generation := by
      unfold State.slotRecord
      rw [all.slots]
    rw [generation] at served'
    by_cases operating : s.fault.part = .operating
    · rw [if_pos operating]
      refine takes (served'.trans (if_neg fun aside => aside_iff.mp aside (all.part.trans operating)))
    · rw [if_neg operating]
      exact takes (served'.trans (if_pos (aside_iff.mpr fun same => operating (all.part.symm.trans same))))

end Sys2Proof.Proofs
end

section
/-! SUPPORT. The writes that a beat makes into the slots of a window, and how the parser assembles them (01, R3 to R10). -/

namespace Sys2Proof.Machine

variable {s t : State} {w : Fin 16} {slot : Nat}

/-! ## The writes of a beat (R4) -/

section Lanes

variable {seen : Nat → Option (Fin 16 × Nat × Nat)} {address : Nat} {data : BeatData}

/-- One byte of a beat is added where it lies in a slot. -/
def addSeen (seen : Nat → Option (Fin 16 × Nat × Nat)) (address : Nat) (data : BeatData) (ws : List IngestWrite) (k : Nat) :
    List IngestWrite :=
  match seen k with
  | some (w, slot, x) => addToWrites ws w slot x (address + k) (laneByte data k)
  | none => ws

theorem beatWrites_eq (v : Vector WindowEntry 16) (address : Nat) (data : BeatData) (enables : Enables) :
    beatWrites v address data enables =
      ((List.range 16).foldl (addSeen (fun k => if enables.getLsbD k then spanAt v (address + k) else none) address data) []).reverse := by
  unfold beatWrites enabledLanes
  rw [List.foldl_filter]
  refine congrArg (fun f => ((List.range 16).foldl f []).reverse) (funext fun ws => funext fun k => ?_)
  unfold addSeen
  dsimp only
  split
  · rfl
  · rfl

theorem addSeen_skip (ws : List IngestWrite) (l : List Nat) (unseen : ∀ k ∈ l, seen k = none) : l.foldl (addSeen seen address data) ws = ws := by
  induction l with
  | nil => rfl
  | cons k l ih =>
    have skipped : addSeen seen address data ws k = ws := by
      unfold addSeen
      rw [unseen k List.mem_cons_self]
    rw [List.foldl_cons, skipped]
    exact ih fun j mem => unseen j (List.mem_cons_of_mem _ mem)

/-- The last write grows while the bytes that follow continue it. -/
theorem addSeen_grows {off : Nat} (n k : Nat) (x : IngestWrite) (ws : List IngestWrite) (follows : x.offset + x.bytes.length = off)
    (run : ∀ j < n, seen (k + j) = some (x.window, x.slot, off + j)) :
    (List.range' k n).foldl (addSeen seen address data) (x :: ws) = { x with bytes := x.bytes ++ (List.range' k n).map (laneByte data) } :: ws := by
  induction n generalizing k x off with
  | zero => simp
  | succ n ih =>
    have first : addSeen seen address data (x :: ws) k = { x with bytes := x.bytes ++ [laneByte data k] } :: ws := by
      unfold addSeen
      rw [show seen k = _ from run 0 n.succ_pos]
      exact if_pos ⟨rfl, rfl, follows⟩
    have length : x.offset + (x.bytes ++ [laneByte data k]).length = off + 1 := by
      rw [List.length_append, List.length_singleton]
      omega
    rw [List.range'_succ, List.foldl_cons, first, ih (off := off + 1) (k + 1) _ length fun j lt => ?_]
    · simp
    · have here := run (j + 1) (Nat.succ_lt_succ lt)
      rw [show k + 1 + j = k + (j + 1) by omega, show off + 1 + j = off + (j + 1) by omega]
      exact here

/-- A run of bytes of a slot begins a write of its own, unless it continues the last one. -/
theorem addSeen_run {off : Nat} (n k : Nat) (ws : List IngestWrite) (some_ : 1 ≤ n)
    (apart : ∀ x ∈ ws.head?, ¬ (x.window = w ∧ x.slot = slot ∧ x.offset + x.bytes.length = off))
    (run : ∀ j < n, seen (k + j) = some (w, slot, off + j)) :
    (List.range' k n).foldl (addSeen seen address data) ws = ⟨w, slot, off, address + k, (List.range' k n).map (laneByte data)⟩ :: ws := by
  obtain ⟨n, rfl⟩ := Nat.exists_eq_succ_of_ne_zero (Nat.one_le_iff_ne_zero.mp some_)
  have first : addSeen seen address data ws k = ⟨w, slot, off, address + k, [laneByte data k]⟩ :: ws := by
    unfold addSeen
    rw [show seen k = _ from run 0 n.succ_pos]
    cases ws with
    | nil => rfl
    | cons x ws => exact if_neg (apart x rfl)
  rw [List.range'_succ, List.foldl_cons, first, addSeen_grows (off := off + 1) n (k + 1) _ ws rfl fun j lt => ?_]
  · rfl
  · have here := run (j + 1) (Nat.succ_lt_succ lt)
    rw [show k + 1 + j = k + (j + 1) by omega, show off + 1 + j = off + (j + 1) by omega]
    exact here

theorem range_cut {k n m : Nat} (sum : n + m = k) : List.range k = List.range' 0 n ++ List.range' n m := by
  subst sum
  rw [List.range_eq_range', ← List.range'_append_1, Nat.zero_add]

theorem beatBytes_run (data : BeatData) (low n : Nat) (within : low + n ≤ 16) :
    ((beatBytes data).drop low).take n = (List.range' low n).map (laneByte data) := by
  unfold beatBytes
  refine List.ext_getElem (by simp; omega) fun j _ _ => ?_
  simp

end Lanes

/-! ## What a torn take leaves of the path and the policy -/

/-- The Window Table and the error policy are as they were. -/
structure State.KeepsSetup (s t : State) : Prop where
  windows : t.path.windows = s.path.windows
  policy : t.fault.policy = s.fault.policy

theorem State.KeepsSetup.refl (s : State) : s.KeepsSetup s := ⟨rfl, rfl⟩

theorem State.KeepsSetup.trans {u : State} (first : s.KeepsSetup t) (second : t.KeepsSetup u) : s.KeepsSetup u :=
  ⟨second.windows.trans first.windows, second.policy.trans first.policy⟩

theorem State.KeepsIngest.setup (keeps : s.KeepsIngest t) : s.KeepsSetup t := ⟨keeps.windows, keeps.policy⟩

theorem raise_policy (k : ErrorKind) (index address : Nat) (head : Option (List Byte)) :
    (s.raise k index address head).fault.policy = s.fault.policy := by
  have entered (x : State) : (x.enterBypass []).fault.policy = x.fault.policy :=
    (congrArg FaultUnit.policy (enterBypass_keeps x []).1 : _)
  unfold State.raise
  dsimp only
  split
  · rw [entered]
    split <;> split <;> simp [handError_fault, FaultUnit.setLatch]
  · split <;> split <;> simp [handError_fault, FaultUnit.setLatch]

theorem raise_setup (k : ErrorKind) (index address : Nat) (head : Option (List Byte)) : s.KeepsSetup (s.raise k index address head) := by
  refine ⟨?_, raise_policy ..⟩
  rcases raise_path s k index address head with same | bypassed
  · rw [same]
  · rw [bypassed]
    exact (bypassed_tables s.path).2.1

theorem oldSettled_setup : s.KeepsSetup (s.oldSettled w slot) := by
  cases unplayed : (s.slotRecord w slot).unplayed with
  | none =>
    rw [oldSettled_played unplayed]
    exact .refl s
  | some d =>
    rw [oldSettled_unplayed unplayed]
    refine .trans ?_ (givenUp_keepsIngest ..).setup
    unfold State.overrun
    split
    · exact .refl s
    · exact raise_setup ..

theorem serveDemandWait_setup : s.KeepsSetup s.serveDemandWait := by
  unfold State.serveDemandWait
  split
  · unfold State.giveDemand State.setWait
    split <;> exact ⟨rfl, rfl⟩
  · exact .refl s

theorem letGoDemand_setup (b : Fin 8) (wait : StagingWait) : s.KeepsSetup (s.letGoDemand b wait) := by
  cases wait with
  | demand d =>
    exact .trans (t := s.onContent fun u => { u with demand := modifyAt u.demand d Demand.letGo }) ⟨rfl, rfl⟩ serveDemandWait_setup
  | demandListed | nothing | ringSlot => exact ⟨rfl, rfl⟩
  | prefetch p => exact .refl s

theorem takeFromStaging_setup (b : Fin 8) : s.KeepsSetup (s.takeFromStaging w slot b) := by
  unfold State.takeFromStaging
  split
  · exact .refl s
  · next u used =>
    split
    · exact ⟨rfl, rfl⟩
    · refine .trans ?_ (raise_setup ..)
      unfold State.voidStaging
      rw [used]
      exact .trans (t := s.setStaging b (some u.voided)) ⟨rfl, rfl⟩ (letGoDemand_setup b u.wait)

theorem settleStaging_setup : s.KeepsSetup (s.settleStaging w slot) := by
  have all (l : List (Fin 8)) (s : State) : s.KeepsSetup (l.foldl (fun s b => s.takeFromStaging w slot b) s) := by
    induction l generalizing s with
    | nil => exact .refl s
    | cons b l ih => exact (takeFromStaging_setup b).trans (ih _)
  exact .trans (all _ s) ⟨rfl, rfl⟩

theorem take_torn_setup : s.KeepsSetup (s.take w slot none) := by
  cases here : s.ingest.assembly[w] with
  | none =>
    unfold State.take
    rw [here]
    exact .refl s
  | some a =>
    rw [take_torn here, settleOld_eq, storeTake_eq]
    have counted : s.KeepsSetup (s.takeCounted w a slot (a.nextIndex (slotCount s.path.windows[w]) slot)) := ⟨rfl, rfl⟩
    exact .trans (.trans counted (oldSettled_setup.trans settleStaging_setup)) ⟨rfl, rfl⟩

/-! ## Assembly (R5 to R10) -/

/-- The assembly mode of a window, where it has an assembly state. -/
def State.withMode (s : State) (w : Fin 16) (m : AssemblyMode) : State :=
  s.onIngest fun u => { u with assembly := u.assembly.set w (u.assembly[w].map fun a => { a with mode := m }) }

theorem setMode_eq (m : AssemblyMode) : s.setMode w m = s.withMode w m := by
  unfold State.setMode State.withMode
  cases here : s.ingest.assembly[w] with
  | none =>
    have same : s.ingest.assembly.set w none = s.ingest.assembly := by
      rw [← here]
      exact Vector.set_getElem_self _
    refine congrArg (fun v => s.onIngest fun u => { u with assembly := v }) ?_
    rw [here]
    exact same.symm
  | some a =>
    refine congrArg (fun v => s.onIngest fun u => { u with assembly := u.assembly.set w v }) ?_
    rw [here]
    rfl

/-- No staging buffer is built or being built for the slot's take generation. -/
def State.Unstaged (s : State) (w : Fin 16) (slot : Nat) : Prop := ∀ b : Fin 8, ∀ u, s.path.staging[b] = some u →
  ¬ (u.window = w ∧ u.slot = slot ∧ u.generation = (s.slotRecord w slot).generation)

/-- The record is FILLING over its prior state. -/
def State.filled (s : State) (w : Fin 16) (slot : Nat) : State := s.onSlot w slot fun r => { r with state := .filling r.state.settled }

theorem fillSlot_unstaged (unstaged : s.Unstaged w slot) : s.fillSlot w slot = s.filled w slot := by
  have idle : stagingFor (s.filled w slot).path.staging w slot (s.slotRecord w slot).generation = [] := stagingFor_none unstaged
  exact congrArg (List.foldl (fun s b => s.voidPass w slot b) (s.filled w slot)) idle

section Window

variable {base slots stride rate : Nat} (window : s.path.windows[w] = .ingest base slots stride rate)

include window

/-- Recorded bytes that do not fill the slot. -/
theorem record_short {bytes : List Byte} (short : bytes.length < if stride = 192 then 192 else 188) :
    s.record w slot bytes = s.withMode w (.inSlot slot bytes) := by
  unfold State.record
  rw [window]
  dsimp only [strideOf]
  refine (if_neg ?_).trans (setMode_eq _)
  unfold takeByte
  split at short <;> simp_all <;> omega

theorem record_full {bytes : List Byte} (full : ¬ bytes.length < if stride = 192 then 192 else 188) :
    s.record w slot bytes =
      (s.take w slot (some (bytes.drop (if stride = 192 then 4 else 0)))).withMode w (.expecting ((slot + 1) % slots)) := by
  unfold State.record
  rw [window]
  dsimp only [strideOf, slotCount]
  refine (if_pos ?_).trans (setMode_eq _)
  unfold takeByte
  split at full <;> simp_all <;> omega

end Window

theorem sequenceBreak_eq {x : IngestWrite} {base slots stride rate : Nat} (window : s.path.windows[x.window] = .ingest base slots stride rate)
    (recorded : List Byte) : s.sequenceBreak x recorded = s.raise .sequenceBreak x.window.val x.address
      (if (if stride = 192 then 4 else 0) + 4 ≤ recorded.length then some ((recorded.drop (if stride = 192 then 4 else 0)).take 4) else none) := by
  unfold State.sequenceBreak
  rw [window]
  dsimp only [strideOf, packetOf]
  refine congrArg (s.raise .sequenceBreak x.window.val x.address) (if_congr ?_ rfl rfl)
  rw [List.length_drop]
  unfold packetStart
  split <;> omega

/-! ## A write, by the assembly mode it finds (R7 to R10) -/

section Write

variable {x : IngestWrite} {a : Assembly}

theorem ingestWrite_seeking (here : s.ingest.assembly[x.window] = some a) (mode : a.mode = .seeking) :
    s.ingestWrite x = if x.offset = 0 then s.beginSlot x else s := by
  unfold State.ingestWrite
  rw [here]
  dsimp only
  rw [mode]

theorem ingestWrite_expecting {e : Nat} (here : s.ingest.assembly[x.window] = some a) (mode : a.mode = .expecting e) :
    s.ingestWrite x = if x.offset = 0 then (if x.slot = e then s.beginSlot x else (s.beginSlot x).sequenceBreak x [])
      else (s.sequenceBreak x []).setMode x.window .seeking := by
  unfold State.ingestWrite
  rw [here]
  dsimp only
  rw [mode]

theorem ingestWrite_inSlot {slot : Nat} {recorded : List Byte} (here : s.ingest.assembly[x.window] = some a)
    (mode : a.mode = .inSlot slot recorded) : s.ingestWrite x =
      if x.slot = slot ∧ x.offset = recorded.length then s.record x.window slot (recorded ++ x.bytes)
      else if x.offset = 0 then
        if x.slot = slot then (s.sequenceBreak x recorded).record x.window slot x.bytes
        else (s.tear x slot recorded).beginSlot x
      else (s.tear x slot recorded).setMode x.window .seeking := by
  unfold State.ingestWrite
  rw [here]
  dsimp only
  rw [mode]

theorem beginSlot_short {base slots stride rate : Nat} (window : s.path.windows[x.window] = .ingest base slots stride rate)
    (unstaged : s.Unstaged x.window x.slot) (short : x.bytes.length < if stride = 192 then 192 else 188) :
    s.beginSlot x = (s.filled x.window x.slot).withMode x.window (.inSlot x.slot x.bytes) := by
  unfold State.beginSlot
  rw [fillSlot_unstaged unstaged]
  exact record_short (s := s.filled x.window x.slot) window short

end Write

end Sys2Proof.Machine

namespace Sys2Proof.Proofs

open Sys2Proof.Machine

/-- Settles O26: the writes of a beat by the lanes seen, and a write by the assembly mode it finds. -/
theorem ingestWriteAssembled : Obligations.IngestWriteAssembled := by
  refine ⟨fun s address data enables => ?beat, fun s x a base slots stride rate here window contain => ?write⟩
  case beat =>
    intro seen
    have writes : s.ingestBeat address data enables =
        ((List.range 16).foldl (addSeen seen address data) []).reverse.foldl State.ingestWrite s :=
      congrArg (List.foldl State.ingestWrite s) (beatWrites_eq ..)
    refine ⟨fun unseen => ?_, fun w slot off low n some_ within lanes => ?_, fun w w' slot slot' off n some_ part lanes => ?_⟩
    · rw [writes, addSeen_skip [] _ fun k mem => unseen k (List.mem_range.mp mem)]
      rfl
    · have cut : List.range 16 = List.range' 0 low ++ (List.range' low n ++ List.range' (low + n) (16 - (low + n))) := by
        rw [range_cut (n := low) (m := 16 - low) (by omega), List.range'_append_1]
        exact congrArg (fun m => List.range' 0 low ++ List.range' low m) (by omega)
      have outside (k : Nat) (lt : k < 16) (out : ¬ (low ≤ k ∧ k < low + n)) : seen k = none := (lanes k lt).trans (if_neg out)
      rw [writes, cut, List.foldl_append, List.foldl_append, addSeen_skip [] (List.range' 0 low) fun k mem => ?_,
        addSeen_run (off := off) n low [] some_ (fun _ mem => nomatch mem) fun j lt => ?_, addSeen_skip _ _ fun k mem => ?_, beatBytes_run data low n within]
      · rfl
      · obtain ⟨low', high⟩ := List.mem_range'_1.mp mem
        exact outside k (by omega) (by omega)
      · refine (lanes (low + j) (by omega)).trans ((if_pos (by omega)).trans ?_)
        rw [Nat.add_sub_cancel_left]
      · obtain ⟨low', high⟩ := List.mem_range'_1.mp mem
        exact outside k (by omega) (by omega)
    · have cut : List.range 16 = List.range' 0 n ++ List.range' n (16 - n) := range_cut (by omega)
      have rest : (beatBytes data).drop n = (List.range' n (16 - n)).map (laneByte data) := by
        rw [← beatBytes_run data n (16 - n) (by omega)]
        exact (List.take_of_length_le (by simp [beatBytes])).symm
      have front : (beatBytes data).take n = (List.range' 0 n).map (laneByte data) := beatBytes_run data 0 n (by omega)
      rw [writes, cut, List.foldl_append, addSeen_run (w := w) (slot := slot) (off := off) n 0 [] some_ (fun _ mem => nomatch mem) fun j lt => ?_,
        addSeen_run (w := w') (slot := slot') (off := 0) (16 - n) n _ (by omega) (fun y mem => ?_) fun j lt => ?_, rest, front]
      · rfl
      · cases mem
        rintro ⟨-, -, length⟩
        simp at length
        omega
      · refine (lanes (n + j) (by omega)).trans ((if_neg (by omega)).trans ?_)
        rw [Nat.add_sub_cancel_left, Nat.zero_add]
      · rw [Nat.zero_add]
        exact (lanes j (by omega)).trans (if_pos lt)
  case write =>
    intro w full lead short mode idle begun broken
    have modes (y : State) (m : AssemblyMode) : y.setMode w m = mode y m := setMode_eq m
    have breaks {y : State} (kept : s.KeepsSetup y) (recorded : List Byte) : y.sequenceBreak x recorded = broken y recorded :=
      sequenceBreak_eq (by rw [kept.windows]; exact window) recorded
    have begins {y : State} (kept : s.KeepsSetup y) (unstaged : idle y) : y.beginSlot x = begun y := by
      exact beginSlot_short (by rw [kept.windows]; exact window) unstaged short
    have torn (slot : Nat) (recorded : List Byte) : s.tear x slot recorded = broken (s.take w slot none) recorded :=
      breaks take_torn_setup recorded
    refine ⟨fun seeking => ?_, fun e expecting => ?_, fun slot recorded inSlot filled => ?_⟩
    · rw [ingestWrite_seeking here seeking]
      exact ⟨fun start unstaged => (if_pos start).trans (begins (.refl s) unstaged), fun within => if_neg within⟩
    · rw [ingestWrite_expecting here expecting]
      refine ⟨fun start same unstaged => ?_, fun start other unstaged => ?_, fun within => ?_⟩
      · exact (if_pos start).trans ((if_pos same).trans (begins (.refl s) unstaged))
      · refine (if_pos start).trans ((if_neg other).trans ?_)
        rw [begins (.refl s) unstaged]
        exact breaks (y := begun s) ⟨rfl, rfl⟩ []
      · refine (if_neg within).trans ?_
        rw [breaks (.refl s) []]
        exact modes ..
    · rw [ingestWrite_inSlot here inSlot]
      have later (start : x.offset = 0) : ¬ (x.slot = slot ∧ x.offset = recorded.length) := fun extends_ =>
        filled (List.length_eq_zero_iff.mp (extends_.2.symm.trans start))
      refine ⟨fun same next => ?_, fun same start => ?_, fun other start unstaged => ?_, fun within other => ?_⟩
      · refine (if_pos ⟨same, next⟩).trans ?_
        have length : (recorded ++ x.bytes).length = recorded.length + x.bytes.length := List.length_append
        by_cases fits : recorded.length + x.bytes.length < full
        · rw [if_pos fits]
          exact record_short window (by rw [length]; exact fits)
        · rw [if_neg fits]
          exact record_full window (by rw [length]; exact fits)
      · refine (if_neg (later start)).trans ((if_pos start).trans ((if_pos same).trans ?_))
        rw [breaks (.refl s)]
        have kept : s.KeepsSetup (broken s recorded) := raise_setup ..
        exact record_short (by rw [kept.windows]; exact window) short
      · refine (if_neg (later start)).trans ((if_pos start).trans ((if_neg other).trans ?_))
        rw [torn]
        have kept : s.KeepsSetup (s.take w slot none) := take_torn_setup
        refine begins (kept.trans (raise_setup ..)) ?_
        have same : (s.take w slot none).KeepsIngest (broken (s.take w slot none) recorded) :=
          raise_contained_keepsIngest (by rw [kept.policy]; exact contain) (by decide) ..
        intro b u used
        rw [same.path] at used
        have free := unstaged b u used
        unfold State.slotRecord at free ⊢
        rw [same.slots]
        exact free
      · refine (if_neg other).trans ((if_neg within).trans ?_)
        rw [torn]
        exact modes ..

end Sys2Proof.Proofs
end

section
/-! SUPPORT. The bytes of a packet: what a rewrite, a rebase and a moved timestamp write, and what they keep (02, R47, R48; 07, R140,
R143, R144). -/

namespace Sys2Proof.Machine

variable {b c d out : List Byte} {i j n : Nat}

/-! ## Bytes of a list -/

theorem byteAt_set (b : List Byte) (i j : Nat) (v : Byte) : byteAt (b.set i v) j = if i = j ∧ j < b.length then v else byteAt b j := by
  unfold byteAt
  rw [List.getD_eq_getElem?_getD, List.getD_eq_getElem?_getD, List.getElem?_set]
  by_cases same : i = j
  · subst same
    by_cases within : i < b.length
    · simp [within]
    · simp [within]
  · simp [same]

theorem overwrite_length (b : List Byte) (i : Nat) (new : List Byte) : (overwrite b i new).length = b.length := by
  induction new generalizing b i with
  | nil => rfl
  | cons v new ih => exact (ih _ _).trans List.length_set

theorem byteAt_overwrite_outside {new : List Byte} (outside : j < i ∨ i + new.length ≤ j) : byteAt (overwrite b i new) j = byteAt b j := by
  induction new generalizing b i with
  | nil => rfl
  | cons v new ih =>
    rw [List.length_cons] at outside
    refine (ih (by omega)).trans ((byteAt_set ..).trans (if_neg ?_))
    omega

theorem byteAt_overwrite_inside {new : List Byte} {k : Nat} (within : i + new.length ≤ b.length) (inside : k < new.length) :
    byteAt (overwrite b i new) (i + k) = byteAt new k := by
  induction new generalizing b i k with
  | nil => exact absurd inside (Nat.not_lt_zero k)
  | cons v new ih =>
    rw [List.length_cons] at within inside
    cases k with
    | zero =>
      refine (byteAt_overwrite_outside (.inl (Nat.lt_succ_self i))).trans ((byteAt_set ..).trans (if_pos ?_))
      omega
    | succ k =>
      rw [show i + (k + 1) = i + 1 + k by omega]
      exact ih (by rw [List.length_set]; omega) (Nat.lt_of_succ_lt_succ inside)

theorem byteAt_eq_getElem (within : i < b.length) : byteAt b i = b[i] := by
  unfold byteAt
  rw [List.getD_eq_getElem?_getD, List.getElem?_eq_getElem within]
  rfl

theorem slice_eq (within : i + n ≤ b.length) : slice b i n = (List.range n).map fun k => byteAt b (i + k) := by
  refine List.ext_getElem (by simp [slice]; omega) fun k lt _ => ?_
  have inside : k < n := by
    rw [slice, List.length_take] at lt
    omega
  simp [slice, byteAt_eq_getElem (show i + k < b.length by omega)]

/-- A list has the length of another, and its bytes outside some places. -/
structure KeepsBytes (b c : List Byte) (changed : Nat → Prop) : Prop where
  length : c.length = b.length
  kept : ∀ j, ¬ changed j → byteAt c j = byteAt b j

theorem KeepsBytes.refl (b : List Byte) (changed : Nat → Prop) : KeepsBytes b b changed := ⟨rfl, fun _ _ => rfl⟩

theorem KeepsBytes.trans {p q : Nat → Prop} (first : KeepsBytes b c p) (second : KeepsBytes c d q) : KeepsBytes b d fun j => p j ∨ q j :=
  ⟨second.length.trans first.length, fun j out => (second.kept j fun is => out (.inr is)).trans (first.kept j fun is => out (.inl is))⟩

theorem KeepsBytes.mono {p q : Nat → Prop} (keeps : KeepsBytes b c p) (sub : ∀ j, p j → q j) : KeepsBytes b c q :=
  ⟨keeps.length, fun j out => keeps.kept j fun is => out (sub j is)⟩

theorem keepsBytes_overwrite (b : List Byte) (i : Nat) (new : List Byte) :
    KeepsBytes b (overwrite b i new) fun j => i ≤ j ∧ j < i + new.length :=
  ⟨overwrite_length .., fun j out => byteAt_overwrite_outside (by omega)⟩

/-! ## The header (R140) -/

theorem pid_split (pid : Pid) (top : BitVec 3) : (top ++ pid.extractLsb' 8 5).extractLsb' 0 5 ++ pid.extractLsb' 0 8 = pid :=
  (congrArg (· ++ pid.extractLsb' 0 8) BitVec.extractLsb'_append_eq_right).trans
    ((BitVec.extractLsb'_append_extractLsb'_eq_extractLsb' rfl).trans BitVec.extractLsb'_eq_self)

section Header

variable {pid : Pid} {cc : CC}

theorem rewriteHeader_keeps (b : List Byte) (pid : Pid) (cc : CC) : KeepsBytes b (rewriteHeader b pid cc) fun j => 1 ≤ j ∧ j < 4 :=
  keepsBytes_overwrite ..

/-- The three bytes of the header that are written (R140). -/
theorem rewriteHeader_written (length : b.length = 188) :
    byteAt (rewriteHeader b pid cc) 1 = (byteAt b 1).extractLsb' 5 3 ++ pid.extractLsb' 8 5 ∧
    byteAt (rewriteHeader b pid cc) 2 = pid.extractLsb' 0 8 ∧
    byteAt (rewriteHeader b pid cc) 3 = (byteAt b 3).extractLsb' 4 4 ++ cc := by
  have written (k : Nat) (inside : k < 3) := byteAt_overwrite_inside (b := b) (i := 1) (new :=
    [(byteAt b 1).extractLsb' 5 3 ++ pid.extractLsb' 8 5, pid.extractLsb' 0 8, (byteAt b 3).extractLsb' 4 4 ++ cc]) (k := k)
    (by rw [length]; exact (by decide : 1 + 3 ≤ 188)) inside
  exact ⟨written 0 (by decide), written 1 (by decide), written 2 (by decide)⟩

/-- PID and continuity counter of a rewritten header. -/
theorem rewriteHeader_fields (length : b.length = 188) :
    packetPid (rewriteHeader b pid cc) = pid ∧ packetCC (rewriteHeader b pid cc) = cc ∧
      (byteAt (rewriteHeader b pid cc) 1).extractLsb' 5 3 = (byteAt b 1).extractLsb' 5 3 ∧
      (byteAt (rewriteHeader b pid cc) 3).extractLsb' 4 4 = (byteAt b 3).extractLsb' 4 4 := by
  obtain ⟨one, two, three⟩ := rewriteHeader_written (pid := pid) (cc := cc) length
  unfold packetPid packetCC
  rw [one, two, three]
  exact ⟨pid_split .., BitVec.extractLsb'_append_eq_right, BitVec.extractLsb'_append_eq_left, BitVec.extractLsb'_append_eq_left⟩

end Header

theorem getLsbD_of_top {x y : Byte} {k len : Nat} (top : x.extractLsb' k len = y.extractLsb' k len) {j : Nat} (inside : j < len) :
    x.getLsbD (k + j) = y.getLsbD (k + j) := by
  have bit := congrArg (fun z => z.getLsbD j) top
  simpa [BitVec.getLsbD_extractLsb', inside] using bit

/-! ## The fields that steer the rest (R14) -/

theorem adaptationLength_eq (b : List Byte) : adaptationLength b = if (byteAt b 3).getLsbD 5 then (byteAt b 4).toNat else 0 := rfl

/-- Packets whose control bits, adaptation length and flags byte agree. -/
structure SameLayout (b c : List Byte) : Prop where
  unit : (byteAt c 1).getLsbD 6 = (byteAt b 1).getLsbD 6
  adaptation : (byteAt c 3).getLsbD 5 = (byteAt b 3).getLsbD 5
  payload : (byteAt c 3).getLsbD 4 = (byteAt b 3).getLsbD 4
  length : byteAt c 4 = byteAt b 4

theorem SameLayout.trans (first : SameLayout b c) (second : SameLayout c d) : SameLayout b d :=
  ⟨second.unit.trans first.unit, second.adaptation.trans first.adaptation, second.payload.trans first.payload,
    second.length.trans first.length⟩

theorem SameLayout.adaptationLength (same : SameLayout b c) : adaptationLength c = adaptationLength b := by
  rw [adaptationLength_eq, adaptationLength_eq, same.adaptation, same.length]

theorem SameLayout.payloadAt (same : SameLayout b c) : payloadAt c = payloadAt b := by
  unfold Machine.payloadAt hasAdaptation
  rw [same.adaptationLength, same.adaptation]

theorem rewriteHeader_layout (length : b.length = 188) (pid : Pid) (cc : CC) : SameLayout b (rewriteHeader b pid cc) := by
  obtain ⟨-, -, top, control⟩ := rewriteHeader_fields (pid := pid) (cc := cc) length
  exact ⟨getLsbD_of_top (j := 1) top (by decide), getLsbD_of_top (j := 1) control (by decide), getLsbD_of_top (j := 0) control (by decide),
    (rewriteHeader_keeps b pid cc).kept 4 (by omega)⟩

theorem KeepsBytes.layout {p : Nat → Prop} (keeps : KeepsBytes b c p) (late : ∀ j, p j → 4 < j) : SameLayout b c := by
  have kept (j : Nat) (early : j ≤ 4) : byteAt c j = byteAt b j := keeps.kept j fun is => absurd (late j is) (by omega)
  exact ⟨by rw [kept 1 (by decide)], by rw [kept 3 (by decide)], by rw [kept 3 (by decide)], kept 4 (by decide)⟩

/-! ## The mark (R140) -/

theorem setDiscontinuity_keeps (b : List Byte) : KeepsBytes b (setDiscontinuity b) fun j => 1 ≤ adaptationLength b ∧ j = 5 := by
  unfold setDiscontinuity
  split
  · next some_ =>
    refine ⟨List.length_set, fun j out => (byteAt_set ..).trans (if_neg ?_)⟩
    exact fun here => out ⟨some_, here.1.symm⟩
  · exact .refl ..

theorem setDiscontinuity_flags (length : b.length = 188) :
    byteAt (setDiscontinuity b) 5 = if 1 ≤ adaptationLength b then byteAt b 5 ||| 0x80 else byteAt b 5 := by
  unfold setDiscontinuity
  split
  · exact (byteAt_set ..).trans (if_pos ⟨rfl, by rw [length]; decide⟩)
  · rfl

/-! ## Clock fields (R47, R143) -/

theorem beNat_append (l : List Byte) (v : Byte) : beNat (l ++ [v]) = 256 * beNat l + v.toNat := by
  unfold beNat
  rw [List.foldl_append]
  rfl

theorem beNat_beBytes (n v : Nat) : beNat (beBytes n v) = v % 256 ^ n := by
  induction n generalizing v with
  | zero => rw [Nat.pow_zero, Nat.mod_one]; rfl
  | succ n ih =>
    have last : beBytes (n + 1) v = beBytes n (v / 256) ++ [BitVec.ofNat 8 v] := List.reverse_cons
    have split_ : v % 256 ^ (n + 1) = v % 256 + 256 * (v / 256 % 256 ^ n) := by rw [Nat.pow_succ', Nat.mod_mul]
    rw [last, beNat_append, ih, BitVec.toNat_ofNat, split_]
    omega

theorem beBytes_length (n v : Nat) : (beBytes n v).length = n := by
  induction n generalizing v with
  | zero => rfl
  | succ n ih => simpa [beBytes, leBytes] using ih (v / 256)

theorem clockField_congr (withinB : i + 6 ≤ b.length) (length : c.length = b.length)
    (same : ∀ k < 6, byteAt c (i + k) = byteAt b (i + k)) : clockField c i = clockField b i := by
  unfold clockField
  rw [slice_eq withinB, slice_eq (by rw [length]; exact withinB)]
  exact congrArg beNat (List.map_congr_left fun k mem => same k (List.mem_range.mp mem))

theorem clockField_overwrite (v : Nat) (within : i + 6 ≤ b.length) : clockField (overwrite b i (beBytes 6 v)) i = v % 2 ^ 48 := by
  have bytes : slice (overwrite b i (beBytes 6 v)) i 6 = beBytes 6 v := by
    rw [slice_eq (by rw [overwrite_length]; exact within)]
    refine List.ext_getElem (by simp [beBytes_length]) fun k lt lt' => ?_
    rw [List.getElem_map, List.getElem_range, byteAt_overwrite_inside (by rw [beBytes_length]; exact within) lt', byteAt_eq_getElem lt']
  unfold clockField
  rw [bytes, beNat_beBytes]
  rfl

theorem rebaseClock_keeps (b : List Byte) (i offset : Nat) : KeepsBytes b (rebaseClock b i offset) fun j => i ≤ j ∧ j < i + 6 := by
  refine (keepsBytes_overwrite ..).mono fun j here => ?_
  rw [beBytes_length] at here
  exact here

/-- The rebased field holds the reference in base and extension, its reserved bits as they were. -/
theorem rebaseClock_field (offset : Nat) (within : i + 6 ≤ b.length) :
    clockField (rebaseClock b i offset) i = (clockValue b i + offset) % clockModulus / 300 * 2 ^ 15 +
      (clockField b i / 2 ^ 9 % 2 ^ 6) * 2 ^ 9 + (clockValue b i + offset) % clockModulus % 300 := by
  refine (clockField_overwrite _ within).trans (Nat.mod_eq_of_lt ?_)
  have bound : (clockValue b i + offset) % clockModulus < 2576980377600 := Nat.mod_lt _ (by decide)
  omega

/-- What a rebase makes of a clock field. -/
structure Rebased (b out : List Byte) (i offset : Nat) : Prop where
  value : clockValue out i = (clockValue b i + offset) % clockModulus
  extension : clockField out i % 2 ^ 9 = (clockValue b i + offset) % clockModulus % 300
  base : clockField out i / 2 ^ 15 = (clockValue b i + offset) % clockModulus / 300
  reserved : clockField out i / 2 ^ 9 % 2 ^ 6 = clockField b i / 2 ^ 9 % 2 ^ 6

theorem rebaseClock_rebased (offset : Nat) (within : i + 6 ≤ b.length) : Rebased b (rebaseClock b i offset) i offset := by
  have field := rebaseClock_field offset within
  have value : clockValue (rebaseClock b i offset) i = clockField (rebaseClock b i offset) i / 2 ^ 15 * 300 +
      clockField (rebaseClock b i offset) i % 2 ^ 9 := rfl
  constructor <;> omega

/-- A later change of other bytes leaves a rebased field. -/
theorem Rebased.congr {b' out' : List Byte} {offset : Nat} (rebased : Rebased b out i offset) (within : i + 6 ≤ b.length)
    (length : out.length = b.length) (length' : out'.length = out.length) (lengthB : b.length = b'.length)
    (same : ∀ k < 6, byteAt out' (i + k) = byteAt out (i + k)) (sameB : ∀ k < 6, byteAt b (i + k) = byteAt b' (i + k)) :
    Rebased b' out' i offset := by
  have field : clockField out' i = clockField out i := clockField_congr (by rw [length]; exact within) length' same
  have fieldB : clockField b i = clockField b' i := clockField_congr (by rw [← lengthB]; exact within) lengthB sameB
  have value : clockValue b i = clockValue b' i := congrArg (fun f => f / 2 ^ 15 * 300 + f % 2 ^ 9) fieldB
  have valueOut : clockValue out' i = clockValue out i := congrArg (fun f => f / 2 ^ 15 * 300 + f % 2 ^ 9) field
  exact ⟨by rw [valueOut, ← value, rebased.value], by rw [field, ← value, rebased.extension], by rw [field, ← value, rebased.base],
    by rw [field, ← fieldB, rebased.reserved]⟩

/-! ## Timestamps (R48, R144) -/

/-- What a rebase makes of a timestamp. -/
structure Moved (b out : List Byte) (i offset : Nat) : Prop where
  value : timestamp out i = timestamp b i + BitVec.ofNat 33 (offset / 300)
  code : (byteAt out i).extractLsb' 4 4 = (byteAt b i).extractLsb' 4 4
  markers : ∀ k, k = 0 ∨ k = 2 ∨ k = 4 → (byteAt out (i + k)).getLsbD 0 = (byteAt b (i + k)).getLsbD 0

theorem timestamp_congr (same : ∀ k < 5, byteAt c (i + k) = byteAt b (i + k)) : timestamp c i = timestamp b i := by
  unfold timestamp
  rw [show byteAt c i = byteAt b i from same 0 (by decide), same 1 (by decide), same 2 (by decide), same 3 (by decide), same 4 (by decide)]

theorem Moved.congr {b' out out' : List Byte} {offset : Nat} (moved : Moved b out i offset)
    (same : ∀ k < 5, byteAt out' (i + k) = byteAt out (i + k)) (sameB : ∀ k < 5, byteAt b (i + k) = byteAt b' (i + k)) :
    Moved b' out' i offset := by
  refine ⟨?_, ?_, fun k marker => ?_⟩
  · rw [timestamp_congr same, ← timestamp_congr sameB, moved.value]
  · rw [show byteAt out' i = byteAt out i from same 0 (by decide), show byteAt b' i = byteAt b i from (sameB 0 (by decide)).symm, moved.code]
  · rw [same k (by omega), ← sameB k (by omega), moved.markers k marker]

theorem rebaseTimestamp_keeps (b : List Byte) (i offset : Nat) : KeepsBytes b (rebaseTimestamp b i offset) fun j => i ≤ j ∧ j < i + 5 :=
  keepsBytes_overwrite ..

/-- A timestamp is put together from its five parts. -/
theorem timestamp_parts (v : Time90) :
    v.extractLsb' 30 3 ++ v.extractLsb' 22 8 ++ v.extractLsb' 15 7 ++ v.extractLsb' 7 8 ++ v.extractLsb' 0 7 = v := by
  have join (start len start' len' : Nat) (meet : start' = start + len) :
      v.extractLsb' start' len' ++ v.extractLsb' start len = v.extractLsb' start (len' + len) :=
    BitVec.extractLsb'_append_extractLsb'_eq_extractLsb' meet
  rw [join 22 8 30 3 rfl, join 15 7 22 (3 + 8) rfl, join 7 8 15 (3 + 8 + 7) rfl, join 0 7 7 (3 + 8 + 7 + 8) rfl]
  exact BitVec.extractLsb'_eq_self

theorem rebaseTimestamp_moved (offset : Nat) (within : i + 5 ≤ b.length) : Moved b (rebaseTimestamp b i offset) i offset := by
  let v := timestamp b i + BitVec.ofNat 33 (offset / 300)
  have written (k : Nat) (inside : k < 5) := byteAt_overwrite_inside (b := b) (i := i) (k := k) (new :=
    [(byteAt b i).extractLsb' 4 4 ++ v.extractLsb' 30 3 ++ (byteAt b i).extractLsb' 0 1, v.extractLsb' 22 8,
      v.extractLsb' 15 7 ++ (byteAt b (i + 2)).extractLsb' 0 1, v.extractLsb' 7 8, v.extractLsb' 0 7 ++ (byteAt b (i + 4)).extractLsb' 0 1])
    within inside
  have zero : byteAt (rebaseTimestamp b i offset) i = (byteAt b i).extractLsb' 4 4 ++ v.extractLsb' 30 3 ++ (byteAt b i).extractLsb' 0 1 :=
    written 0 (by decide)
  have one : byteAt (rebaseTimestamp b i offset) (i + 1) = v.extractLsb' 22 8 := written 1 (by decide)
  have two : byteAt (rebaseTimestamp b i offset) (i + 2) = v.extractLsb' 15 7 ++ (byteAt b (i + 2)).extractLsb' 0 1 := written 2 (by decide)
  have three : byteAt (rebaseTimestamp b i offset) (i + 3) = v.extractLsb' 7 8 := written 3 (by decide)
  have four : byteAt (rebaseTimestamp b i offset) (i + 4) = v.extractLsb' 0 7 ++ (byteAt b (i + 4)).extractLsb' 0 1 := written 4 (by decide)
  have marker (x : BitVec 7) (y : Byte) : (x ++ y.extractLsb' 0 1).getLsbD 0 = y.getLsbD 0 := by
    rw [BitVec.getLsbD_append, if_pos Nat.one_pos, BitVec.getLsbD_extractLsb']
    rfl
  have above (x : BitVec 7) (y : BitVec 1) : (x ++ y).extractLsb' 1 7 = x := BitVec.extractLsb'_append_eq_left
  refine ⟨?_, ?_, fun k which => ?_⟩
  · unfold timestamp
    rw [zero, one, two, three, four, above, above]
    have top : ((byteAt b i).extractLsb' 4 4 ++ v.extractLsb' 30 3 ++ (byteAt b i).extractLsb' 0 1).extractLsb' 1 3 = v.extractLsb' 30 3 :=
      (BitVec.extractLsb'_append_eq_of_le (by decide)).trans BitVec.extractLsb'_append_eq_right
    rw [top]
    exact timestamp_parts v
  · rw [zero]
    exact (BitVec.extractLsb'_append_eq_of_le (by decide)).trans BitVec.extractLsb'_append_eq_left
  · rcases which with rfl | rfl | rfl
    · rw [Nat.add_zero, zero]
      exact marker ..
    · rw [two]
      exact marker ..
    · rw [four]
      exact marker ..

end Sys2Proof.Machine
end

section
/-! SUPPORT. The bytes of an inserted packet: where its timestamps lie, and what each step of its making changes (07, R143, R144). -/

namespace Sys2Proof.Machine

variable {b c : List Byte} {p offset : Nat} {r : Rewrite}

/-! ## The optional PES header (R144) -/

/-- A whole optional PES header begins at byte `p`. -/
def PesAt (b : List Byte) (p : Nat) : Prop :=
  (byteAt b 3).getLsbD 4 = true ∧ (byteAt b 1).getLsbD 6 = true ∧ byteAt b p = 0 ∧ byteAt b (p + 1) = 0 ∧
    byteAt b (p + 2) = 1 ∧ p + 9 + (byteAt b (p + 8)).toNat ≤ 188 ∧ p + 9 ≤ 188 ∧ (byteAt b (p + 6)).extractLsb' 6 2 = 2#2

/-- It has both timestamps, in the packet. -/
def BothStamps (b : List Byte) (p : Nat) : Prop := PesAt b p ∧ (byteAt b (p + 7)).extractLsb' 6 2 = 3#2 ∧ p + 19 ≤ 188

/-- It has a presentation timestamp, in the packet. -/
def Presented (b : List Byte) (p : Nat) : Prop :=
  BothStamps b p ∨ (PesAt b p ∧ (byteAt b (p + 7)).extractLsb' 6 2 = 2#2 ∧ p + 14 ≤ 188)

theorem startCode_iff (within : p + 3 ≤ b.length) :
    slice b p 3 = [0, 0, 1] ↔ byteAt b p = 0 ∧ byteAt b (p + 1) = 0 ∧ byteAt b (p + 2) = 1 := by
  rw [slice_eq within]
  change [byteAt b p, byteAt b (p + 1), byteAt b (p + 2)] = _ ↔ _
  simp

theorem hasPesHeader_iff (length : b.length = 188) : hasPesHeader b = true ↔ PesAt b (payloadAt b) := by
  unfold hasPesHeader PesAt hasPayload unitStart packetLength
  simp only [Bool.and_eq_true, decide_eq_true_eq, beq_iff_eq]
  constructor
  · rintro ⟨⟨⟨⟨⟨payload, unit⟩, code⟩, room⟩, two⟩, whole⟩
    obtain ⟨zero, one, start⟩ := (startCode_iff (by omega)).mp code
    exact ⟨payload, unit, zero, one, start, whole, room, two⟩
  · rintro ⟨payload, unit, zero, one, start, whole, room, two⟩
    exact ⟨⟨⟨⟨⟨payload, unit⟩, (startCode_iff (by omega)).mpr ⟨zero, one, start⟩⟩, room⟩, two⟩, whole⟩

/-- The steering bits and the bytes from `p` on decide it. -/
theorem PesAt.congr (pes : PesAt b p) (same : SameLayout b c) (rest : ∀ j, p ≤ j → byteAt c j = byteAt b j) : PesAt c p := by
  obtain ⟨payload, unit, zero, one, start, whole, room, two⟩ := pes
  exact ⟨same.payload.trans payload, same.unit.trans unit, (rest _ (by omega)).trans zero, (rest _ (by omega)).trans one,
    (rest _ (by omega)).trans start, by rw [rest _ (by omega)]; exact whole, room, by rw [rest _ (by omega)]; exact two⟩

theorem BothStamps.congr (both : BothStamps b p) (same : SameLayout b c) (rest : ∀ j, p ≤ j → byteAt c j = byteAt b j) : BothStamps c p :=
  ⟨both.1.congr same rest, by rw [rest _ (by omega)]; exact both.2.1, both.2.2⟩

theorem Presented.congr (presented : Presented b p) (same : SameLayout b c) (rest : ∀ j, p ≤ j → byteAt c j = byteAt b j) : Presented c p :=
  presented.imp (·.congr same rest) fun one => ⟨one.1.congr same rest, by rw [rest _ (by omega)]; exact one.2.1, one.2.2⟩

/-! ## The timestamps (R144) -/

/-- The bytes of the timestamps. -/
def StampBytes (b : List Byte) (p j : Nat) : Prop := (Presented b p ∧ p + 9 ≤ j ∧ j < p + 14) ∨ (BothStamps b p ∧ p + 14 ≤ j ∧ j < p + 19)

/-- What the rebase of the timestamps moves, and what it keeps. -/
theorem rebaseTimestamps_spec (length : b.length = 188) (offset : Nat) :
    KeepsBytes b (rebaseTimestamps b offset) (StampBytes b (payloadAt b)) ∧
    (Presented b (payloadAt b) → Moved b (rebaseTimestamps b offset) (payloadAt b + 9) offset) ∧
    (BothStamps b (payloadAt b) → Moved b (rebaseTimestamps b offset) (payloadAt b + 14) offset) := by
  by_cases pes : PesAt b (payloadAt b)
  · have has := (hasPesHeader_iff length).mpr pes
    by_cases one : (byteAt b (payloadAt b + 7)).extractLsb' 6 2 = 2#2 ∧ payloadAt b + 14 ≤ 188
    · have made : rebaseTimestamps b offset = rebaseTimestamp b (payloadAt b + 9) offset := (if_pos has).trans (if_pos one)
      have presented : Presented b (payloadAt b) := .inr ⟨pes, one⟩
      rw [made]
      refine ⟨(rebaseTimestamp_keeps ..).mono fun j here => .inl ⟨presented, here⟩, fun _ => rebaseTimestamp_moved offset (by omega), fun both => ?_⟩
      exact absurd (one.1.symm.trans both.2.1) (by decide)
    · by_cases two : (byteAt b (payloadAt b + 7)).extractLsb' 6 2 = 3#2 ∧ payloadAt b + 19 ≤ 188
      · have made : rebaseTimestamps b offset = rebaseTimestamp (rebaseTimestamp b (payloadAt b + 9) offset) (payloadAt b + 14) offset :=
          (if_pos has).trans ((if_neg one).trans (if_pos two))
        have both : BothStamps b (payloadAt b) := ⟨pes, two⟩
        have first := rebaseTimestamp_keeps b (payloadAt b + 9) offset
        have second := rebaseTimestamp_keeps (rebaseTimestamp b (payloadAt b + 9) offset) (payloadAt b + 14) offset
        rw [made]
        refine ⟨(first.trans second).mono fun j here => here.imp (fun here => ⟨.inl both, here⟩) fun here => ⟨both, here⟩, fun _ => ?_, fun _ => ?_⟩
        · exact (rebaseTimestamp_moved offset (by omega)).congr (fun k _ => second.kept _ (by omega)) fun _ _ => rfl
        · exact (rebaseTimestamp_moved offset (by rw [first.length]; omega)).congr (fun _ _ => rfl) fun k _ => first.kept _ (by omega)
      · have made : rebaseTimestamps b offset = b := (if_pos has).trans ((if_neg one).trans (if_neg two))
        have unpresented : ¬ Presented b (payloadAt b) := fun presented => presented.elim (fun both => two both.2) fun stamp => one stamp.2
        rw [made]
        exact ⟨.refl .., fun presented => absurd presented unpresented, fun both => absurd (.inl both) unpresented⟩
  · have made : rebaseTimestamps b offset = b := if_neg fun has => pes ((hasPesHeader_iff length).mp has)
    have unpresented : ¬ Presented b (payloadAt b) := fun presented => presented.elim (fun both => pes both.1) fun stamp => pes stamp.1
    rw [made]
    exact ⟨.refl .., fun presented => absurd presented unpresented, fun both => absurd (.inl both) unpresented⟩

/-! ## Where the optional fields lie (R14) -/

/-- In a packet that is not malformed the optional fields lie ahead of the payload. -/
structure FieldsFit (b : List Byte) : Prop where
  after : 4 ≤ payloadAt b
  flags : 1 ≤ adaptationLength b → 6 ≤ payloadAt b
  clock : clockFlag b = true → 12 ≤ payloadAt b
  original : originalFlag b = true → originalAt b + 6 ≤ payloadAt b
  within : payloadAt b ≤ 188

theorem adaptationFlag_some {k : Nat} (flag : adaptationFlag b k = true) : 1 ≤ adaptationLength b :=
  of_decide_eq_true (Bool.and_eq_true_iff.mp flag).1

theorem fieldsFit_of_wellFormed (good : malformed b = false) : FieldsFit b := by
  unfold malformed at good
  obtain ⟨⟨⟨-, short⟩, room⟩, -⟩ : ((_ ∧ adaptationLength b ≤ 183) ∧ (1 ≤ adaptationLength b → optionalLength b ≤ adaptationLength b)) ∧ _ := by
    simpa [Bool.or_eq_false_iff] using good
  have placed (some_ : 1 ≤ adaptationLength b) : payloadAt b = 5 + adaptationLength b := by
    refine if_pos ?_
    rw [adaptationLength_eq] at some_
    by_contra absent
    rw [if_neg (show ¬ (byteAt b 3).getLsbD 5 = true from absent)] at some_
    exact absurd some_ (by decide)
  have lower : 4 ≤ payloadAt b ∧ payloadAt b ≤ 188 := by
    unfold payloadAt
    split <;> omega
  have length : optionalLength b = 1 + (if clockFlag b then 6 else 0) + (if originalFlag b then 6 else 0) + (if spliceFlag b then 1 else 0) := rfl
  refine ⟨lower.1, fun some_ => by rw [placed some_]; omega, fun clock => ?_, fun original => ?_, lower.2⟩
  · have some_ := adaptationFlag_some clock
    have := room some_
    rw [placed some_]
    rw [clock] at length
    simp at length
    omega
  · have some_ := adaptationFlag_some original
    have := room some_
    rw [placed some_]
    unfold originalAt
    rw [original] at length
    split at length <;> simp_all <;> omega

/-! ## The steps of an inserted packet (R143) -/

/-- The content packet with its header rewritten and its clock reference rebased. -/
def clockRebased (b : List Byte) (r : Rewrite) (offset : Nat) : List Byte :=
  if clockFlag b then rebaseClock (rewriteHeader b r.pid r.cc) 6 offset else rewriteHeader b r.pid r.cc

/-- Then its original clock reference. -/
def originalRebased (b : List Byte) (r : Rewrite) (offset : Nat) : List Byte :=
  if originalFlag b then rebaseClock (clockRebased b r offset) (originalAt b) offset else clockRebased b r offset

/-- Then the mark is set. -/
def insertMarked (b : List Byte) (r : Rewrite) (offset : Nat) : List Byte :=
  if r.mark then setDiscontinuity (originalRebased b r offset) else originalRebased b r offset

theorem insertPacketBytes_wellFormed (good : malformed b = false) :
    insertPacketBytes b r offset = rebaseTimestamps (insertMarked b r offset) offset := if_neg (by rw [good]; decide)

theorem insertPacketBytes_malformed (bad : malformed b = true) : insertPacketBytes b r offset = passPacket b (some { r with mark := false }) :=
  if_pos bad

theorem keepsBytes_if {x y : List Byte} {t : Bool} {changed : Nat → Prop} (keeps : KeepsBytes x y changed) :
    KeepsBytes x (if t then y else x) fun j => t = true ∧ changed j := by
  cases t with
  | false => exact .refl ..
  | true => exact keeps.mono fun j is => ⟨rfl, is⟩

theorem clockRebased_keeps (b : List Byte) (r : Rewrite) (offset : Nat) : KeepsBytes (rewriteHeader b r.pid r.cc) (clockRebased b r offset) fun j => clockFlag b = true ∧ 6 ≤ j ∧ j < 6 + 6 :=
  keepsBytes_if (rebaseClock_keeps ..)

theorem originalRebased_keeps (b : List Byte) (r : Rewrite) (offset : Nat) : KeepsBytes (clockRebased b r offset) (originalRebased b r offset) fun j =>
    originalFlag b = true ∧ originalAt b ≤ j ∧ j < originalAt b + 6 := keepsBytes_if (rebaseClock_keeps ..)

theorem insertMarked_keeps (b : List Byte) (r : Rewrite) (offset : Nat) : KeepsBytes (originalRebased b r offset) (insertMarked b r offset) fun j =>
    r.mark = true ∧ 1 ≤ adaptationLength (originalRebased b r offset) ∧ j = 5 := keepsBytes_if (setDiscontinuity_keeps _)

theorem flags_iff : ((byteAt b 3).getLsbD 5 = true ∧ 1 ≤ (byteAt b 4).toNat) ↔ 1 ≤ adaptationLength b := by
  rw [adaptationLength_eq]
  split
  · next present => exact and_iff_right present
  · next absent => exact ⟨fun is => absurd is.1 absent, fun is => absurd is (by decide)⟩

theorem adaptationFlag_eq {flags : Bool} {k : Nat} (is : flags = true ↔ 1 ≤ adaptationLength b) :
    decide (flags = true ∧ (byteAt b 5).getLsbD k = true) = adaptationFlag b k := by
  unfold adaptationFlag
  rw [Bool.eq_iff_iff, decide_eq_true_iff, Bool.and_eq_true_iff, decide_eq_true_iff, is]

theorem payloadAt_eq : payloadAt b = if (byteAt b 3).getLsbD 5 then 5 + (byteAt b 4).toNat else 4 := by
  unfold payloadAt hasAdaptation
  split
  · next present => rw [adaptationLength_eq, if_pos present]
  · rfl

theorem marked_flags (length : b.length = 188) (mark : Bool) :
    byteAt (if mark then setDiscontinuity b else b) 5 = if 1 ≤ adaptationLength b ∧ mark = true then byteAt b 5 ||| 0x80 else byteAt b 5 := by
  cases mark with
  | false => exact (if_neg fun set => Bool.false_ne_true set.2).symm
  | true =>
    rw [if_pos rfl, setDiscontinuity_flags length]
    exact if_congr (and_iff_left rfl).symm rfl rfl

/-- The optional fields and the flags byte are ahead of the payload, so the timestamps are those of the content packet. -/
structure InsertSteps (b : List Byte) (r : Rewrite) (offset : Nat) (marked : List Byte) : Prop where
  keeps : KeepsBytes b marked fun j => (1 ≤ j ∧ j < 4) ∨ (clockFlag b = true ∧ 6 ≤ j ∧ j < 12) ∨
    (originalFlag b = true ∧ originalAt b ≤ j ∧ j < originalAt b + 6) ∨ (r.mark = true ∧ 1 ≤ adaptationLength b ∧ j = 5)
  layout : SameLayout b marked
  header : byteAt marked 1 = byteAt (rewriteHeader b r.pid r.cc) 1 ∧ byteAt marked 2 = byteAt (rewriteHeader b r.pid r.cc) 2 ∧
    byteAt marked 3 = byteAt (rewriteHeader b r.pid r.cc) 3
  flags : byteAt marked 5 = if 1 ≤ adaptationLength b ∧ r.mark = true then byteAt b 5 ||| 0x80 else byteAt b 5
  clock : clockFlag b = true → Rebased b marked 6 offset
  original : originalFlag b = true → Rebased b marked (originalAt b) offset

theorem originalAt_low (b : List Byte) : 6 ≤ originalAt b ∧ (clockFlag b = true → 12 ≤ originalAt b) := by
  unfold originalAt
  split <;> simp_all

theorem insertMarked_steps (length : b.length = 188) (good : malformed b = false) (r : Rewrite) (offset : Nat) :
    InsertSteps b r offset (insertMarked b r offset) := by
  have fit := fieldsFit_of_wellFormed good
  obtain ⟨low, behind⟩ := originalAt_low b
  have head := rewriteHeader_keeps b r.pid r.cc
  have clocks := clockRebased_keeps b r offset
  have originals := originalRebased_keeps b r offset
  have marks := insertMarked_keeps b r offset
  have layoutOriginal : SameLayout b (originalRebased b r offset) := (rewriteHeader_layout length r.pid r.cc).trans
    ((clocks.layout fun j is => by omega).trans (originals.layout fun j is => by omega))
  have layout : SameLayout b (insertMarked b r offset) := layoutOriginal.trans (marks.layout fun j is => by omega)
  rw [layoutOriginal.adaptationLength] at marks
  have early (j : Nat) (lt : j < 5) : byteAt (insertMarked b r offset) j = byteAt (rewriteHeader b r.pid r.cc) j :=
    (marks.kept j (by omega)).trans ((originals.kept j (by omega)).trans (clocks.kept j (by omega)))
  have five : byteAt (originalRebased b r offset) 5 = byteAt b 5 :=
    (originals.kept 5 (by omega)).trans ((clocks.kept 5 (by omega)).trans (head.kept 5 (by omega)))
  have lengthHead : (rewriteHeader b r.pid r.cc).length = 188 := head.length.trans length
  have lengthClock : (clockRebased b r offset).length = 188 := clocks.length.trans lengthHead
  have lengthOriginal : (originalRebased b r offset).length = 188 := originals.length.trans lengthClock
  refine ⟨(((head.trans clocks).trans originals).trans marks).mono fun j is => ?_, layout, ⟨early 1 (by decide), early 2 (by decide),
    early 3 (by decide)⟩, ?_, fun clock => ?_, fun original => ?_⟩
  · rcases is with ((is | is) | is) | is
    · exact .inl is
    · exact .inr (.inl is)
    · exact .inr (.inr (.inl is))
    · exact .inr (.inr (.inr is))
  · unfold insertMarked
    rw [← five, ← layoutOriginal.adaptationLength]
    exact marked_flags lengthOriginal r.mark
  · have rebased : Rebased (rewriteHeader b r.pid r.cc) (clockRebased b r offset) 6 offset := by
      unfold clockRebased
      rw [if_pos clock]
      exact rebaseClock_rebased offset (by omega)
    have := behind clock
    refine rebased.congr (by omega) clocks.length (marks.length.trans originals.length) head.length (fun k lt => ?_) fun k lt => ?_
    · exact (marks.kept _ (by omega)).trans (originals.kept _ (by omega))
    · exact head.kept _ (by omega)
  · have rebased : Rebased (clockRebased b r offset) (originalRebased b r offset) (originalAt b) offset := by
      unfold originalRebased
      rw [if_pos original]
      exact rebaseClock_rebased offset (by have := fit.original original; have := fit.within; omega)
    have := fit.original original
    have := fit.within
    refine rebased.congr (by omega) originals.length marks.length (clocks.length.trans head.length) (fun k lt => ?_) fun k lt => ?_
    · exact marks.kept _ (by omega)
    · refine (clocks.kept _ ?_).trans (head.kept _ (by omega))
      rintro ⟨clock, -, high⟩
      have := behind clock
      omega

/-! ## The inserted packet -/

/-- What the bytes of an inserted packet are. -/
theorem insertPacketBytes_spec (length : b.length = 188) (good : malformed b = false) (r : Rewrite) (offset : Nat) :
    ∃ marked, InsertSteps b r offset marked ∧ KeepsBytes marked (insertPacketBytes b r offset) (StampBytes b (payloadAt b)) ∧
      (Presented b (payloadAt b) → Moved b (insertPacketBytes b r offset) (payloadAt b + 9) offset) ∧
      (BothStamps b (payloadAt b) → Moved b (insertPacketBytes b r offset) (payloadAt b + 14) offset) := by
  have fit := fieldsFit_of_wellFormed good
  have steps := insertMarked_steps length good r offset
  rw [insertPacketBytes_wellFormed good]
  generalize insertMarked b r offset = marked at steps
  have rest (j : Nat) (late : payloadAt b ≤ j) : byteAt marked j = byteAt b j := by
    refine steps.keeps.kept j ?_
    rintro (is | is | is | is)
    · have := fit.after
      omega
    · have := fit.clock is.1
      omega
    · have := fit.original is.1
      omega
    · have := fit.flags is.2.1
      omega
  have back : SameLayout marked b := ⟨steps.layout.unit.symm, steps.layout.adaptation.symm, steps.layout.payload.symm, steps.layout.length.symm⟩
  obtain ⟨keeps, presents, both⟩ := rebaseTimestamps_spec (steps.keeps.length.trans length) offset
  rw [steps.layout.payloadAt] at keeps presents both
  refine ⟨marked, steps, keeps.mono fun j is => is.imp (fun is => ⟨is.1.congr back fun j late => (rest j late).symm, is.2⟩)
    fun is => ⟨is.1.congr back fun j late => (rest j late).symm, is.2⟩, fun presented => ?_, fun stamps => ?_⟩
  · exact (presents (presented.congr steps.layout rest)).congr (fun _ _ => rfl) fun k _ => rest _ (by omega)
  · exact (both (stamps.congr steps.layout rest)).congr (fun _ _ => rfl) fun k _ => rest _ (by omega)

end Sys2Proof.Machine

namespace Sys2Proof.Proofs

open Sys2Proof.Machine

/-- Settles O19: the bytes that a pass, a rebased clock and an insert write, and those that they keep. -/
theorem outputPacketBytes : Obligations.OutputPacketBytes := by
  refine ⟨fun b length => ⟨rfl, fun r => ?pass⟩, fun b i offset within => ?clock, fun b r offset length =>
    ⟨insertPacketBytes_malformed, fun good => ?insert⟩⟩
  case pass =>
    have head := rewriteHeader_keeps b r.pid r.cc
    have layout := rewriteHeader_layout length r.pid r.cc
    obtain ⟨pid, cc, top, control⟩ := rewriteHeader_fields (pid := r.pid) (cc := r.cc) length
    have marks : KeepsBytes (rewriteHeader b r.pid r.cc) (passPacket b (some r)) fun j =>
        r.mark = true ∧ 1 ≤ adaptationLength (rewriteHeader b r.pid r.cc) ∧ j = 5 := keepsBytes_if (setDiscontinuity_keeps _)
    have kept (j : Nat) (other : j ≠ 5) : byteAt (passPacket b (some r)) j = byteAt (rewriteHeader b r.pid r.cc) j :=
      marks.kept j fun is => other is.2.2
    refine ⟨(marks.length.trans head.length).trans length, ?_, ?_, ?_, ?_, ?_, fun i one two three five => (kept i five).trans (head.kept i (by omega))⟩
    · unfold packetPid at pid ⊢
      rw [kept 1 (by decide), kept 2 (by decide)]
      exact pid
    · unfold packetCC at cc ⊢
      rw [kept 3 (by decide)]
      exact cc
    · rw [kept 1 (by decide)]
      exact top
    · rw [kept 3 (by decide)]
      exact control
    · have flagsOf : (r.mark = true ∧ (byteAt b 3).getLsbD 5 = true ∧ 1 ≤ (byteAt b 4).toNat) ↔ (1 ≤ adaptationLength b ∧ r.mark = true) := by
        rw [flags_iff, and_comm]
      have marked : byteAt (passPacket b (some r)) 5 = if 1 ≤ adaptationLength b ∧ r.mark = true then byteAt b 5 ||| 0x80 else byteAt b 5 := by
        have five : byteAt (rewriteHeader b r.pid r.cc) 5 = byteAt b 5 := head.kept 5 (by omega)
        rw [← five, ← layout.adaptationLength]
        exact marked_flags (head.length.trans length) r.mark
      rw [marked]
      exact if_congr flagsOf.symm rfl rfl
  case clock =>
    have rebased := rebaseClock_rebased offset within
    have keeps := rebaseClock_keeps b i offset
    exact ⟨rebased.value, rebased.extension, rebased.base, rebased.reserved, keeps.length, fun j out => keeps.kept j (by omega)⟩
  case insert =>
    intro flags clock original second p stamps pes both presented moved rebased
    obtain ⟨marked, steps, keeps, presents, boths⟩ := insertPacketBytes_spec length good r offset
    have fit := fieldsFit_of_wellFormed good
    obtain ⟨low, -⟩ := originalAt_low b
    have flagsIs : flags = true ↔ 1 ≤ adaptationLength b := decide_eq_true_iff.trans flags_iff
    have clockIs : clock = clockFlag b := adaptationFlag_eq flagsIs
    have originalIs : original = originalFlag b := adaptationFlag_eq flagsIs
    have secondIs : second = originalAt b := congrArg (fun t : Bool => if t then 12 else 6) clockIs
    have pIs : p = payloadAt b := payloadAt_eq.symm
    have movedOf {i : Nat} (is : Moved b (insertPacketBytes b r offset) i offset) : moved i := ⟨is.value, is.code, is.markers⟩
    have late (j : Nat) (is : StampBytes b (payloadAt b) j) : payloadAt b + 9 ≤ j := by
      rcases is with is | is <;> omega
    have early (j : Nat) (lt : j < payloadAt b + 9) : byteAt (insertPacketBytes b r offset) j = byteAt marked j :=
      keeps.kept j fun is => absurd (late j is) (by omega)
    have rebasedOf {i : Nat} (is : Rebased b marked i offset) (inside : i + 6 ≤ payloadAt b) : rebased i := by
      have is' : Rebased b (insertPacketBytes b r offset) i offset :=
        is.congr (by have := fit.within; omega) steps.keeps.length keeps.length rfl (fun k lt => early _ (by omega)) fun _ _ => rfl
      refine ⟨is'.value, ?_, is'.reserved⟩
      rw [is'.extension]
      exact Nat.mod_lt _ (by decide)
    have after := fit.after
    obtain ⟨one, two, three⟩ := steps.header
    obtain ⟨pid, cc, top, control⟩ := rewriteHeader_fields (pid := r.pid) (cc := r.cc) length
    have one' := (early 1 (by omega)).trans one
    have two' := (early 2 (by omega)).trans two
    have three' := (early 3 (by omega)).trans three
    have bothOf : both ↔ BothStamps b (payloadAt b) := pIs ▸ Iff.rfl
    have presentedOf : presented ↔ Presented b (payloadAt b) := pIs ▸ Iff.rfl
    rw [clockIs, originalIs, secondIs, pIs]
    refine ⟨(keeps.length.trans steps.keeps.length).trans length, ?_, ?_, ?_, ?_, ?_, fun is => rebasedOf (steps.clock is) (fit.clock is),
      fun is => rebasedOf (steps.original is) (fit.original is), fun is => movedOf (presents (presentedOf.mp is)),
      fun is => movedOf (boths (bothOf.mp is)), fun i n1 n2 n3 n5 noClock noOriginal noFirst noSecond => ?_⟩
    · unfold packetPid at pid ⊢
      rw [one', two']
      exact pid
    · unfold packetCC at cc ⊢
      rw [three']
      exact cc
    · rw [one']
      exact top
    · rw [three']
      exact control
    · rw [early 5 (by omega), steps.flags]
      exact if_congr (and_congr_left fun _ => flagsIs.symm) rfl rfl
    · refine (keeps.kept i ?_).trans (steps.keeps.kept i ?_)
      · rintro (is | is)
        · exact noFirst ⟨presentedOf.mpr is.1, is.2⟩
        · exact noSecond ⟨bothOf.mpr is.1, is.2⟩
      · rintro (is | is | is | is)
        · omega
        · exact noClock is
        · exact noOriginal is
        · exact n5 is.2.2

end Sys2Proof.Proofs
end

section
/-! SUPPORT. How a service packet takes a content packet of a run, and the headers a run asks for (05, R93 to R95; 04, R85). -/

namespace Sys2Proof.Machine

variable {s u : State} {i : Fin 64} {d : Service} {x : TakeNotice} {content : Fin 128} {cdef : ContentDef}

theorem packetCount_of_defined (defined : s.content.entries[content].definition = some cdef) : s.packetCount content = cdef.packets := by
  unfold State.packetCount
  rw [defined]

theorem contentAddress_of_defined (defined : s.content.entries[content].definition = some cdef) (k : Nat) :
    s.contentAddress content k = contentPacketAddress cdef k := by
  unfold State.contentAddress
  rw [defined]

/-! ## An INSERT (R85, R93, R95, R109) -/

/-- The output counter and the mark of a packet that is given a component's output PID. -/
theorem giveMark_eq (s : State) (i : Fin 64) (d : Service) (comp : Nat) (insert : Bool) (cc : CC) (payload clockReference : Bool) :
    (s.giveCC i comp insert cc payload).1.takeMark i d comp clockReference =
      (s.onFields i fun f =>
        { f with
          outputCC := f.outputCC.set comp ((s.splice.services[i].outputCC.getD comp {}).give insert cc payload).2
          markPending := f.markPending && !s.marks i d comp clockReference }, s.marks i d comp clockReference) := by
  unfold State.giveCC
  dsimp only
  rw [takeMark_eq, onFields_onFields]
  simp [State.marks, Function.comp_def]

theorem lowest_free_prefetch (v : Vector Prefetch 256) :
    lowest v (· == .free) = (List.finRange 256).find? fun b => decide (v[b] = .free) :=
  congrArg (fun p => (List.finRange 256).find? p) (funext fun _ => beq_eq_decide ..)

theorem insertPacket_eq (defined : s.content.entries[content].definition = some cdef) {comp : Nat} {c : Component}
    (component : d.comps[comp]? = some c) (source : Source) (j offset : Nat) (loops : Bool) (h : Header) (forced : Bool) :
    s.insertPacket d x ⟨content, j, offset, source, loops⟩ h comp forced = s.insertTaken d x source content cdef j offset h comp c forced := by
  unfold State.insertPacket State.insertTaken
  dsimp only
  rw [giveMark_eq, outputPid_of_component component]
  dsimp only
  unfold State.allocatePrefetch
  have address (f : SpliceFields → SpliceFields) : (s.onFields x.service f).contentAddress content j = contentPacketAddress cdef j :=
    contentAddress_of_defined (s := s.onFields x.service f) defined j
  have find (f : SpliceFields → SpliceFields) : lowest (s.onFields x.service f).content.prefetch (· == .free) =
      (List.finRange 256).find? fun b => decide (s.content.prefetch[b] = .free) := lowest_free_prefetch s.content.prefetch
  rw [find, address]
  cases (List.finRange 256).find? fun b => decide (s.content.prefetch[b] = .free) with
  | none => cases source <;> rfl
  | some b => cases source <;> rfl

/-! ## The head of the run queue is used (R94) -/

/-- A header joins the run queue: the next serial number, its read behind the others. -/
theorem joinHeader_run (defined : s.content.entries[content].definition = some cdef) (k : Nat) : s.joinHeader i false content k =
    ((s.onFields i fun f => { f with runQueue := f.runQueue ++ [⟨k, s.splice.nextHeader, .loading⟩] }).onSplice fun u =>
      { u with nextHeader := s.splice.nextHeader + 1 }).onPath fun p => { p with
        fetchQueue := p.fetchQueue ++ [beatsHolding (contentPacketAddress cdef k) 6
          (.header i s.splice.nextHeader (contentPacketAddress cdef k))] } := by
  unfold State.joinHeader
  rw [contentAddress_of_defined defined]
  rfl

theorem consumeHead_eq (defined : s.content.entries[content].definition = some cdef) (loops : Bool)
    (some_ : loops = true → 0 < cdef.packets) : s.consumeHead i content loops = s.headUsed i cdef loops := by
  unfold State.consumeHead State.headUsed
  cases queue : s.splice.services[i].runQueue.getLast? with
  | none =>
    have empty : s.splice.services[i].runQueue = [] := List.getLast?_eq_none_iff.mp queue
    refine (onFields_of_fixed ?_).symm
    rw [empty]
    exact congrArg (fun l => { s.splice.services[i] with runQueue := l }) empty.symm
  | some last =>
    dsimp only
    rw [packetCount_of_defined defined]
    have joins (k : Nat) := joinHeader_run (s := s.onFields i fun f => { f with runQueue := f.runQueue.tail }) (i := i) defined k
    cases loops with
    | true =>
      rw [if_pos rfl, if_pos rfl]
      exact (joins _).trans (if_pos (Nat.mod_lt _ (some_ rfl))).symm
    | false =>
      rw [if_neg Bool.false_ne_true, if_neg Bool.false_ne_true]
      split
      · exact joins _
      · rfl

/-! ## A run's headers from packet 0 on (R94, R124) -/

/-- The run queue of a service is given `n` headers from packet 0 on, and their reads are requested. -/
def State.runAsks (s : State) (i : Fin 64) (n : Nat) (reads : List MemRead) : State :=
  (s.headersRequested n reads).onFields i fun f => { f with runQueue := f.runQueue ++ headerEntries s.splice.nextHeader n }

theorem runAsks_zero (s : State) (i : Fin 64) : s.runAsks i 0 [] = s := by
  have fields : modifyAt s.splice.services i (fun f => { f with runQueue := f.runQueue ++ headerEntries s.splice.nextHeader 0 }) =
      s.splice.services := modifyAt_of_fixed (by simp [headerEntries])
  unfold State.runAsks State.headersRequested State.onFields State.onSplice State.onPath
  dsimp only
  rw [fields, List.append_nil, Nat.add_zero]

theorem runAsks_joinHeader (defined : s.content.entries[content].definition = some cdef) (n : Nat) :
    (s.runAsks i n (headerReads i s.splice.nextHeader cdef n)).joinHeader i false content n =
      s.runAsks i (n + 1) (headerReads i s.splice.nextHeader cdef (n + 1)) := by
  rw [joinHeader_run (s := s.runAsks i n (headerReads i s.splice.nextHeader cdef n)) defined]
  simp only [State.runAsks, State.headersRequested, headerReads_succ, headerEntries_succ, ← List.append_assoc]
  simp only [State.onFields, State.onSplice, State.onPath, modifyAt_modifyAt, Nat.add_assoc]
  rfl

theorem fillHeaders_run (defined : s.content.entries[content].definition = some cdef) : s.fillHeaders i false content =
    s.runAsks i (min 16 cdef.packets) (headerReads i s.splice.nextHeader cdef (min 16 cdef.packets)) := by
  have all (n : Nat) : (List.range n).foldl (fun s k => s.joinHeader i false content k) s =
      s.runAsks i n (headerReads i s.splice.nextHeader cdef n) := by
    induction n with
    | zero => exact (runAsks_zero s i).symm
    | succ n ih =>
      rw [List.range_succ, List.foldl_append, ih]
      exact runAsks_joinHeader defined n
  unfold State.fillHeaders
  rw [packetCount_of_defined defined]
  exact all _

/-! ## A packet takes content (R95) -/

theorem headFor_cons {e : HeaderEntry} {rest : List HeaderEntry} (queue : s.splice.services[i].runQueue = e :: rest) :
    s.splice.services[i].headFor e.packet = some e.state := by
  unfold SpliceFields.headFor
  rw [queue]
  exact if_pos rfl

/-- The run queue's head is not the packet's, or is still LOADING. -/
theorem headFor_late {j : Nat}
    (late : (s.splice.services[i].runQueue.head?.all fun e => decide (e.packet ≠ j ∨ e.state = .loading)) = true) :
    s.splice.services[i].headFor j = none ∨ s.splice.services[i].headFor j = some .loading := by
  unfold SpliceFields.headFor
  cases queue : s.splice.services[i].runQueue with
  | nil => exact .inl rfl
  | cons e rest =>
    rw [queue] at late
    dsimp only
    by_cases own : e.packet = j
    · have loading : e.state = .loading := (of_decide_eq_true late).resolve_left (not_not.mpr own)
      rw [if_pos own, loading]
      exact .inr rfl
    · exact .inl (if_neg own)

section Take

variable (defined : s.content.entries[content].definition = some cdef) (source : Source) (j offset : Nat) (loops forced : Bool)

include defined

theorem mappedTo_eq (pid : Pid) : s.mappedTo i content pid =
    (cdef.comps.findIdx? (·.pid == pid)).bind fun ci => s.splice.services[i].roleMap.getD ci none := by
  unfold State.mappedTo
  rw [defined]
  dsimp only
  cases cdef.comps.findIdx? (·.pid == pid) <;> rfl

theorem takeContent_mapped {h : Header} {comp : Nat} {c : Component} (some_ : loops = true → 0 < cdef.packets)
    (head : s.splice.services[x.service].headFor j = some (.ready h))
    (mapped : (cdef.comps.findIdx? (·.pid == h.pid)).bind (fun ci => s.splice.services[x.service].roleMap.getD ci none) = some comp)
    (component : d.comps[comp]? = some c) : s.takeContent d x ⟨content, j, offset, source, loops⟩ forced =
      let taken := s.insertTaken d x source content cdef j offset h comp c forced
      (⟨taken.1.headUsed x.service cdef loops, taken.2, []⟩, true) := by
  have kept : (s.insertTaken d x source content cdef j offset h comp c forced).1.content.entries[content].definition = some cdef := by
    unfold State.insertTaken
    dsimp only
    cases (List.finRange 256).find? fun b => decide (s.content.prefetch[b] = .free) <;> cases source <;> exact defined
  unfold State.takeContent
  dsimp only
  rw [head]
  dsimp only
  rw [(mappedTo_eq (i := x.service) defined h.pid).trans mapped]
  dsimp only
  rw [insertPacket_eq defined component, consumeHead_eq kept loops some_]

theorem takeContent_unmapped {h : Header} (some_ : loops = true → 0 < cdef.packets)
    (head : s.splice.services[x.service].headFor j = some (.ready h))
    (unmapped : (cdef.comps.findIdx? (·.pid == h.pid)).bind (fun ci => s.splice.services[x.service].roleMap.getD ci none) = none) :
    s.takeContent d x ⟨content, j, offset, source, loops⟩ forced = (⟨s.headUsed x.service cdef loops, .null, []⟩, true) := by
  unfold State.takeContent
  dsimp only
  rw [head]
  dsimp only
  rw [(mappedTo_eq (i := x.service) defined h.pid).trans unmapped]
  dsimp only
  rw [consumeHead_eq defined loops some_]

theorem takeContent_failed (some_ : loops = true → 0 < cdef.packets)
    (head : s.splice.services[x.service].headFor j = some .failed) : s.takeContent d x ⟨content, j, offset, source, loops⟩ forced =
      (⟨s.headUsed x.service cdef loops, .null, [⟨.fetchFail, x.service.val, contentPacketAddress cdef j⟩]⟩, true) := by
  unfold State.takeContent
  dsimp only
  rw [head]
  dsimp only
  rw [consumeHead_eq defined loops some_, contentAddress_of_defined defined]

theorem takeContent_late
    (head : s.splice.services[x.service].headFor j = none ∨ s.splice.services[x.service].headFor j = some .loading) :
    s.takeContent d x ⟨content, j, offset, source, loops⟩ forced =
      (⟨s, .null, [⟨.fetchLate, x.service.val, contentPacketAddress cdef j⟩]⟩, false) := by
  unfold State.takeContent
  dsimp only
  rw [contentAddress_of_defined defined]
  rcases head with absent | loading
  · rw [absent]
  · rw [loading]

end Take

/-! ## What taking content leaves -/

/-- Of what later steps read, a packet that takes content moves only the counts of a record. -/
structure State.Took (s u : State) (i : Fin 64) : Prop where
  test : u.splice.services[i].test = s.splice.services[i].test
  run : u.splice.services[i].run = s.splice.services[i].run
  records : ∀ r : Fin 68, ∃ n m, u.splice.records[r] = { s.splice.records[r] with inserted := n, outstanding := m }
  entries : u.content.entries = s.content.entries
  timebase : u.timebase = s.timebase
  clock : u.clock = s.clock
  limits : u.limits = s.limits

theorem State.Took.refl (s : State) (i : Fin 64) : s.Took s i := ⟨rfl, rfl, fun _ => ⟨_, _, rfl⟩, rfl, rfl, rfl, rfl⟩

theorem State.Took.trans {v : State} (first : s.Took u i) (second : u.Took v i) : s.Took v i := by
  refine ⟨second.test.trans first.test, second.run.trans first.run, fun r => ?_, second.entries.trans first.entries,
    second.timebase.trans first.timebase, second.clock.trans first.clock, second.limits.trans first.limits⟩
  obtain ⟨n, m, one⟩ := first.records r
  obtain ⟨n', m', two⟩ := second.records r
  exact ⟨n', m', by rw [two, one]⟩

theorem onFields_took {f : SpliceFields → SpliceFields} (test : (f s.splice.services[i]).test = s.splice.services[i].test)
    (run : (f s.splice.services[i]).run = s.splice.services[i].run) : s.Took (s.onFields i f) i :=
  ⟨by rw [onFields_at, test], by rw [onFields_at, run], fun _ => ⟨_, _, rfl⟩, rfl, rfl, rfl, rfl⟩

theorem headUsed_took (s : State) (i : Fin 64) (cdef : ContentDef) (loops : Bool) : s.Took (s.headUsed i cdef loops) i := by
  have used : s.Took (s.onFields i fun f => { f with runQueue := f.runQueue.tail }) i := onFields_took rfl rfl
  have joined (v : State) (queue : List HeaderEntry) (next : Nat) (reads : List MemRead) :
      v.Took (((v.onFields i fun f => { f with runQueue := f.runQueue ++ queue }).onSplice fun u => { u with nextHeader := next }).onPath
        fun p => { p with fetchQueue := p.fetchQueue ++ reads }) i := by
    refine State.Took.trans (u := v.onFields i fun f => { f with runQueue := f.runQueue ++ queue }) (onFields_took rfl rfl) ?_
    exact ⟨rfl, rfl, fun _ => ⟨_, _, rfl⟩, rfl, rfl, rfl, rfl⟩
  unfold State.headUsed
  dsimp only
  split
  · exact used
  · next l _ =>
    generalize (if loops then (l.packet + 1) % cdef.packets else l.packet + 1) = k
    split
    · exact used.trans (joined ..)
    · exact used

theorem insertTaken_took (s : State) (source : Source) (j offset : Nat) (h : Header) (comp : Nat) (c : Component) (forced : Bool) :
    s.Took (s.insertTaken d x source content cdef j offset h comp c forced).1 x.service := by
  have counts (v : State) (r : Fin 68) : v.Took (v.onRecord r fun y => { y with inserted := y.inserted + 1, outstanding := y.outstanding + 1 })
      x.service := by
    refine ⟨rfl, rfl, fun q => ?_, rfl, rfl, rfl, rfl⟩
    by_cases own : q = r
    · subst own
      exact ⟨_, _, onRecord_at ..⟩
    · refine ⟨v.splice.records[q].inserted, v.splice.records[q].outstanding, ?_⟩
      rw [State.onRecord_splice_records, modifyAt_fin, if_neg fun same => own same.symm]
  have fetched (v : State) (b : Fin 256) (p : Prefetch) (q : MemRead) :
      v.Took ((v.onContent fun u => { u with prefetch := u.prefetch.set b p }).onPath fun l => { l with fetchQueue := l.fetchQueue ++ [q] })
        x.service := ⟨rfl, rfl, fun _ => ⟨_, _, rfl⟩, rfl, rfl, rfl, rfl⟩
  unfold State.insertTaken
  dsimp only
  have marked (g : SpliceFields → List OutputCC) (m : SpliceFields → Bool) :
      s.Took (s.onFields x.service fun f => { f with outputCC := g f, markPending := m f }) x.service := onFields_took rfl rfl
  cases (List.finRange 256).find? fun b => decide (s.content.prefetch[b] = .free) <;> cases source
  · exact (marked _ _).trans (counts _ _)
  · exact (marked _ _).trans ⟨rfl, rfl, fun _ => ⟨_, _, rfl⟩, rfl, rfl, rfl, rfl⟩
  · exact (marked _ _).trans ((fetched ..).trans (counts ..))
  · exact (marked _ _).trans ⟨rfl, rfl, fun _ => ⟨_, _, rfl⟩, rfl, rfl, rfl, rfl⟩

end Sys2Proof.Machine
end

section
/-! SUPPORT. A packet on air, by the state of its service (05, R103 to R106; 06, R125 to R128). -/

namespace Sys2Proof.Machine

variable {s u before : State} {i : Fin 64} {d : Service} {x : TakeNotice} {content : Fin 128} {cdef : ContentDef} {r : Fin 68}

/-! ## A packet that takes content, whatever the run -/

/-- The errors that a decision found are raised once it has been made (DEDUCED, log 13). -/
def Decided.raised (out : Decided) : State × Action :=
  (out.errors.foldl (fun s e => s.raise e.kind e.index e.address none) out.state, out.action)

theorem decidePacket_clear (clear : s.alert.overlays[x.service] = .none) : s.decidePacket d x = (s.splicePacket d x).raised :=
  decidePacket_of_no_overlay clear

theorem decidePacket_covered (covered : s.alert.overlays[x.service] ≠ .none) : s.decidePacket d x = (s.overlayPacket d x).raised := by
  unfold State.decidePacket
  rw [if_neg covered]
  rfl

/-- What follows the take of a content packet, where the packet index advances. -/
def Decided.advancing (p : Decided × Bool) (next : State → State) : Decided :=
  if p.2 then { p.1 with state := next p.1.state } else p.1

/-- What a packet is given by the head of the run queue (R95), once what follows its take is known. -/
theorem takesContent_of {source : Source} {j offset : Nat} {loops : Bool} {next advanced : State → State}
    (defined : before.content.entries[content].definition = some cdef) (some_ : loops = true → 0 < cdef.packets)
    (queue : before.splice.services[x.service].runQueue = s.splice.services[x.service].runQueue)
    (map : before.splice.services[x.service].roleMap = s.splice.services[x.service].roleMap)
    (decided : s.decidePacket d x =
      (Decided.advancing (before.takeContent d x ⟨content, j, offset, source, loops⟩ false) next).raised)
    (follows : ∀ u, before.Took u x.service → next u = advanced u) :
    s.TakesContent before d x source content cdef j offset loops advanced := by
  have head {serial : Nat} {state : HeaderState} {rest : List HeaderEntry}
      (is : s.splice.services[x.service].runQueue = ⟨j, serial, state⟩ :: rest) :
      before.splice.services[x.service].headFor j = some state := headFor_cons (queue.trans is)
  refine ⟨fun serial h rest ci comp c is found mapped component => ?_, fun serial h rest is unmapped => ?_, fun serial rest is => ?_,
    fun late => ?_⟩
  · rw [decided, takeContent_mapped defined source j offset loops false some_ (head is) (by rw [found, map]; exact mapped) component]
    have took := (insertTaken_took (d := d) (x := x) (content := content) (cdef := cdef) before source j offset h comp c false).trans
      (headUsed_took _ x.service cdef loops)
    exact congrArg (·, _) (follows _ took)
  · rw [decided, takeContent_unmapped defined source j offset loops false some_ (head is) (by rw [map]; exact unmapped)]
    exact congrArg (·, _) (follows _ (headUsed_took ..))
  · rw [decided, takeContent_failed defined source j offset loops false some_ (head is)]
    exact congrArg (fun v : State => (v.raise .fetchFail x.service.val (contentPacketAddress cdef j) none, Action.null))
      (follows _ (headUsed_took ..))
  · rw [decided, takeContent_late defined source j offset loops false (headFor_late (queue.symm ▸ late))]
    rfl

/-! ## An insertion on air (R103 to R106) -/

theorem t90_congr (timebase : u.timebase = s.timebase) (i : Fin 64) (n : Count32) : u.t90 i n = s.t90 i n := by
  unfold State.t90 State.t27
  rw [timebase]

/-- The insertion is RETURNING, with that end reason, bound and deadline (R105). -/
def State.returned (s : State) (i : Fin 64) (r : Fin 68) (reason : EndReason) (bound : Bound) (limit : Option Time90) : State :=
  (s.onRecord r fun y => { y with endReason := some reason, bound := bound, deadline := limit }).onFields i fun f => { f with state := .returning }

/-- The return deadline that a packet at `now` sets (R105, R106). -/
def returnLimit (s : State) (now : Option Time90) : Option Time90 := now.map (· + BitVec.ofNat 33 s.limits.tolerance)

theorem enterReturning_eq (reason : EndReason) :
    s.enterReturning i r reason = s.returned i r reason (.armed (after s.clock s.closeTicks)) none := rfl

theorem setReturnDeadline_eq (now : Option Time90) : s.setReturnDeadline r now =
    s.onRecord r fun y => { y with deadline := s.splice.records[r].deadline.or (returnLimit s now) } := by
  refine onRecord_congr ?_
  cases deadline : s.splice.records[r].deadline with
  | some l => exact congrArg (fun v => { s.splice.records[r] with deadline := v }) deadline
  | none =>
    cases now with
    | some v => rfl
    | none => exact congrArg (fun v => { s.splice.records[r] with deadline := v }) deadline

/-- The deadline of an insertion that has just gone RETURNING is set at once, where time is present. -/
theorem returned_deadline (reason : EndReason) (bound : Bound) (now : Option Time90) :
    (s.returned i r reason bound none).setReturnDeadline r now = s.returned i r reason bound (returnLimit s now) := by
  rw [setReturnDeadline_eq]
  have unset : (s.returned i r reason bound none).splice.records[r].deadline = none := by
    unfold State.returned
    rw [State.onFields_splice_records, onRecord_at]
  rw [unset]
  exact congrArg (fun v : State => v.onFields i fun f => { f with state := .returning })
    (onRecord_onRecord s r (fun y => { y with endReason := some reason, bound := bound, deadline := none })
      fun y => { y with deadline := returnLimit s now })

section Insertion

variable (clear : s.alert.overlays[x.service] = .none) (current : s.splice.services[x.service].current = some r)

include clear current

theorem decidePacket_inserting (state : s.splice.services[x.service].state = .inserting) :
    s.decidePacket d x = (s.insertingPacket d x r).raised := by
  rw [decidePacket_clear clear]
  unfold State.splicePacket
  simp only [state, current]

theorem decidePacket_exhausted (state : s.splice.services[x.service].state = .exhausted) :
    s.decidePacket d x = (s.exhaustedPacket d x r).raised := by
  rw [decidePacket_clear clear]
  unfold State.splicePacket
  simp only [state, current]

theorem decidePacket_returning (state : s.splice.services[x.service].state = .returning) :
    s.decidePacket d x = (s.returningPacket d x r).raised := by
  rw [decidePacket_clear clear]
  unfold State.splicePacket
  simp only [state, current]

/-- A packet at which the insertion goes RETURNING is decided as in RETURNING. -/
theorem decidePacket_returned (reason : EndReason) (bound : Bound) (limit : Option Time90) :
    (s.returned x.service r reason bound limit).decidePacket d x = ((s.returned x.service r reason bound limit).returningPacket d x r).raised := by
  refine decidePacket_returning clear ?_ ?_
  · exact (congrArg SpliceFields.current (onFields_at ..)).trans current
  · exact congrArg SpliceFields.state (onFields_at ..)

end Insertion

/-- The insertion's cursor moves on. -/
def State.cursorMoved (s : State) (r : Fin 68) : State := s.onRecord r fun y => { y with cursor := y.cursor + 1 }

theorem insertionTake_eq (s : State) (d : Service) (x : TakeNotice) (r : Fin 68) :
    s.insertionTake d x r = Decided.advancing (s.takeContent d x (s.insertionRun r) false) (·.cursorMoved r) := rfl

/-- The cursor of the record that took content, and what the later steps read of it. -/
theorem State.Took.moved (took : s.Took u i) : ∃ n m, (u.cursorMoved r).splice.records[r] =
    { s.splice.records[r] with inserted := n, outstanding := m, cursor := s.splice.records[r].cursor + 1 } := by
  obtain ⟨n, m, same⟩ := took.records r
  exact ⟨n, m, (onRecord_at ..).trans (by rw [same])⟩

/-- What follows a packet that took content in INSERTING: behind the last content packet RETURNING, or EXHAUSTED (R103, R105). -/
def State.insertionEnded (s : State) (x : TakeNotice) (r : Fin 68) (cdef : ContentDef) (u : State) : State :=
  if s.splice.records[r].cursor + 1 < cdef.packets then u.cursorMoved r
  else if s.splice.records[r].endAtContent = true ∨ s.splice.records[r].d = 0 then
    (u.cursorMoved r).returned x.service r .contentEnd (.armed (after s.clock s.closeTicks)) (returnLimit s (s.t90 x.service x.n))
  else (u.cursorMoved r).onFields x.service fun f => { f with state := .exhausted }

/-- The end of the content behind a packet that took it. -/
theorem contentEnds_eq (took : s.Took u x.service) (defined : s.content.entries[s.splice.records[r].content].definition = some cdef) :
    (u.cursorMoved r).contentEnds x r = s.insertionEnded x r cdef u := by
  unfold State.insertionEnded
  obtain ⟨n, m, record⟩ := took.moved (r := r)
  have count : (u.cursorMoved r).packetCount s.splice.records[r].content = cdef.packets :=
    packetCount_of_defined (cdef := cdef) ((congrArg (fun e : Vector ContentEntry 128 => e[s.splice.records[r].content].definition)
      took.entries).trans defined)
  unfold State.contentEnds
  rw [record]
  dsimp only
  rw [count]
  by_cases more : s.splice.records[r].cursor + 1 < cdef.packets
  · rw [if_pos more]
    exact if_neg (Nat.not_le.mpr more)
  · rw [if_neg more, if_pos (Nat.not_lt.mp more)]
    refine if_congr (by simp) ?_ rfl
    have time : (u.cursorMoved r).t90 x.service x.n = s.t90 x.service x.n := t90_congr took.timebase ..
    have closes : after (u.cursorMoved r).clock (u.cursorMoved r).closeTicks = after s.clock s.closeTicks := by
      rw [show (u.cursorMoved r).clock = s.clock from took.clock]
      exact congrArg (fun l : Limits => after s.clock (l.close * Config.ticksPerMs)) took.limits
    have limit : returnLimit (u.cursorMoved r) (s.t90 x.service x.n) = returnLimit s (s.t90 x.service x.n) :=
      congrArg (fun l : Limits => (s.t90 x.service x.n).map (· + BitVec.ofNat 33 l.tolerance)) took.limits
    rw [enterReturning_eq, returned_deadline, time, closes, limit]

/-- Content that is not at its end goes on. -/
theorem contentEnds_goes (defined : s.content.entries[s.splice.records[r].content].definition = some cdef)
    (more : s.splice.records[r].cursor < cdef.packets) : s.contentEnds x r = s := by
  unfold State.contentEnds
  dsimp only
  rw [packetCount_of_defined defined]
  exact if_neg (Nat.not_le.mpr more)

/-! ## An alert on air (R125 to R128) -/

theorem overlayPacket_untested (untested : s.splice.services[x.service].test = none) : s.overlayPacket d x =
    { s.overlayDecision d x with state := (s.overlayDecision d x).state.testPacket d x true none } := by
  unfold State.overlayPacket
  rw [untested]
  rfl

theorem overlayDecision_airing {q : AlertRun} (run : s.splice.services[x.service].run = some q) (airs : q.returning = false) :
    s.overlayDecision d x = s.airingPacket d x q := by
  unfold State.overlayDecision
  rw [run]
  exact if_neg (Bool.eq_false_iff.mp airs)

theorem takes_iff (m : AlertMode) (d : Service) (comp : Nat) :
    m.takes d comp = true ↔ m = .full ∨ d.comps[comp]?.map Component.role = some .audio := by
  cases m with
  | full => exact iff_of_true rfl (.inl rfl)
  | audioOnly => exact beq_iff_eq.trans (or_iff_right fun same => nomatch same).symm

/-- The run goes on behind a packet: to the next content packet, or from packet 0 again (R128). -/
def State.runAdvanced (s : State) (i : Fin 64) (q : AlertRun) (cdef : ContentDef) : State :=
  if cdef.packets ≤ q.cursor + 1 then s.loopRun i q.content else s.onRun i fun r => { r with cursor := r.cursor + 1 }

/-- What the run gives the packet. -/
def AlertRun.view (q : AlertRun) (i : Fin 64) : RunView := ⟨q.content, q.cursor, q.offset, .alert q.entry q.generation i, true⟩

/-- A packet under a run whose start is not pending, or waits for its header. -/
theorem alertTake_steady {q : AlertRun} (run : s.splice.services[x.service].run = some q)
    (defined : s.content.entries[q.content].definition = some cdef)
    (steady : (q.startPending && s.splice.services[x.service].startReady) = false) :
    s.alertTake d x q = Decided.advancing (s.takeContent d x (q.view x.service) false) (·.runAdvanced x.service q cdef) := by
  unfold State.alertTake
  rw [steady, if_neg Bool.false_ne_true]
  dsimp only
  rw [run, Option.getD_some, packetCount_of_defined defined]
  unfold Decided.advancing State.runAdvanced AlertRun.view
  split
  · split <;> rfl
  · rfl

/-- A packet at which a run starts. -/
theorem alertTake_starts {q q' : AlertRun} {started : State} {forced : Bool}
    (ready : (q.startPending && s.splice.services[x.service].startReady) = true) (starts : s.runStart d x q = (started, forced))
    (run' : started.splice.services[x.service].run = some q') (defined : started.content.entries[q'.content].definition = some cdef) :
    s.alertTake d x q = Decided.advancing (started.takeContent d x (q'.view x.service) forced) (·.runAdvanced x.service q' cdef) := by
  unfold State.alertTake
  rw [ready, if_pos rfl, starts]
  dsimp only
  rw [run', Option.getD_some, packetCount_of_defined defined]
  unfold Decided.advancing State.runAdvanced AlertRun.view
  split
  · split <;> rfl
  · rfl

/-- The mark that a run start without network time forces on its packet (R46). -/
def Action.forced (a : Action) (mark : Bool) : Action :=
  match mark, a with
  | true, .insert f => .insert { f with rewrite := { f.rewrite with mark := true } }
  | _, a => a

/-- A forced mark changes the action alone. -/
theorem takeContent_forced (s : State) (d : Service) (x : TakeNotice) (v : RunView) (mark : Bool) : s.takeContent d x v mark =
    ({ (s.takeContent d x v false).1 with action := (s.takeContent d x v false).1.action.forced mark }, (s.takeContent d x v false).2) := by
  unfold State.takeContent
  dsimp only
  cases s.splice.services[x.service].headFor v.cursor with
  | none => cases mark <;> rfl
  | some state =>
    cases state with
    | loading => cases mark <;> rfl
    | failed => cases mark <;> rfl
    | ready h =>
      dsimp only
      cases s.mappedTo x.service v.content h.pid with
      | none => cases mark <;> rfl
      | some comp =>
        cases mark with
        | false => rfl
        | true =>
          unfold State.insertPacket
          simp [Action.forced]

/-- The role map and the deltas that a run start forms (R95). -/
theorem formRun_eq (defined : s.content.entries[content].definition = some cdef) : s.formRun i d content = s.runFormed i d content cdef := by
  unfold State.formRun State.runFormed runDeltas runDelta
  dsimp only
  rw [defined] <;> rfl

/-- The offset of a run that starts at a packet with that network time (R46). -/
def startOffset (now : Option Nat) (first : Nat) : Nat :=
  match now with
  | some t => (t + 2576980377600 - first) % 2576980377600
  | none => 0

/-- A run starts: its offset, role map and deltas are formed and a mark is owed (R125). -/
theorem runStart_eq {q : AlertRun} (run : s.splice.services[x.service].run = some q)
    (defined : s.content.entries[q.content].definition = some cdef) {first : FirstClock}
    (clock : s.content.entries[q.content].iFirst = some first) : s.runStart d x q =
      ((s.runFormed x.service d q.content cdef).onFields x.service fun f =>
        { f with run := some { q with startPending := false, offset := startOffset (s.t27 x.service x.n) first.value }, markPending := true },
        (s.t27 x.service x.n).isNone) := by
  have iFirst : s.iFirst q.content = first.value := by
    unfold State.iFirst
    rw [clock]
  have started (o : Nat) : ((s.onRun x.service fun r => { r with startPending := false, offset := o }).formRun x.service d q.content).oweMark
      x.service = (s.runFormed x.service d q.content cdef).onFields x.service fun f =>
        { f with run := some { q with startPending := false, offset := o }, markPending := true } := by
    rw [formRun_eq (s := s.onRun x.service _) defined]
    unfold State.oweMark State.runFormed State.onRun
    dsimp only
    rw [onFields_onFields, onFields_onFields, onFields_onFields]
    refine onFields_congr ?_
    dsimp only [Function.comp]
    rw [run]
    rfl
  unfold State.runStart
  dsimp only
  rw [started]
  cases s.t27 x.service x.n with
  | none => rfl
  | some t =>
    rw [iFirst]
    rfl

/-! ## What follows the take -/

/-- A packet that does not advance leaves the state. -/
theorem takeContent_stays {v : RunView} {mark : Bool} (stays : (s.takeContent d x v mark).2 = false) : (s.takeContent d x v mark).1.state = s := by
  unfold State.takeContent at stays ⊢
  dsimp only at stays ⊢
  split at stays
  · exact nomatch stays
  · exact nomatch stays
  · rfl
  · rfl

/-- A step behind the take that does nothing where the packet index stays is part of what follows the take. -/
theorem advancing_then {v : RunView} {mark : Bool} {next rest : State → State} (stays : rest s = s) :
    { Decided.advancing (s.takeContent d x v mark) next with
      state := rest (Decided.advancing (s.takeContent d x v mark) next).state } =
      Decided.advancing (s.takeContent d x v mark) fun u => rest (next u) := by
  unfold Decided.advancing
  cases advanced : (s.takeContent d x v mark).2 with
  | true => rfl
  | false =>
    dsimp only
    rw [if_neg Bool.false_ne_true, if_neg Bool.false_ne_true, takeContent_stays advanced, stays]
    exact congrArg (fun y => { (s.takeContent d x v mark).1 with state := y }) (takeContent_stays advanced).symm

/-- The content of a run loops: packet 0 is next, its start pending, the headers asked for again (R128). -/
theorem loopRun_eq (defined : s.content.entries[content].definition = some cdef) : s.loopRun i content =
    ((s.onFields i fun f =>
      { f with
        run := f.run.map fun q => { q with cursor := 0, startPending := true }
        runQueue := headerEntries s.splice.nextHeader (min 16 cdef.packets) }).onSplice fun a =>
          { a with nextHeader := a.nextHeader + min 16 cdef.packets }).onPath fun p =>
            { p with fetchQueue := p.fetchQueue ++ headerReads i s.splice.nextHeader cdef (min 16 cdef.packets) } := by
  unfold State.loopRun
  dsimp only
  rw [fillHeaders_run (s := (s.onRun i _).onFields i _) defined]
  unfold State.runAsks State.headersRequested State.onRun State.onFields State.onSplice State.onPath
  simp only [modifyAt_modifyAt]
  rfl

theorem onFields_test {f : SpliceFields → SpliceFields} (same : ∀ y, (f y).test = y.test) :
    (s.onFields i f).splice.services[i].test = s.splice.services[i].test := by
  rw [onFields_at, same]

theorem contentEnds_test (s : State) (x : TakeNotice) (r : Fin 68) :
    (s.contentEnds x r).splice.services[x.service].test = s.splice.services[x.service].test := by
  unfold State.contentEnds
  dsimp only
  split
  · split
    · rw [enterReturning_eq, returned_deadline]
      exact onFields_test (s := s.onRecord r _) fun _ => rfl
    · exact onFields_test fun _ => rfl
  · rfl

theorem runAdvanced_test {q : AlertRun} (defined : s.content.entries[q.content].definition = some cdef) :
    (s.runAdvanced i q cdef).splice.services[i].test = s.splice.services[i].test := by
  unfold State.runAdvanced
  split
  · rw [loopRun_eq defined]
    exact onFields_test (s := s) (i := i) (f := fun f => { f with
      run := f.run.map fun q => { q with cursor := 0, startPending := true }
      runQueue := headerEntries s.splice.nextHeader (min 16 cdef.packets) }) fun _ => rfl
  · exact onFields_test fun _ => rfl

theorem advancing_forced {v : RunView} (mark : Bool) (next : State → State) : Decided.advancing (s.takeContent d x v mark) next =
    { Decided.advancing (s.takeContent d x v false) next with
      action := (Decided.advancing (s.takeContent d x v false) next).action.forced mark } := by
  rw [takeContent_forced]
  unfold Decided.advancing
  dsimp only
  split <;> rfl

/-! ## The packet of an insertion or of an alert -/

theorem durationReached_eq (y : InsertionRecord) (now : Option Time90) :
    durationReached y now = now.any fun v => hasReached v (y.tOut + BitVec.ofNat 33 y.d) := by
  cases now <;> rfl

theorem forcedAt_false {y : InsertionRecord} {now : Option Time90} (early : (now.any fun v => y.deadline.any fun l => hasReached v l) = false)
    (held : now = none → y.bound ≠ .passed) : y.forcedAt now = false := by
  unfold InsertionRecord.forcedAt
  cases now with
  | none => exact beq_eq_false_iff_ne.mpr (held rfl)
  | some v =>
    cases deadline : y.deadline with
    | none => rfl
    | some l =>
      rw [deadline] at early
      exact early

/-- The record with that return deadline. -/
def InsertionRecord.dueBy (y : InsertionRecord) (limit : Option Time90) : InsertionRecord := { y with deadline := limit }

/-- The return deadline that stands at a packet: the one set, or the one that the packet sets. -/
def State.dueAt (s : State) (r : Fin 68) (now : Option Time90) : Option Time90 := s.splice.records[r].deadline.or (returnLimit s now)

/-- The return deadline is set. -/
def State.deadlined (s : State) (r : Fin 68) (now : Option Time90) : State := s.onRecord r fun y => y.dueBy (s.dueAt r now)

theorem deadlined_record (s : State) (r : Fin 68) (now : Option Time90) :
    (s.deadlined r now).splice.records[r] = s.splice.records[r].dueBy (s.dueAt r now) := onRecord_at ..

/-- A packet in RETURNING that is no return packet (R106). -/
theorem returningPacket_inside (inside : entryPoint d x = false)
    (early : ((s.t90 x.service x.n).any fun v => (s.dueAt r (s.t90 x.service x.n)).any fun l => hasReached v l) = false)
    (held : s.t90 x.service x.n = none → s.splice.records[r].bound ≠ .passed) : s.returningPacket d x r =
      let b := s.deadlined r (s.t90 x.service x.n)
      let out : Decided :=
        if s.splice.records[r].cursor < s.packetCount s.splice.records[r].content then b.insertionTake d x r else ⟨b.countNull r, .null, []⟩
      { out with state := out.state.testPacket d x true (out.state.markMiss x.service) } := by
  have deadline : s.setReturnDeadline r (s.t90 x.service x.n) = s.deadlined r (s.t90 x.service x.n) := setReturnDeadline_eq _
  have unforced : (s.splice.records[r].dueBy (s.dueAt r (s.t90 x.service x.n))).forcedAt (s.t90 x.service x.n) = false :=
    forcedAt_false early held
  unfold State.returningPacket
  dsimp only
  rw [deadline, deadlined_record, if_neg (Bool.eq_false_iff.mp inside), if_neg (Bool.eq_false_iff.mp unforced)]
  rfl

section Decide

variable (clear : s.alert.overlays[x.service] = .none) (current : s.splice.services[x.service].current = some r)
  (untested : s.splice.services[x.service].test = none)

include clear current untested

/-- In INSERTING, with the duration not reached, the packet takes content (R103). -/
theorem inserting_takes (state : s.splice.services[x.service].state = .inserting)
    (defined : s.content.entries[s.splice.records[r].content].definition = some cdef)
    (short : (decide (0 < s.splice.records[r].d) && durationReached s.splice.records[r] (s.t90 x.service x.n)) = false)
    (more : s.splice.records[r].cursor < cdef.packets) :
    s.TakesContent s d x (.insertion r s.splice.records[r].generation) s.splice.records[r].content cdef s.splice.records[r].cursor
      s.splice.records[r].offset false (s.insertionEnded x r cdef) := by
  have stays : (s.contentEnds x r).testPacket d x false none = s := by
    rw [contentEnds_goes defined more]
    exact testPacket_of_untested untested ..
  have taken : s.insertingPacket d x r = Decided.advancing (s.takeContent d x (s.insertionRun r) false) fun u =>
      ((u.cursorMoved r).contentEnds x r).testPacket d x false none := by
    unfold State.insertingPacket
    dsimp only
    rw [if_neg (Bool.eq_false_iff.mp short), insertionTake_eq]
    exact advancing_then (rest := fun u => (u.contentEnds x r).testPacket d x false none) stays
  refine takesContent_of (loops := false) defined (fun loops => absurd loops Bool.false_ne_true) rfl rfl
    ((decidePacket_inserting clear current state).trans (congrArg Decided.raised taken)) fun u took => ?_
  have ended : ((u.cursorMoved r).contentEnds x r).splice.services[x.service].test = none :=
    (contentEnds_test (u.cursorMoved r) x r).trans (took.test.trans untested)
  exact (testPacket_of_untested ended false none).trans (contentEnds_eq took defined)

/-- In EXHAUSTED, short of its duration, the packet is NULL and counted (R104). -/
theorem exhausted_null (state : s.splice.services[x.service].state = .exhausted) (present : s.t90 x.service x.n ≠ none)
    (short : durationReached s.splice.records[r] (s.t90 x.service x.n) = false) : s.decidePacket d x = (s.countNull r, .null) := by
  have inside : s.exhaustedPacket d x r = ⟨(s.countNull r).testPacket d x false none, .null, []⟩ :=
    (if_neg fun absent => present (Option.isNone_iff_eq_none.mp absent)).trans (if_neg (Bool.eq_false_iff.mp short))
  rw [decidePacket_exhausted clear current state, inside, testPacket_of_untested (s := s.countNull r) untested]
  rfl

section Inside

variable (state : s.splice.services[x.service].state = .returning) (inside : entryPoint d x = false)
  (early : ((s.t90 x.service x.n).any fun v => (s.dueAt r (s.t90 x.service x.n)).any fun l => hasReached v l) = false)
  (held : s.t90 x.service x.n = none → s.splice.records[r].bound ≠ .passed)
  (defined : s.content.entries[s.splice.records[r].content].definition = some cdef)

include state inside early held defined

/-- In RETURNING, short of a return packet, the packet takes content while there is any (R106). -/
theorem returning_takes (more : s.splice.records[r].cursor < cdef.packets) :
    s.TakesContent (s.deadlined r (s.t90 x.service x.n)) d x (.insertion r s.splice.records[r].generation) s.splice.records[r].content cdef
      s.splice.records[r].cursor s.splice.records[r].offset false (·.cursorMoved r) := by
  have made := returningPacket_inside (d := d) inside early held
  have run : (s.deadlined r (s.t90 x.service x.n)).insertionRun r = ⟨s.splice.records[r].content, s.splice.records[r].cursor,
      s.splice.records[r].offset, .insertion r s.splice.records[r].generation, false⟩ := by
    unfold State.insertionRun
    rw [deadlined_record]
    rfl
  dsimp only at made
  rw [packetCount_of_defined defined, if_pos more] at made
  rw [insertionTake_eq, run, advancing_then (rest := fun u => u.testPacket d x true (u.markMiss x.service))
    (testPacket_of_untested (s := s.deadlined r (s.t90 x.service x.n)) untested ..)] at made
  exact takesContent_of (loops := false) defined (fun loops => absurd loops Bool.false_ne_true) rfl rfl
    ((decidePacket_returning clear current state).trans (congrArg Decided.raised made))
    fun u took => testPacket_of_untested (s := u.cursorMoved r) (took.test.trans untested) ..

/-- With none left it is NULL and counted. -/
theorem returning_null (done : cdef.packets ≤ s.splice.records[r].cursor) :
    s.decidePacket d x = ((s.deadlined r (s.t90 x.service x.n)).countNull r, .null) := by
  have made := returningPacket_inside (d := d) inside early held
  dsimp only at made
  rw [packetCount_of_defined defined, if_neg (Nat.not_lt.mpr done)] at made
  rw [decidePacket_returning clear current state, made]
  exact congrArg (·, Action.null) (testPacket_of_untested (s := (s.deadlined r (s.t90 x.service x.n)).countNull r) untested ..)

end Inside

end Decide

/-- A packet of a service under an alert that airs, with no cue under test. -/
theorem decidePacket_airing {q : AlertRun} (covered : s.alert.overlays[x.service] ≠ .none) (run : s.splice.services[x.service].run = some q)
    (airs : q.returning = false) (untested : s.splice.services[x.service].test = none) : s.decidePacket d x =
      Decided.raised { s.airingPacket d x q with state := (s.airingPacket d x q).state.testPacket d x true none } := by
  rw [decidePacket_covered covered, overlayPacket_untested untested, overlayDecision_airing run airs]

theorem airingPacket_takes {q : AlertRun} (takes : q.mode = .full ∨ d.comps[x.comp]?.map Component.role = some .audio) :
    s.airingPacket d x q = s.alertTake d x q := if_pos ((takes_iff ..).mpr takes)

/-- What follows the take under an alert, the cue test included. -/
def State.runFollowed (s : State) (d : Service) (x : TakeNotice) (q : AlertRun) (cdef : ContentDef) : State :=
  (s.runAdvanced x.service q cdef).testPacket d x true none

theorem runFollowed_eq {q : AlertRun} (defined : s.content.entries[q.content].definition = some cdef)
    (untested : s.splice.services[x.service].test = none) : s.runFollowed d x q cdef = s.runAdvanced x.service q cdef :=
  testPacket_of_untested ((runAdvanced_test defined).trans untested) ..

theorem startReady_late (late : s.splice.services[i].headFor 0 = none ∨ s.splice.services[i].headFor 0 = some .loading) :
    s.splice.services[i].startReady = false := by
  unfold SpliceFields.startReady
  rcases late with absent | loading
  · rw [absent]
  · rw [loading]

theorem startReady_settled {serial : Nat} {state : HeaderState} {rest : List HeaderEntry}
    (queue : s.splice.services[i].runQueue = ⟨0, serial, state⟩ :: rest) (settled : state ≠ .loading) :
    s.splice.services[i].startReady = true := by
  have head : s.splice.services[i].headFor 0 = some state := headFor_cons queue
  unfold SpliceFields.startReady
  rw [head]
  cases state with
  | loading => exact absurd rfl settled
  | ready h => rfl
  | failed => rfl

section Airing

variable {q : AlertRun} (covered : s.alert.overlays[x.service] ≠ .none) (run : s.splice.services[x.service].run = some q)
  (airs : q.returning = false) (untested : s.splice.services[x.service].test = none)

include covered run airs untested

/-- A packet that the run gives no content passes with rewrite (R127). -/
theorem airing_passes (other : ¬ (q.mode = .full ∨ d.comps[x.comp]?.map Component.role = some .audio)) :
    s.decidePacket d x = s.passRewrite d x := by
  have passes : s.airingPacket d x q = ⟨(s.passRewrite d x).1, (s.passRewrite d x).2, []⟩ := if_neg fun is => other ((takes_iff ..).mp is)
  rw [decidePacket_airing covered run airs untested, passes]
  dsimp only
  rw [testPacket_of_untested ((passRewrite_test s d x).trans untested)]
  rfl

/-- At a run start the packet is decided under the run that has begun; absent network time forces its mark (R125, R46). -/
theorem airing_starts {q' : AlertRun} {begun : State} {forced : Bool}
    (takes : q.mode = .full ∨ d.comps[x.comp]?.map Component.role = some .audio) (ready : (q.startPending && s.splice.services[x.service].startReady) = true) (starts : s.runStart d x q = (begun, forced))
    (run' : begun.splice.services[x.service].run = some q') (mode : q'.mode = q.mode) (airs' : q'.returning = false)
    (steady : q'.startPending = false) (covered' : begun.alert.overlays[x.service] ≠ .none)
    (untested' : begun.splice.services[x.service].test = none) (defined' : begun.content.entries[q'.content].definition = some cdef) :
    s.decidePacket d x = ((begun.decidePacket d x).1, (begun.decidePacket d x).2.forced forced) := by
  have here := decidePacket_airing (d := d) covered run airs untested
  rw [airingPacket_takes takes, alertTake_starts ready starts run' defined', advancing_forced] at here
  have there := decidePacket_airing (d := d) covered' run' airs' untested'
  rw [airingPacket_takes (mode ▸ takes), alertTake_steady run' defined' (by rw [steady]; rfl)] at there
  rw [here, there]
  rfl

variable (defined : s.content.entries[q.content].definition = some cdef)
  (takes : q.mode = .full ∨ d.comps[x.comp]?.map Component.role = some .audio)

include defined takes

/-- A packet of a run whose start is not pending, or waits. -/
theorem airing_steady (steady : (q.startPending && s.splice.services[x.service].startReady) = false) : s.decidePacket d x =
    (Decided.advancing (s.takeContent d x (q.view x.service) false) (·.runFollowed d x q cdef)).raised := by
  rw [decidePacket_airing covered run airs untested, airingPacket_takes takes, alertTake_steady run defined steady]
  exact congrArg Decided.raised (advancing_then (rest := fun u => u.testPacket d x true none) (testPacket_of_untested untested ..))

theorem airing_takes {advanced : State → State} (more : q.cursor < cdef.packets) (steady : q.startPending = false)
    (advances : ∀ u : State, u.content.entries[q.content].definition = some cdef → u.runAdvanced x.service q cdef = advanced u) :
    s.TakesContent s d x (.alert q.entry q.generation x.service) q.content cdef q.cursor q.offset true advanced := by
  refine takesContent_of defined (fun _ => Nat.zero_lt_of_lt more) rfl rfl
    (airing_steady covered run airs untested defined takes (by rw [steady]; rfl)) fun u took => ?_
  have defined' : u.content.entries[q.content].definition = some cdef :=
    (congrArg (fun e : Vector ContentEntry 128 => e[q.content].definition) took.entries).trans defined
  exact (runFollowed_eq defined' (took.test.trans untested)).trans (advances u defined')

/-- A run start waits for the header of packet 0 (R125). -/
theorem airing_waits (start : q.cursor = 0)
    (late : (s.splice.services[x.service].runQueue.head?.all fun h => decide (h.packet ≠ 0 ∨ h.state = .loading)) = true) :
    s.decidePacket d x = (s.raise .fetchLate x.service.val (contentPacketAddress cdef 0) none, .null) := by
  have unready := headFor_late late
  rw [airing_steady covered run airs untested defined takes (by rw [startReady_late unready, Bool.and_false])]
  unfold AlertRun.view
  rw [start, takeContent_late defined _ _ _ _ _ unready]
  rfl

end Airing

end Sys2Proof.Machine

namespace Sys2Proof.Proofs

open Sys2Proof.Machine

/-- Settles O33: a packet on air, by the state of its service, and under an alert, by its run. -/
theorem contentOnAir : Obligations.ContentOnAir := by
  refine ⟨fun s d x r cdef => ?insertion, fun s d x e g q cdef => ?alert⟩
  case insertion =>
    intro i f y now limit bound past clear current untested defined source returning moved ended
    have pastIs : durationReached y now = past := durationReached_eq y now
    have back (reason : EndReason) : (returning s reason none).decidePacket d x =
        ((returning s reason none).returningPacket d x r).raised := decidePacket_returned clear current reason bound none
    refine ⟨fun state => ?inserting, fun state => ?exhausted, fun state inside => ?returning⟩
    case inserting =>
      refine ⟨fun lasts reached => ?_, fun short more => ?_⟩
      · refine (decidePacket_inserting clear current state).trans ((congrArg Decided.raised (if_pos ?_)).trans (back .complete).symm)
        exact Bool.and_eq_true_iff.mpr ⟨decide_eq_true lasts, pastIs.trans reached⟩
      · refine inserting_takes clear current untested state defined (Bool.eq_false_iff.mpr fun both => short ?_) more
        obtain ⟨lasts, reached⟩ := Bool.and_eq_true_iff.mp both
        exact ⟨of_decide_eq_true lasts, pastIs.symm.trans reached⟩
    case exhausted =>
      have packet : s.decidePacket d x = (s.exhaustedPacket d x r).raised := decidePacket_exhausted clear current state
      refine ⟨fun absent => ?_, fun reached => ?_, fun present early => exhausted_null clear current untested state present (pastIs.trans early)⟩
      · exact packet.trans ((congrArg Decided.raised (if_pos (Option.isNone_iff_eq_none.mpr absent))).trans (back .forcedReturn).symm)
      · have present : ¬ now.isNone = true := fun absent => by
          rw [show past = false from congrArg (Option.any _) (Option.isNone_iff_eq_none.mp absent)] at reached
          exact Bool.false_ne_true reached
        exact packet.trans ((congrArg Decided.raised ((if_neg present).trans (if_pos (pastIs.trans reached)))).trans (back .complete).symm)
    case returning =>
      intro set before early held
      exact ⟨returning_takes clear current untested state inside early held defined,
        returning_null clear current untested state inside early held defined⟩
  case alert =>
    intro i f airing run airs untested defined more takes source n advanced
    have covered : s.alert.overlays[x.service] ≠ .none := by
      rw [airing]
      exact fun same => nomatch same
    refine ⟨fun is steady => ?_, fun is pending start => ⟨airing_waits covered run airs untested defined is start,
      fun serial state rest first queue settled clock => ?_⟩, fun c other component => ?_⟩
    · refine airing_takes covered run airs untested defined is more steady fun u defined' => ?_
      unfold State.runAdvanced
      by_cases goes : q.cursor + 1 < cdef.packets
      · exact (if_neg (Nat.not_le.mpr goes)).trans (if_pos goes).symm
      · exact (if_pos (Nat.not_lt.mp goes)).trans ((loopRun_eq defined').trans (if_neg goes).symm)
    · intro offset begun out
      have ready : (q.startPending && f.startReady) = true := by
        rw [pending, show f.startReady = true from startReady_settled queue settled]
        rfl
      have starts : s.runStart d x q = (begun, (s.t27 i x.n).isNone) := runStart_eq run defined clock
      refine (airing_starts (cdef := cdef) covered run airs untested is ready starts (q' := { q with startPending := false, offset := offset })
        (congrArg SpliceFields.run (onFields_at ..)) rfl airs rfl covered ?_ defined).trans (congrArg (out.1, ·) ?_)
      · refine (congrArg SpliceFields.test (onFields_at ..) : _).trans ?_
        exact (congrArg SpliceFields.test (onFields_at s i _) : _).trans untested
      · cases s.t27 i x.n <;> cases out.2 <;> rfl
    · refine (airing_passes covered run airs untested other).trans ?_
      rw [passRewrite_eq, outputPid_of_component component]
      rfl

end Sys2Proof.Proofs
end

section
/-! SUPPORT. A splice-out (05, R101): the state at its packet, the content packet that it takes, and what it leaves. -/

namespace Sys2Proof.Machine

variable {s u v : State} {i : Fin 64} {d : Service} {x : TakeNotice} {content : Fin 128} {cdef : ContentDef} {r : Fin 68}

/-! ## An INSERT of an insertion, by what it moves (R85, R93, R95, R109) -/

section Insert

variable (g : Generation) (j offset : Nat) (h : Header) (comp : Nat) (c : Component) (forced : Bool)

/-- What an INSERT moves: its service's output counters and mark, its record's counts, the prefetch buffers and the fetches. -/
theorem insertTaken_rest : (s.insertTaken d x (.insertion r g) content cdef j offset h comp c forced).1 =
    { s with
      splice := { s.splice with
        services := (s.insertTaken d x (.insertion r g) content cdef j offset h comp c forced).1.splice.services
        records := modifyAt s.splice.records r fun y => { y with inserted := y.inserted + 1, outstanding := y.outstanding + 1 } }
      content := { s.content with
        prefetch := (s.insertTaken d x (.insertion r g) content cdef j offset h comp c forced).1.content.prefetch }
      path := (s.insertTaken d x (.insertion r g) content cdef j offset h comp c forced).1.path } := by
  unfold State.insertTaken
  dsimp only
  cases (List.finRange 256).find? fun b => decide (s.content.prefetch[b] = .free) <;> rfl

/-- The output counters of the service once a content packet has been given one. -/
def State.countersGiven (s : State) (i : Fin 64) (h : Header) (comp : Nat) : List OutputCC :=
  s.splice.services[i].outputCC.set comp ((s.splice.services[i].outputCC.getD comp {}).give true h.cc h.payload).2

/-- The service's counters and mark are all it moves of the services. -/
theorem insertTaken_services : (s.insertTaken d x (.insertion r g) content cdef j offset h comp c forced).1.splice.services =
    modifyAt s.splice.services x.service fun f =>
      { f with
        outputCC := s.countersGiven x.service h comp
        markPending := s.splice.services[x.service].markPending && !s.marks x.service d comp h.clockReference } := by
  refine Eq.trans ?_ (modifyAt_congr (v := s.splice.services) (f := fun f =>
    { f with
      outputCC := f.outputCC.set comp ((s.splice.services[x.service].outputCC.getD comp {}).give true h.cc h.payload).2
      markPending := f.markPending && !s.marks x.service d comp h.clockReference }) rfl)
  unfold State.insertTaken
  dsimp only
  cases (List.finRange 256).find? fun b => decide (s.content.prefetch[b] = .free) <;> rfl

theorem insertTaken_service : (s.insertTaken d x (.insertion r g) content cdef j offset h comp c forced).1.splice.services[x.service] =
    { s.splice.services[x.service] with
      outputCC := s.countersGiven x.service h comp
      markPending := s.splice.services[x.service].markPending && !s.marks x.service d comp h.clockReference } := by
  rw [insertTaken_services]
  exact onFields_at s x.service _

/-- It reads no more of the state than those counters, that mark and the prefetch buffers. -/
theorem insertTaken_congr (counters : u.splice.services[x.service].outputCC = v.splice.services[x.service].outputCC)
    (mark : u.splice.services[x.service].markPending = v.splice.services[x.service].markPending)
    (prefetch : u.content.prefetch = v.content.prefetch) :
    let one := u.insertTaken d x (.insertion r g) content cdef j offset h comp c forced
    let two := v.insertTaken d x (.insertion r g) content cdef j offset h comp c forced
    one.2 = two.2 ∧ one.1.content.prefetch = two.1.content.prefetch ∧
      one.1.splice.services[x.service].outputCC = two.1.splice.services[x.service].outputCC ∧
      one.1.splice.services[x.service].markPending = two.1.splice.services[x.service].markPending := by
  dsimp only
  rw [insertTaken_service (s := u), insertTaken_service (s := v)]
  refine ⟨?_, ?_, ?_, ?_⟩
  · unfold State.insertTaken
    dsimp only
    rw [counters, mark, prefetch]
  · unfold State.insertTaken
    dsimp only
    rw [prefetch]
    cases (List.finRange 256).find? fun b => decide (v.content.prefetch[b] = .free) with
    | none => exact prefetch
    | some b => exact congrArg (fun p : Vector Prefetch 256 => p.set b _) prefetch
  · exact congrArg (fun l : List OutputCC => l.set comp ((l.getD comp {}).give true h.cc h.payload).2) counters
  · exact congrArg (fun m : Bool => m && !(m && h.clockReference && comp == d.clock)) mark

end Insert

/-- The use of the run queue's head moves that queue, the serial numbers of headers and the fetches. -/
theorem headUsed_rest (s : State) (i : Fin 64) (cdef : ContentDef) (loops : Bool) : ∃ queue next path, s.headUsed i cdef loops =
    { s with
      splice := { s.splice with services := modifyAt s.splice.services i fun f => { f with runQueue := queue }, nextHeader := next }
      path := path } := by
  unfold State.headUsed
  dsimp only
  have joined (tail : List HeaderEntry) : modifyAt (modifyAt s.splice.services i fun f => { f with runQueue := f.runQueue.tail }) i
      (fun f => { f with runQueue := f.runQueue ++ tail }) =
      modifyAt s.splice.services i fun f => { f with runQueue := s.splice.services[i].runQueue.tail ++ tail } :=
    (modifyAt_modifyAt ..).trans (modifyAt_congr rfl)
  have used : (s.onFields i fun f => { f with runQueue := f.runQueue.tail }) =
      s.onFields i fun f => { f with runQueue := s.splice.services[i].runQueue.tail } := onFields_congr rfl
  split
  · exact ⟨_, s.splice.nextHeader, s.path, used⟩
  · next l _ =>
    generalize (if loops then (l.packet + 1) % cdef.packets else l.packet + 1) = k
    split
    · exact ⟨_, _, _, congrArg (fun w => (((s.onSplice fun a => { a with services := w }).onSplice fun a =>
        { a with nextHeader := s.splice.nextHeader + 1 }).onPath fun p =>
          { p with fetchQueue := p.fetchQueue ++ [beatsHolding (contentPacketAddress cdef k) 6
              (.header i s.splice.nextHeader (contentPacketAddress cdef k))] })) (joined _)⟩
    · exact ⟨_, s.splice.nextHeader, s.path, used⟩

/-! ## The start of the insertion (R101) -/

theorem arm_of_empty (empty : s.cue.queues[i] = []) : s.arm i = s := by
  unfold State.arm
  rw [empty]
  rfl

theorem fireHead_alone {e : QueueEntry} (queue : s.cue.queues[i] = [e]) : s.fireHead i = s.onQueue i fun _ => [] := by
  have left : s.onQueue i List.tail = s.onQueue i fun _ => [] := onQueue_congr (congrArg List.tail queue)
  unfold State.fireHead
  rw [left]
  exact arm_of_empty (onQueue_self ..)

/-- The record as it starts at a packet with that network time. -/
def startedRecord (s : State) (x : TakeNotice) (c : SpliceCue) (r : Fin 68) (now first packets : Nat) : InsertionRecord :=
  { state := .active, generation := s.splice.records[r].generation, service := x.service, ref := c.ref, cueId := c.cueId,
    content := c.content, d := c.d, endAtContent := c.endAtContent, offset := (now + 2576980377600 - first) % 2576980377600,
    tOut := BitVec.ofNat 33 (now / 300), startTime := s.clock, planned := packets }

theorem startRecord_eq {c : SpliceCue} {now : Nat} {first : FirstClock} (time : s.t27 x.service x.n = some now)
    (defined : s.content.entries[c.content].definition = some cdef) (clock : s.content.entries[c.content].iFirst = some first) :
    startRecord s s.splice.records[r] x c = startedRecord s x c r now first.value cdef.packets := by
  have t90 : s.t90 x.service x.n = some (time90 now) := t90_of_t27_some time
  have iFirst : s.iFirst c.content = first.value := by
    unfold State.iFirst
    rw [clock]
  unfold startRecord startedRecord
  rw [time, t90, iFirst, packetCount_of_defined defined]
  rfl

/-- The service as its run starts. -/
def SpliceFields.fired (f : SpliceFields) (r : Fin 68) : SpliceFields :=
  { f with state := .inserting, current := some r, test := none, runQueue := f.standbyQueue, standbyQueue := [] }

/-- The state at the packet of a splice-out, before that takes content. -/
def State.fired (s : State) (d : Service) (x : TakeNotice) (c : SpliceCue) (r : Fin 68) (y : InsertionRecord) (cdef : ContentDef) : State :=
  (((((s.reserve.onRecord r fun _ => y).onFields x.service (·.fired r)).runFormed x.service d c.content cdef).onQueue x.service fun _ =>
    []).told [.spliceStarted ⟨r, y, x.n⟩])

/-- The service with the role map and the counters that the run forms. -/
theorem fired_service (s : State) (c : SpliceCue) (y : InsertionRecord) : (s.fired d x c r y cdef).splice.services[x.service] =
    { (s.runFormed x.service d c.content cdef).splice.services[x.service] with
      state := .inserting, current := some r, test := none, runQueue := s.splice.services[x.service].standbyQueue, standbyQueue := [] } := by
  have formed (w : State) (same : w.content = s.content) : (w.runFormed x.service d c.content cdef).splice.services[x.service] =
      { w.splice.services[x.service] with
        roleMap := roleMap cdef.comps d.comps
        outputCC := runDeltas (roleMap cdef.comps d.comps) s.content.entries[c.content].firstCC w.splice.services[x.service].outputCC } := by
    rw [← same]
    exact onFields_at ..
  refine (formed ((s.reserve.onRecord r fun _ => y).onFields x.service (·.fired r)) rfl).trans ?_
  rw [formed s rfl, onFields_at]
  rfl

theorem fired_records (s : State) (c : SpliceCue) (y : InsertionRecord) :
    (s.fired d x c r y cdef).splice.records = modifyAt s.splice.records r fun _ => y := rfl

theorem fired_record (s : State) (c : SpliceCue) (y : InsertionRecord) : (s.fired d x c r y cdef).splice.records[r] = y := by
  rw [fired_records, modifyAt_fin, if_pos rfl]

/-- SPLICE_STARTED is told with the record as it stands. -/
def State.startTold (s : State) (x : TakeNotice) (r : Fin 68) : State := s.produce (.spliceStarted ⟨r, s.splice.records[r], x.n⟩)

/-- The packet of a splice-out takes content, and the end of the content is looked at. -/
def State.takesFirst (s : State) (d : Service) (x : TakeNotice) (r : Fin 68) : Decided :=
  { s.insertionTake d x r with state := (s.insertionTake d x r).state.contentEnds x r }

theorem spliceOut_free {c : SpliceCue} {closed : Option (Fin 68)} (free : s.freeRecord closed = some r) : s.spliceOut d x c closed =
    ((((((s.reserve.onRecord r fun old => startRecord s old x c).onFields x.service (·.fired r)).formRun x.service d c.content).fireHead
      x.service).startTold x r).takesFirst d x r) := by
  unfold State.spliceOut
  rw [free]
  rfl

theorem startTold_eq {y : InsertionRecord} (record : s.splice.records[r] = y) : s.startTold x r = s.told [.spliceStarted ⟨r, y, x.n⟩] := by
  rw [← record]
  rfl

theorem spliceOut_fired {c : SpliceCue} {closed : Option (Fin 68)} {e : QueueEntry} (free : s.freeRecord closed = some r)
    (queue : s.cue.queues[x.service] = [e]) (defined : s.content.entries[c.content].definition = some cdef)
    {y : InsertionRecord} (starts : startRecord s s.splice.records[r] x c = y) :
    s.spliceOut d x c closed = (s.fired d x c r y cdef).takesFirst d x r := by
  have start : (s.reserve.onRecord r fun old => startRecord s old x c) = s.reserve.onRecord r fun _ => y := onRecord_congr starts
  rw [spliceOut_free free, start, formRun_eq (s := (s.reserve.onRecord r fun _ => y).onFields x.service (·.fired r)) defined,
    fireHead_alone (s := ((s.reserve.onRecord r fun _ => y).onFields x.service (·.fired r)).runFormed x.service d c.content cdef) queue,
    startTold_eq (y := y) (onRecord_at s.reserve r _)]
  rfl

end Sys2Proof.Machine
end

section
/-! SUPPORT. What a splice-out leaves (05, R101, R103), and how its conditions are found (R99, R101). -/

namespace Sys2Proof.Machine

variable {s u v : State} {i : Fin 64} {d : Service} {x : TakeNotice} {cue : SpliceCue} {cdef : ContentDef} {r : Fin 68}

/-- `out` is the splice-out of a cue at a packet: the record `y` has started and taken its first content packet, as `run` gives it. -/
structure State.SplicedOut (s : State) (d : Service) (x : TakeNotice) (r : Fin 68) (y : InsertionRecord) (cdef : ContentDef)
    (run : State × Action) (out : Decided) : Prop where
  record : out.state.splice.records[r] = { y with cursor := 1, inserted := 1, outstanding := 1 }
  records : ∀ r' : Fin 68, r' ≠ r → out.state.splice.records[r'] = s.splice.records[r']
  queue : out.state.cue.queues[x.service] = []
  queues : ∀ j : Fin 64, j ≠ x.service → out.state.cue.queues[j] = s.cue.queues[j]
  service : ∃ l, out.state.splice.services[x.service] =
    { s.splice.services[x.service] with
      state := .inserting, current := some r, test := none, runQueue := l, standbyQueue := []
      roleMap := roleMap cdef.comps d.comps
      outputCC := run.1.splice.services[x.service].outputCC
      markPending := run.1.splice.services[x.service].markPending }
  services : ∀ j : Fin 64, j ≠ x.service → out.state.splice.services[j] = s.splice.services[j]
  report : out.state.report = (s.reserve.told [.spliceStarted ⟨r, y, x.n⟩]).report
  action : out.action = run.2
  errors : out.errors = []
  prefetch : out.state.content.prefetch = run.1.content.prefetch
  rest : out.state = { s with
    splice := out.state.splice, cue := out.state.cue, report := out.state.report, path := out.state.path
    content := { s.content with prefetch := out.state.content.prefetch } }

theorem contentEnds_more {y : InsertionRecord} (record : s.splice.records[r] = y)
    (defined : s.content.entries[y.content].definition = some cdef) (more : y.cursor < cdef.packets) : s.contentEnds x r = s := by
  subst record
  exact contentEnds_goes defined more

/-- What the packet of a splice-out moves once the record has started: its counters, its record and the head of the run queue. -/
theorem takesFirst_eq {y : InsertionRecord} {h : Header} {serial comp : Nat} {rest : List HeaderEntry} {c : Component}
    {content : Fin 128} {offset : Nat} (record : s.splice.records[r] = y) (isContent : y.content = content) (isOffset : y.offset = offset)
    (defined : s.content.entries[content].definition = some cdef) (start : y.cursor = 0)
    (packets : 2 ≤ cdef.packets) (queue : s.splice.services[x.service].runQueue = ⟨0, serial, .ready h⟩ :: rest)
    (mapped : (cdef.comps.findIdx? (·.pid == h.pid)).bind (fun ci => s.splice.services[x.service].roleMap.getD ci none) = some comp)
    (component : d.comps[comp]? = some c) :
    s.takesFirst d x r =
      let taken := s.insertTaken d x (.insertion r y.generation) content cdef 0 offset h comp c false
      ⟨(taken.1.headUsed x.service cdef false).cursorMoved r, taken.2, []⟩ := by
  subst isContent isOffset
  dsimp only
  have view : s.insertionRun r = ⟨y.content, 0, y.offset, .insertion r y.generation, false⟩ := by
    unfold State.insertionRun
    dsimp only
    rw [record, start]
  have taken := takeContent_mapped defined (.insertion r y.generation) 0 y.offset false false
    (fun loops => absurd loops Bool.false_ne_true) (headFor_cons queue) mapped component
  have took := (insertTaken_took (d := d) (x := x) (content := y.content) (cdef := cdef) s
    (.insertion r y.generation) 0 y.offset h comp c false).trans (headUsed_took _ x.service cdef false)
  unfold State.takesFirst
  rw [insertionTake_eq, view, taken]
  unfold Decided.advancing
  dsimp only
  rw [if_pos rfl]
  refine congrArg (fun w : State => Decided.mk w _ _) ?_
  obtain ⟨n, m, moved⟩ := took.moved (r := r)
  rw [record] at moved
  refine contentEnds_more (cdef := cdef) moved ?_ ?_
  · exact (congrArg (fun e : Vector ContentEntry 128 => e[y.content].definition) took.entries).trans defined
  · dsimp only
    rw [start]
    exact packets

/-- The state behind the first content packet of an insertion, whose service is left with those counters and that mark. -/
def State.firstTaken (w : State) (i : Fin 64) (r : Fin 68) (l : List HeaderEntry) (cc : List OutputCC) (mark : Bool) (next : Nat)
    (prefetch : Vector Prefetch 256) (path : PathUnit) : State :=
  { w with
    splice := { w.splice with
      services := modifyAt w.splice.services i fun f => { f with runQueue := l, outputCC := cc, markPending := mark }
      records := modifyAt w.splice.records r fun y =>
        { y with inserted := y.inserted + 1, outstanding := y.outstanding + 1, cursor := y.cursor + 1 }
      nextHeader := next }
    content := { w.content with prefetch := prefetch }
    path := path }

/-- The head of the run queue is used, and the cursor moved, behind an INSERT. -/
theorem firstTaken_of {w T : State} {l : List HeaderEntry} {cc : List OutputCC} {mark : Bool} {next : Nat} {path : PathUnit}
    {services : Vector SpliceFields 64} {prefetch : Vector Prefetch 256} {before : PathUnit}
    (rest : T = { w with
      splice := { w.splice with
        services := services
        records := modifyAt w.splice.records r fun y => { y with inserted := y.inserted + 1, outstanding := y.outstanding + 1 } }
      content := { w.content with prefetch := prefetch }
      path := before })
    (moved : services = modifyAt w.splice.services i fun f => { f with outputCC := cc, markPending := mark })
    (used : u = { T with
      splice := { T.splice with services := modifyAt T.splice.services i fun f => { f with runQueue := l }, nextHeader := next }
      path := path }) : u.cursorMoved r = w.firstTaken i r l cc mark next prefetch path := by
  subst moved rest used
  unfold State.cursorMoved State.onRecord State.onSplice State.firstTaken
  dsimp only
  rw [modifyAt_modifyAt, modifyAt_modifyAt]
  rfl

theorem firstTaken_eq (w : State) (g : Generation) (content : Fin 128) (j offset : Nat) (h : Header) (comp : Nat) (c : Component) (forced : Bool) :
    let taken := w.insertTaken d x (.insertion r g) content cdef j offset h comp c forced
    ∃ l next path, (taken.1.headUsed x.service cdef false).cursorMoved r =
      w.firstTaken x.service r l taken.1.splice.services[x.service].outputCC taken.1.splice.services[x.service].markPending next
        taken.1.content.prefetch path := by
  intro taken
  obtain ⟨l, next, path, used⟩ := headUsed_rest taken.1 x.service cdef false
  have service : taken.1.splice.services[x.service] = _ := insertTaken_service ..
  refine ⟨l, next, path, firstTaken_of (T := taken.1) (insertTaken_rest ..) ?_ used⟩
  rw [service]
  exact insertTaken_services ..

/-- `w` is the state at the packet of a splice-out, before that takes content: the record `y` has started on the service. -/
structure State.Fires (s w : State) (i : Fin 64) (r : Fin 68) (y : InsertionRecord) (n : Count32) (f : SpliceFields) : Prop where
  record : w.splice.records[r] = y
  records : ∀ r' : Fin 68, r' ≠ r → w.splice.records[r'] = s.splice.records[r']
  queue : w.cue.queues[i] = []
  queues : ∀ j : Fin 64, j ≠ i → w.cue.queues[j] = s.cue.queues[j]
  service : w.splice.services[i] = f
  services : ∀ j : Fin 64, j ≠ i → w.splice.services[j] = s.splice.services[j]
  report : w.report = (s.reserve.told [.spliceStarted ⟨r, y, n⟩]).report
  rest : w = { s with splice := w.splice, cue := w.cue, report := w.report }

/-- The fields of a service whose run starts. -/
def State.firedFields (s : State) (i : Fin 64) (d : Service) (content : Fin 128) (r : Fin 68) (cdef : ContentDef) : SpliceFields :=
  { s.splice.services[i] with
    state := .inserting, current := some r, test := none, runQueue := s.splice.services[i].standbyQueue, standbyQueue := []
    roleMap := roleMap cdef.comps d.comps, outputCC := (s.runFormed i d content cdef).splice.services[i].outputCC }

theorem fired_queues (s : State) (c : SpliceCue) (y : InsertionRecord) :
    (s.fired d x c r y cdef).cue.queues = modifyAt s.cue.queues x.service fun _ => [] := rfl

theorem fired_services (s : State) (c : SpliceCue) (y : InsertionRecord) : (s.fired d x c r y cdef).splice.services =
    (((s.reserve.onRecord r fun _ => y).onFields x.service (·.fired r)).runFormed x.service d c.content cdef).splice.services := rfl

theorem runFormed_of_ne (s : State) {i j : Fin 64} (other : j ≠ i) (content : Fin 128) :
    (s.runFormed i d content cdef).splice.services[j] = s.splice.services[j] :=
  (modifyAt_fin ..).trans (if_neg fun same => other same.symm)

theorem onFields_of_ne (s : State) {i j : Fin 64} (other : j ≠ i) (f : SpliceFields → SpliceFields) :
    (s.onFields i f).splice.services[j] = s.splice.services[j] :=
  (modifyAt_fin ..).trans (if_neg fun same => other same.symm)

theorem fired_rest (s : State) (c : SpliceCue) (y : InsertionRecord) : s.fired d x c r y cdef = { s with
    splice := (s.fired d x c r y cdef).splice, cue := (s.fired d x c r y cdef).cue, report := (s.fired d x c r y cdef).report } := by
  unfold State.fired State.told State.produceAll State.produce State.onQueue State.onCue State.runFormed State.onFields State.reserve
    State.onRecord State.onSplice State.onReport
  dsimp only [List.foldl]

theorem fired_report (s : State) (c : SpliceCue) (y : InsertionRecord) :
    (s.fired d x c r y cdef).report = (s.reserve.told [.spliceStarted ⟨r, y, x.n⟩]).report := by
  unfold State.fired State.told State.produceAll State.produce State.onQueue State.onCue State.runFormed State.onFields State.reserve
    State.onRecord State.onSplice State.onReport
  dsimp only [List.foldl]

theorem fired_fires (s : State) (c : SpliceCue) (y : InsertionRecord) :
    s.Fires (s.fired d x c r y cdef) x.service r y x.n (s.firedFields x.service d c.content r cdef) where
  record := fired_record s c y
  records r' other := by rw [fired_records, modifyAt_fin, if_neg fun same => other same.symm]
  queue := by rw [fired_queues, modifyAt_fin, if_pos rfl]
  queues j other := by rw [fired_queues, modifyAt_fin, if_neg fun same => other same.symm]
  service := by
    have formed : (s.runFormed x.service d c.content cdef).splice.services[x.service] = _ := onFields_at s x.service _
    rw [fired_service]
    unfold State.firedFields
    rw [formed]
  services j other := by
    rw [fired_services, runFormed_of_ne _ other, onFields_of_ne _ other]
    rfl
  report := fired_report s c y
  rest := fired_rest s c y

/-- A start followed by its first content packet is the splice-out. -/
theorem splicedOut_of_fires {w : State} {y : InsertionRecord} {run : State × Action} {l : List HeaderEntry} {next : Nat} {path : PathUnit}
    (fires : s.Fires w x.service r y x.n (s.firedFields x.service d cue.content r cdef))
    (fresh : y.cursor = 0 ∧ y.inserted = 0 ∧ y.outstanding = 0) :
    s.SplicedOut d x r y cdef run ⟨w.firstTaken x.service r l run.1.splice.services[x.service].outputCC
      run.1.splice.services[x.service].markPending next run.1.content.prefetch path, run.2, []⟩ := by
  obtain ⟨cursor, inserted, outstanding⟩ := fresh
  refine ⟨?_, fun r' other => ?_, fires.queue, fires.queues, ⟨l, ?_⟩, fun j other => ?_, fires.report, rfl, rfl, rfl, ?_⟩
  · refine (modifyAt_fin ..).trans ((if_pos rfl).trans ?_)
    rw [fires.record, cursor, inserted, outstanding]
    rfl
  · exact (modifyAt_fin ..).trans ((if_neg fun same => other same.symm).trans (fires.records r' other))
  · refine (modifyAt_fin ..).trans ((if_pos rfl).trans ?_)
    rw [fires.service]
    rfl
  · exact (modifyAt_fin ..).trans ((if_neg fun same => other same.symm).trans (fires.services j other))
  · let v := w.firstTaken x.service r l run.1.splice.services[x.service].outputCC
      run.1.splice.services[x.service].markPending next run.1.content.prefetch path
    exact congrArg (fun z : State => { z with
      splice := v.splice, cue := w.cue, report := w.report, path := path
      content := { z.content with prefetch := run.1.content.prefetch } }) fires.rest

/-- A splice-out whose first header is READY and maps to a component of the service. -/
theorem spliceOut_spliced {closed : Option (Fin 68)} {e : QueueEntry} {h : Header} {serial comp : Nat} {rest : List HeaderEntry}
    {c : Component} {y : InsertionRecord} {offset : Nat} {run : State × Action} (free : s.freeRecord closed = some r)
    (queue : s.cue.queues[x.service] = [e]) (defined : s.content.entries[cue.content].definition = some cdef)
    (starts : startRecord s s.splice.records[r] x cue = y) (content : y.content = cue.content)
    (fresh : y.cursor = 0 ∧ y.inserted = 0 ∧ y.outstanding = 0) (offsetIs : y.offset = offset)
    (packets : 2 ≤ cdef.packets) (standby : s.splice.services[x.service].standbyQueue = ⟨0, serial, .ready h⟩ :: rest)
    (mapped : (cdef.comps.findIdx? (·.pid == h.pid)).bind (fun ci => (roleMap cdef.comps d.comps).getD ci none) = some comp)
    (component : d.comps[comp]? = some c)
    (isRun : run = (s.runFormed x.service d cue.content cdef).insertTaken d x (.insertion r y.generation) cue.content cdef 0 offset h comp c
      false) : s.SplicedOut d x r y cdef run (s.spliceOut d x cue closed) := by
  have fires := fired_fires (d := d) (x := x) (r := r) (cdef := cdef) s cue y
  have prefetched : (s.fired d x cue r y cdef).content = s.content := (congrArg State.content fires.rest : _)
  rw [spliceOut_fired free queue defined starts]
  generalize s.fired d x cue r y cdef = w at fires prefetched
  have service := fires.service
  have formed : (s.runFormed x.service d cue.content cdef).splice.services[x.service].markPending =
      s.splice.services[x.service].markPending := by
    unfold State.runFormed
    dsimp only
    rw [onFields_at]
  have first := takesFirst_eq (s := w) (d := d) fires.record content offsetIs (by rw [prefetched]; exact defined) fresh.1 packets
    (by rw [service]; exact standby) (by rw [service]; exact mapped) component
  obtain ⟨action, prefetch, counters, mark⟩ := insertTaken_congr (u := w)
    (v := s.runFormed x.service d cue.content cdef) (x := x) (d := d) (r := r) (content := cue.content) (cdef := cdef) y.generation 0 offset
    h comp c false (by rw [service]; rfl) (by rw [service, formed]; rfl) (by rw [prefetched]; rfl)
  obtain ⟨l, next, path, behind⟩ := firstTaken_eq (d := d) (x := x) (r := r) (cdef := cdef) w y.generation cue.content 0 offset h comp c false
  rw [← isRun] at action prefetch counters mark
  dsimp only at first
  rw [behind, action, prefetch, counters, mark] at first
  rw [first]
  exact splicedOut_of_fires fires fresh

end Sys2Proof.Machine
end

section
/-! SUPPORT. The conditions of a splice-out (05, R99, R101), and the cue test at a packet that does not fire it (R97, R98, R100). -/

namespace Sys2Proof.Machine

variable {s u v : State} {i : Fin 64} {d : Service} {x : TakeNotice} {r : Fin 68} {t : CueTest} {e : QueueEntry}

/-! ## The conditions (R99, R101) -/

/-- The first index that passes a test. -/
theorem find_first {n : Nat} {test : Fin n → Bool} {k : Fin n} (passes : test k = true) (below : ∀ j < k, test j = false) :
    (List.finRange n).find? test = some k := by
  refine List.find?_eq_some_iff_getElem.mpr ⟨passes, k.val, by rw [List.length_finRange]; exact k.isLt, by simp, fun j lower => ?_⟩
  rw [List.getElem_finRange, below _ lower]
  rfl

/-- The lowest FREE record, where the record that the packet closes is not FREE. -/
theorem freeRecord_lowest {closed : Option (Fin 68)} (free : s.splice.records[r].state = .free) (another : closed ≠ some r)
    (lowest : ∀ q : Fin 68, q < r → s.splice.records[q].state ≠ .free ∨ closed = some q) : s.freeRecord closed = some r := by
  refine find_first ?_ fun q lower => ?_
  · rw [free]
    exact bne_iff_ne.mpr another
  · rcases lowest q lower with taken | own
    · rw [beq_eq_false_iff_ne.mpr taken, Bool.false_and]
    · rw [own, bne_self_eq_false, Bool.and_false]

theorem clockLocked_iff : s.clockLocked i = true ↔ s.timebase.clocks[i].map Clock.state = some .locked := by
  unfold State.clockLocked
  cases s.timebase.clocks[i] with
  | none => exact iff_of_false Bool.false_ne_true nofun
  | some k => exact beq_iff_eq.trans Option.some_inj.symm

/-- The first condition that fails, on a service with no overlay. -/
def State.cause (s : State) (i : Fin 64) : Option BlockCause :=
  if s.timebase.clocks[i].map Clock.state ≠ some .locked then some .unlocked
  else if s.splice.services[i].alertHold then some .alert
  else if (∀ r : Fin 68, s.splice.records[r].state ≠ .free) ∨ 68 ≤ s.report.reservation then some .noRoom
  else none

theorem lowest_free_isNone : (lowest s.splice.records (·.state == .free)).isNone = true ↔ ∀ r : Fin 68, s.splice.records[r].state ≠ .free := by
  unfold lowest
  simp

theorem spliceReason_clear (clear : s.alert.overlays[i] = .none) : s.spliceReason i false = s.cause i := by
  unfold State.spliceReason State.cause
  rw [clear]
  refine if_congr ?_ rfl (if_congr (by simp) rfl ?_)
  · rw [Bool.not_eq_true', ← Bool.not_eq_true, clockLocked_iff]
  · have room : (!s.spliceRoom) = true ↔ 68 ≤ s.report.reservation := by
      rw [Bool.not_eq_true', State.spliceRoom, decide_eq_false_iff_not, Nat.not_lt]
      exact Iff.rfl
    simp only [lowest_free_isNone, room]
    by_cases none_ : ∀ r : Fin 68, s.splice.records[r].state ≠ .free
    · rw [if_pos none_, if_pos (.inl none_)]
    · rw [if_neg none_]
      exact if_congr (or_iff_right none_).symm rfl rfl

theorem cause_none {k : Clock} (clock : s.timebase.clocks[i] = some k) (locked : k.state = .locked)
    (unheld : s.splice.services[i].alertHold = false) (free : s.splice.records[r].state = .free) (room : s.report.reservation < 68) :
    s.cause i = none := by
  unfold State.cause
  rw [clock, Option.map_some, locked, if_neg (not_not.mpr rfl), unheld, if_neg Bool.false_ne_true, if_neg]
  exact fun either => either.elim (fun all => all r free) (Nat.not_le.mpr room)

/-! ## A cue alone in its queue misses (R61, R100) -/

/-- The cue leaves its queue, with its hold, its test, its headers and its answer. -/
def State.missedAlone (s : State) (i : Fin 64) (e : QueueEntry) (outcome : CueOutcome) (detail : Option Byte) : State :=
  (((s.onContentEntry e.cue.content fun y => { y with useCount := y.useCount - 1 }).onQueue i fun _ => []).onFields i fun f =>
    { f with test := none, standbyQueue := [], state := if f.state = .armed then .idle else f.state }).told
      [spliceAnswer i e.cue outcome detail]

theorem missHead_alone (queue : s.cue.queues[i] = [e]) (m : Miss) : s.missHead i m = s.missedAlone i e m.outcome m.detail := by
  unfold State.missHead
  rw [queue]
  dsimp only
  rw [arm_of_empty, endTest_eq]
  · rfl
  · exact onQueue_self (s.endTest i) i _

/-- What the test kept goes with it. -/
theorem missedAlone_test (t : CueTest) (outcome : CueOutcome) (detail : Option Byte) :
    (s.onFields i fun f => { f with test := some t }).missedAlone i e outcome detail = s.missedAlone i e outcome detail :=
  congrArg (fun v : State => ((v.onContentEntry e.cue.content fun y => { y with useCount := y.useCount - 1 }).onQueue i fun _ => []).told
    [spliceAnswer i e.cue outcome detail]) (onFields_onFields s i (fun f => { f with test := some t }) fun f =>
      { f with test := none, standbyQueue := [], state := if f.state = .armed then .idle else f.state })

/-- The reason of a miss, by its detail code (12.5). -/
def missReason : Option BlockCause → MissReason
  | some c => .blocked c
  | none => .noEntry

/-! ## The test at a packet that does not fire it -/

/-- The blocking cause that a time cue keeps. -/
def CueTest.blockedBy (t : CueTest) : Option MissReason → Option BlockCause
  | some (.blocked c) => some c
  | some .noEntry | none => t.blocking

/-- t90 has reached T + W (R97). -/
def State.timePast (s : State) (x : TakeNotice) (t : CueTest) : Bool :=
  (s.t90 x.service x.n).any fun v => hasReached v (t.cue.t + BitVec.ofNat 33 t.cue.w)

section Tested

variable (test : s.splice.services[x.service].test = some t) (queue : s.cue.queues[x.service] = [e])

include test queue

theorem testPacket_time (isTime : t.cue.mark = false) (recording : Bool) (reason : Option MissReason) :
    s.testPacket d x recording reason =
      if s.timePast x t then s.missedAlone x.service e .missed (some (missReason (t.blockedBy reason)).code)
      else s.onFields x.service fun f => { f with test := some { t with blocking := t.blockedBy reason } } := by
  have misses (b : Option BlockCause) : (s.onFields x.service fun f => { f with test := some { t with blocking := b } }).missHead x.service
      (.missed (missReason b)) = s.missedAlone x.service e .missed (some (missReason b).code) :=
    (missHead_alone (s := s.onFields x.service _) queue _).trans (missedAlone_test ..)
  have tested (b : Option BlockCause) : (match s.t90 x.service x.n with
      | some v => if hasReached v t.cue.timeEnd then (s.onFields x.service fun f => { f with test := some { t with blocking := b } }).missHead
          x.service (.missed (missReason b)) else s.onFields x.service fun f => { f with test := some { t with blocking := b } }
      | none => s.onFields x.service fun f => { f with test := some { t with blocking := b } }) =
      if s.timePast x t then s.missedAlone x.service e .missed (some (missReason b).code)
      else s.onFields x.service fun f => { f with test := some { t with blocking := b } } := by
    unfold State.timePast
    rw [misses]
    cases s.t90 x.service x.n <;> rfl
  rw [← tested]
  unfold State.testPacket
  rw [test]
  dsimp only
  rw [isTime, if_neg Bool.false_ne_true]
  unfold CueTest.blockedBy missReason
  cases reason with
  | none => cases t.blocking <;> rfl
  | some m =>
    cases m with
    | blocked c => rfl
    | noEntry => cases t.blocking <;> rfl

theorem testPacket_reason (isMark : t.cue.mark = true) (recording : Bool) (m : MissReason) :
    s.testPacket d x recording (some m) = s.missedAlone x.service e .missed (some m.code) := by
  unfold State.testPacket
  rw [test]
  dsimp only
  rw [isMark, if_pos rfl]
  exact missHead_alone queue _

/-- The tolerance end of a mark cue at a packet with that network time (R98). -/
def CueTest.endsBy (t : CueTest) (now : Option Time90) : Option Time90 := t.toleranceEnd.or (now.map (· + BitVec.ofNat 33 t.cue.w))

theorem testPacket_mark (isMark : t.cue.mark = true) (recording : Bool) : s.testPacket d x recording none =
    let ends := t.endsBy (s.t90 x.service x.n)
    let seen := t.markSeen || (recording && markPacket d x)
    if !seen && (s.t90 x.service x.n).any fun v => ends.any fun l => hasReached v l then s.missedAlone x.service e .missedNoMark none
    else s.onFields x.service fun f => { f with test := some { t with toleranceEnd := ends, markSeen := seen } } := by
  have misses (l : Option Time90) (seen : Bool) : (s.onFields x.service fun f =>
      { f with test := some { t with toleranceEnd := l, markSeen := seen } }).missHead x.service .noMark =
        s.missedAlone x.service e .missedNoMark none :=
    (missHead_alone (s := s.onFields x.service _) queue _).trans (missedAlone_test ..)
  unfold State.testPacket
  rw [test]
  dsimp only
  rw [isMark, if_pos rfl]
  unfold CueTest.endsBy
  cases t.toleranceEnd with
  | some l =>
    cases s.t90 x.service x.n with
    | none => exact (if_neg (by simp)).symm
    | some v => exact congrArg (fun w => if (!(t.markSeen || (recording && markPacket d x)) && hasReached v l) = true then w else _) (misses ..)
  | none =>
    cases s.t90 x.service x.n with
    | none => exact (if_neg (by simp)).symm
    | some v =>
      exact congrArg (fun w => if (!(t.markSeen || (recording && markPacket d x)) && hasReached v (v + BitVec.ofNat 33 t.cue.w)) = true
        then w else _) (misses ..)

end Tested

/-! ## A network packet with a cue under test (R97, R98) -/

/-- The packet is a splice point of the cue, or its splice packet. -/
def State.pointOf (s : State) (d : Service) (x : TakeNotice) (t : CueTest) : Bool :=
  if t.cue.mark then t.markSeen else entryPoint d x && (s.t90 x.service x.n).any fun v => hasReached v t.cue.t

theorem splicePoint_eq (s : State) (d : Service) (x : TakeNotice) (t : CueTest) :
    t.splicePoint (entryPoint d x) (s.t90 x.service x.n) = s.pointOf d x t := by
  unfold CueTest.splicePoint State.pointOf
  refine if_congr Iff.rfl rfl ?_
  cases s.t90 x.service x.n with
  | none => exact (Bool.and_false _).symm
  | some v => rfl

section Network

variable (clear : s.alert.overlays[x.service] = .none) (test : s.splice.services[x.service].test = some t)

include clear test

theorem networkPacket_fires (point : s.pointOf d x t = true) (met : s.cause x.service = none) :
    s.networkPacket d x = s.spliceOut d x t.cue none := by
  unfold State.networkPacket
  rw [spliceReason_clear clear, test, met]
  simp only [Option.filter, splicePoint_eq, point, if_true]

/-- Why the packet fired no cue, where it was tried. -/
def State.unfired (s : State) (d : Service) (x : TakeNotice) (t : CueTest) : Option MissReason :=
  if s.pointOf d x t then (s.cause x.service).map .blocked else none

theorem networkPacket_passes (unmet : s.pointOf d x t = false ∨ s.cause x.service ≠ none) : s.networkPacket d x =
    ⟨(s.passRewrite d x).1.testPacket d x true (s.unfired d x t), (s.passRewrite d x).2, []⟩ := by
  unfold State.networkPacket State.unfired
  rw [spliceReason_clear clear, test]
  simp only [Option.filter, splicePoint_eq]
  cases point : s.pointOf d x t with
  | false => rfl
  | true =>
    cases cause : s.cause x.service with
    | none => exact absurd cause (unmet.resolve_left (by rw [point]; exact Bool.noConfusion))
    | some c => rfl

omit test in
theorem decidePacket_network (state : s.splice.services[x.service].state = .idle ∨ s.splice.services[x.service].state = .armed) :
    s.decidePacket d x = (s.networkPacket d x).raised := by
  rw [decidePacket_clear clear]
  unfold State.splicePacket
  dsimp only
  rcases state with idle | armed
  · rw [idle]
  · rw [armed]

end Network

end Sys2Proof.Machine
end

section
/-! SUPPORT. A packet at which a cue under test fires, misses or goes on (05, R97 to R101; R104, R106). -/

namespace Sys2Proof.Machine

variable {s u v : State} {i : Fin 64} {d : Service} {x : TakeNotice} {r : Fin 68} {t : CueTest} {e : QueueEntry} {cdef : ContentDef}

/-! ## What a splice-out leaves, as the statements name it -/

section Spliced

variable {y : InsertionRecord} {run : State × Action} {out : Decided} (spliced : s.SplicedOut d x r y cdef run out)

include spliced

theorem State.SplicedOut.kept : out.state.alert = s.alert ∧ out.state.fault = s.fault ∧ out.state.timebase = s.timebase ∧
    out.state.ingest = s.ingest ∧ out.state.slots = s.slots := by
  rw [spliced.rest]
  exact ⟨rfl, rfl, rfl, rfl, rfl⟩

theorem State.SplicedOut.content (only : run.1.content = { s.content with prefetch := run.1.content.prefetch }) :
    out.state.content = run.1.content := by
  rw [only, ← spliced.prefetch]
  exact congrArg State.content spliced.rest

theorem State.SplicedOut.fields :
    out.state.splice.services[x.service].state = .inserting ∧ out.state.splice.services[x.service].current = some r ∧
    out.state.splice.services[x.service].test = none ∧ out.state.splice.services[x.service].standbyQueue = [] ∧
    out.state.splice.services[x.service].roleMap = roleMap cdef.comps d.comps ∧
    out.state.splice.services[x.service].outputCC = run.1.splice.services[x.service].outputCC ∧
    out.state.splice.services[x.service].markPending = run.1.splice.services[x.service].markPending := by
  obtain ⟨l, service⟩ := spliced.service
  rw [service]
  exact ⟨rfl, rfl, rfl, rfl, rfl, rfl, rfl⟩

theorem State.SplicedOut.reservation : out.state.report.reservation = s.report.reservation + 1 := by
  rw [spliced.report]
  unfold State.told State.produceAll State.produce State.onReport ReportUnit.produce
  dsimp only [List.foldl]
  split <;> rfl

theorem State.SplicedOut.told (fresh : y.cursor = 0 ∧ y.inserted = 0 ∧ y.outstanding = 0) :
    ∃ rec : InsertionRecord, rec = { out.state.splice.records[r] with cursor := 0, inserted := 0, outstanding := 0 } ∧
      out.state.report = (s.reserve.told [.spliceStarted ⟨r, rec, x.n⟩]).report := by
  refine ⟨y, ?_, spliced.report⟩
  obtain ⟨cursor, inserted, outstanding⟩ := fresh
  rw [spliced.record]
  cases y
  simp_all

end Spliced

/-- The cue fires: its splice point or splice packet has come and every condition holds (R99, R101). -/
theorem decidePacket_splices {k : Clock} {serial comp : Nat} {h : Header} {rest : List HeaderEntry} {c : Component}
    {first : FirstClock} (clear : s.alert.overlays[x.service] = .none) (state : s.splice.services[x.service].state = .armed)
    (unheld : s.splice.services[x.service].alertHold = false) (test : s.splice.services[x.service].test = some t)
    (point : s.pointOf d x t = true) (clock : s.timebase.clocks[x.service] = some k) (locked : k.state = .locked)
    {now : Nat} (time : s.t27 x.service x.n = some now) (room : s.report.reservation < 68) (free : s.splice.records[r].state = .free)
    (lowest : ∀ q : Fin 68, q < r → s.splice.records[q].state ≠ .free) (queue : s.cue.queues[x.service] = [e])
    (defined : s.content.entries[t.cue.content].definition = some cdef)
    (iFirst : s.content.entries[t.cue.content].iFirst = some first) (packets : 2 ≤ cdef.packets)
    (standby : s.splice.services[x.service].standbyQueue = ⟨0, serial, .ready h⟩ :: rest)
    (mapped : (cdef.comps.findIdx? (·.pid == h.pid)).bind (fun ci => (roleMap cdef.comps d.comps).getD ci none) = some comp)
    (component : d.comps[comp]? = some c) :
    let y := startedRecord s x t.cue r now first.value cdef.packets
    ∃ out : Decided, s.decidePacket d x = (out.state, out.action) ∧ s.SplicedOut d x r y cdef
      ((s.runFormed x.service d t.cue.content cdef).insertTaken d x (.insertion r s.splice.records[r].generation) t.cue.content cdef 0
        ((now + 2576980377600 - first.value) % 2576980377600) h comp c false) out := by
  intro y
  have spliced := spliceOut_spliced (d := d) (x := x) (cue := t.cue) (closed := none) (y := y) (run := _)
    (freeRecord_lowest free nofun fun q lower => .inl (lowest q lower)) queue defined (startRecord_eq time defined iFirst) rfl
    ⟨rfl, rfl, rfl⟩ rfl packets standby mapped component rfl
  refine ⟨_, ?_, spliced⟩
  rw [decidePacket_network clear (.inr state), networkPacket_fires clear test point (cause_none clock locked unheld free room)]
  unfold Decided.raised
  rw [spliced.errors]
  rfl

/-- The blocking cause that a time cue keeps at a packet that does not fire it. -/
theorem blockedBy_unfired (unmet : s.pointOf d x t = false ∨ s.cause x.service ≠ none) :
    t.blockedBy (s.unfired d x t) = if s.pointOf d x t then s.cause x.service else t.blocking := by
  unfold State.unfired
  cases point : s.pointOf d x t with
  | false => rfl
  | true =>
    obtain ⟨b, cause⟩ := Option.ne_none_iff_exists'.mp (unmet.resolve_left (by rw [point]; exact nofun))
    rw [cause]
    rfl

section Passed

variable (clear : s.alert.overlays[x.service] = .none) (test : s.splice.services[x.service].test = some t)
  (queue : s.cue.queues[x.service] = [e])

include clear test queue

omit clear in
/-- The state after the rewrite of a packet that passes. -/
theorem passRewrite_kept : (s.passRewrite d x).1.splice.services[x.service].test = some t ∧
    (s.passRewrite d x).1.cue.queues[x.service] = [e] ∧ (s.passRewrite d x).1.t90 x.service x.n = s.t90 x.service x.n := by
  rw [passRewrite_test, passRewrite_eq]
  exact ⟨test, queue, rfl⟩

/-- A packet that fires no time cue. -/
theorem decidePacket_time (state : s.splice.services[x.service].state = .idle ∨ s.splice.services[x.service].state = .armed)
    (unmet : s.pointOf d x t = false ∨ s.cause x.service ≠ none) (isTime : t.cue.mark = false) :
    s.decidePacket d x = (
      if s.timePast x t then
        (s.passRewrite d x).1.missedAlone x.service e .missed (some (missReason (t.blockedBy (s.unfired d x t))).code)
      else (s.passRewrite d x).1.onFields x.service fun f => { f with test := some { t with blocking := t.blockedBy (s.unfired d x t) } },
      (s.passRewrite d x).2) := by
  obtain ⟨test', queue', time⟩ := passRewrite_kept (d := d) test queue
  have past : (s.passRewrite d x).1.timePast x t = s.timePast x t := by
    unfold State.timePast
    rw [time]
  rw [decidePacket_network clear state, networkPacket_passes clear test unmet, testPacket_time test' queue' isTime, past]
  rfl

/-- A splice packet that fires no mark cue. -/
theorem decidePacket_mark_tried (state : s.splice.services[x.service].state = .idle ∨ s.splice.services[x.service].state = .armed)
    {c : BlockCause} (point : s.pointOf d x t = true) (cause : s.cause x.service = some c) (isMark : t.cue.mark = true) :
    s.decidePacket d x = ((s.passRewrite d x).1.missedAlone x.service e .missed (some (MissReason.blocked c).code), (s.passRewrite d x).2) := by
  obtain ⟨test', queue', -⟩ := passRewrite_kept (d := d) test queue
  have reason : s.unfired d x t = some (.blocked c) := by
    unfold State.unfired
    rw [point, cause]
    rfl
  rw [decidePacket_network clear state, networkPacket_passes clear test (.inr (by rw [cause]; exact nofun)), reason,
    testPacket_reason test' queue' isMark]
  rfl

/-- A packet short of the mark. -/
theorem decidePacket_mark (state : s.splice.services[x.service].state = .idle ∨ s.splice.services[x.service].state = .armed)
    (point : s.pointOf d x t = false) (isMark : t.cue.mark = true) : s.decidePacket d x = (
      let ends := t.endsBy (s.t90 x.service x.n)
      let seen := t.markSeen || (true && markPacket d x)
      if !seen && (s.t90 x.service x.n).any fun v => ends.any fun l => hasReached v l then
        (s.passRewrite d x).1.missedAlone x.service e .missedNoMark none
      else (s.passRewrite d x).1.onFields x.service fun f => { f with test := some { t with toleranceEnd := ends, markSeen := seen } },
      (s.passRewrite d x).2) := by
  obtain ⟨test', queue', time⟩ := passRewrite_kept (d := d) test queue
  have reason : s.unfired d x t = none := by
    unfold State.unfired
    rw [point]
    rfl
  rw [decidePacket_network clear state, networkPacket_passes clear test (.inl point), reason, testPacket_mark test' queue' isMark, time]
  rfl

/-- A packet in EXHAUSTED, short of its duration, with a time cue under test (R104). -/
theorem decidePacket_exhausted_time (current : s.splice.services[x.service].current = some r)
    (state : s.splice.services[x.service].state = .exhausted) (isTime : t.cue.mark = false) (present : s.t90 x.service x.n ≠ none)
    (short : durationReached s.splice.records[r] (s.t90 x.service x.n) = false) : s.decidePacket d x = (
      if s.timePast x t then (s.countNull r).missedAlone x.service e .missed (some (missReason t.blocking).code)
      else s.countNull r, .null) := by
  have inside : s.exhaustedPacket d x r = ⟨(s.countNull r).testPacket d x false none, .null, []⟩ :=
    (if_neg fun absent => present (Option.isNone_iff_eq_none.mp absent)).trans (if_neg (Bool.eq_false_iff.mp short))
  have same : ((s.countNull r).onFields x.service fun f => { f with test := some { t with blocking := t.blocking } }) = s.countNull r :=
    onFields_of_fixed (by rw [← show s.splice.services[x.service].test = some t from test]; rfl)
  rw [decidePacket_exhausted clear current state, inside, testPacket_time (s := s.countNull r) test queue isTime]
  refine congrArg (·, Action.null) ?_
  exact congrArg (fun w => if s.timePast x t then _ else w) same

omit clear test queue in
theorem deadlined_countNull (now : Option Time90) :
    (s.deadlined r now).countNull r = (s.countNull r).onRecord r fun y => y.dueBy (s.dueAt r now) := by
  unfold State.deadlined State.countNull
  rw [onRecord_onRecord, onRecord_onRecord]
  rfl

/-- A packet in RETURNING behind the content, no return packet, with a mark cue whose mark has been seen (R98, R106). -/
theorem decidePacket_returning_mark (current : s.splice.services[x.service].current = some r)
    (state : s.splice.services[x.service].state = .returning) (isMark : t.cue.mark = true) (seen : t.markSeen = true)
    (inside : entryPoint d x = false) (done : s.packetCount s.splice.records[r].content ≤ s.splice.records[r].cursor)
    (early : ((s.t90 x.service x.n).any fun v => (s.dueAt r (s.t90 x.service x.n)).any fun l => hasReached v l) = false)
    (held : s.t90 x.service x.n = none → s.splice.records[r].bound ≠ .passed) : s.decidePacket d x =
      (((s.deadlined r (s.t90 x.service x.n)).countNull r).missedAlone x.service e .missed (some MissReason.noEntry.code), .null) := by
  have made := returningPacket_inside (d := d) inside early held
  dsimp only at made
  rw [if_neg (Nat.not_lt.mpr done)] at made
  have missed : ((s.deadlined r (s.t90 x.service x.n)).countNull r).markMiss x.service = some .noEntry := by
    unfold State.markMiss
    rw [show ((s.deadlined r (s.t90 x.service x.n)).countNull r).splice.services[x.service].test = some t from test]
    dsimp only
    rw [isMark, seen]
    rfl
  rw [decidePacket_returning clear current state, made]
  dsimp only
  rw [missed, testPacket_reason (s := (s.deadlined r (s.t90 x.service x.n)).countNull r) test queue isMark]
  rfl

end Passed

end Sys2Proof.Machine

namespace Sys2Proof.Proofs

open Sys2Proof.Machine

/-- Settles O34: a cue that fires, and by its kind and the state of its service one that does not. -/
theorem spliceOut : Obligations.SpliceOut := by
  refine ⟨fun s d x t r k cLast nLast e cdef h serial rest ci comp c first => ?fires, fun s d x t e => ?waits⟩
  case fires =>
    intro i f now old clear state unheld test point clock locked anchor room free lowest queue defined iFirst packets standby found map
      component out run offset
    have time : s.t27 i x.n = some now :=
      (t27_of_clock clock x.n).trans (clock_t27_of_anchor (by rw [locked]; exact nofun) anchor x.n)
    have isPoint : s.pointOf d x t = true := by
      unfold State.pointOf
      rw [t90_of_t27_some time]
      cases mark : t.cue.mark with
      | true => simpa [mark] using point
      | false =>
        rw [mark] at point
        exact Bool.and_eq_true_iff.mpr point
    obtain ⟨v, decided, spliced⟩ := decidePacket_splices clear state unheld test isPoint clock locked time room free lowest queue defined iFirst
      packets standby (by rw [found]; exact map) component
    have only : run.1.content = { s.content with prefetch := run.1.content.prefetch } := congrArg State.content (insertTaken_rest ..)
    obtain ⟨inserting, current, untested, standby, map, counters, mark⟩ := spliced.fields
    rw [show out = (v.state, v.action) from decided]
    exact ⟨spliced.record, spliced.reservation, spliced.queue, inserting, current, untested, standby, map, counters, mark,
      fun j other => ⟨spliced.services j other, spliced.queues j other⟩, spliced.records, spliced.told ⟨rfl, rfl, rfl⟩,
      spliced.action, spliced.content only, spliced.kept⟩
  case waits =>
    intro i f now clear test queue missed tests code past
    have codes (b : Option BlockCause) : code b = (missReason b).code := by
      rcases b with _ | _ | _ | _ <;> rfl
    refine ⟨?network, ?onAir⟩
    case network =>
      intro c state component point cause unmet given mark passed after
      have unmet' : s.pointOf d x t = false ∨ s.cause i ≠ none := unmet
      have rewritten : s.passRewrite d x = (passed, .pass (some ⟨c.output, given.1, mark⟩)) := by
        rw [passRewrite_eq, outputPid_of_component component]
        rfl
      refine ⟨fun isTime => ?_, fun isMark => ⟨fun tried => ?_, fun short => ?_⟩⟩
      · intro blocking
        have made := decidePacket_time clear test queue state unmet' isTime
        have kept : t.blockedBy (s.unfired d x t) = blocking := blockedBy_unfired unmet'
        rw [rewritten, kept] at made
        refine ⟨fun over_ => ?_, fun short => ?_⟩
        · rw [show s.timePast x t = true from over_, if_pos rfl, ← codes] at made
          exact made
        · rw [show s.timePast x t = false from short, if_neg Bool.false_ne_true] at made
          exact made
      · obtain ⟨b, is⟩ := Option.ne_none_iff_exists'.mp (unmet'.resolve_left (by rw [show s.pointOf d x t = true from tried]; exact nofun))
        have made := decidePacket_mark_tried clear test queue state tried is isMark
        rw [rewritten] at made
        rw [show cause = some b from is, codes]
        exact made
      · intro ends seen expired
        have made := decidePacket_mark (e := e) clear test queue state short isMark
        have unseen : t.markSeen = false := by
          have short' : (if t.cue.mark then t.markSeen else _) = false := short
          rwa [isMark] at short'
        rw [rewritten, unseen] at made
        refine ⟨fun is => ?_, fun is => ?_⟩
        · exact made.trans (congrArg (·, _) (if_pos is))
        · exact made.trans (congrArg (·, _) (if_neg (Bool.eq_false_iff.mp is)))
    case onAir =>
      intro r current y counted
      refine ⟨fun state isTime present short => ?_, fun state isMark seen inside done => ?_⟩
      · have made := decidePacket_exhausted_time (d := d) clear test queue current state isTime present ((durationReached_eq ..).trans short)
        refine ⟨fun over_ => ?_, fun early => ?_⟩
        · rw [show s.timePast x t = true from over_, if_pos rfl, ← codes] at made
          exact made
        · rw [show s.timePast x t = false from early, if_neg Bool.false_ne_true] at made
          exact made
      · intro limit early held
        have made := decidePacket_returning_mark (d := d) clear test queue current state isMark seen inside done early held
        rw [deadlined_countNull] at made
        exact made

end Sys2Proof.Proofs
end

section
/-! SUPPORT. A return packet in RETURNING (05, R106 to R108, R110, R112), and the splice-out that may be chained to it (R107). -/

namespace Sys2Proof.Machine

variable {s u v : State} {i : Fin 64} {d : Service} {x : TakeNotice} {r : Fin 68} {t : CueTest} {e : QueueEntry} {cdef : ContentDef}

/-! ## A record that leaves ACTIVE (R110, R112) -/

/-- A record that goes CLOSING, or closes at once where nothing is outstanding. -/
def InsertionRecord.leftAs (c : InsertionRecord) : InsertionRecord :=
  if c.outstanding = 0 then { c with unconfirmed := 0, state := .free, generation := c.generation + 1, closeExpiry := none } else c

/-- A record leaves ACTIVE as `c`: where it closes at once its as-run record is told and its content's hold is released. -/
def State.leftOff (s : State) (r : Fin 68) (c : InsertionRecord) : State :=
  let gone := s.onRecord r fun _ => c.leftAs
  if c.outstanding = 0 then
    (gone.onContentEntry c.content fun e => { e with useCount := e.useCount - 1 }).told [.asRun r { c with unconfirmed := 0 }]
  else gone

theorem leftOff_onFields (f : SpliceFields → SpliceFields) (c : InsertionRecord) :
    (s.onFields i f).leftOff r c = (s.leftOff r c).onFields i f := by
  unfold State.leftOff
  dsimp only
  split <;> rfl

theorem leftOff_onRecord (f : InsertionRecord → InsertionRecord) (c : InsertionRecord) : (s.onRecord r f).leftOff r c = s.leftOff r c := by
  unfold State.leftOff
  dsimp only
  rw [onRecord_onRecord]
  rfl

/-- What a record that leaves ACTIVE moves. -/
theorem leftOff_rest (s : State) (r : Fin 68) (c : InsertionRecord) : ∃ n, s.leftOff r c =
    { s with
      splice := { s.splice with records := modifyAt s.splice.records r fun _ => c.leftAs }
      content := { s.content with entries := modifyAt s.content.entries c.content fun e => { e with useCount := e.useCount - n } }
      report := (s.leftOff r c).report } := by
  unfold State.leftOff
  dsimp only
  split
  · exact ⟨1, rfl⟩
  · have same : (modifyAt s.content.entries c.content fun e => { e with useCount := e.useCount - 0 }) = s.content.entries :=
      modifyAt_of_fixed rfl
    refine ⟨0, ?_⟩
    rw [same]
    rfl

theorem closeRecord_settled {c : InsertionRecord} (record : s.splice.records[r] = c) : State.producing (s.closeRecord r 0) =
    ((s.onRecord r fun _ => ({ c with unconfirmed := 0 } : InsertionRecord).freed).onContentEntry c.content fun e =>
      { e with useCount := e.useCount - 1 }).told [.asRun r { c with unconfirmed := 0 }] := by
  subst record
  rfl

theorem leaveActive_of {c : InsertionRecord} (now : Option Time90) (own : s.splice.records[r].service = i)
    (closing : s.splice.records[r].closing s.clock (after s.clock s.closeTicks) now = c) : s.leaveActive r now =
      let w := (s.onRecord r fun _ => c).onFields i SpliceFields.left
      if c.outstanding = 0 then w.closeRecord r 0 else (w, []) := by
  have moved : (s.onRecord r fun y => y.closing s.clock (after s.clock s.closeTicks) now) = s.onRecord r fun _ => c := onRecord_congr closing
  have count : s.splice.records[r].outstanding = c.outstanding :=
    (congrArg InsertionRecord.outstanding closing : _)
  unfold State.leaveActive
  dsimp only
  rw [own, moved, count]
  rfl

theorem leaveActive_leftOff {c : InsertionRecord} (now : Option Time90) (own : s.splice.records[r].service = i)
    (closing : s.splice.records[r].closing s.clock (after s.clock s.closeTicks) now = c) :
    State.producing (s.leaveActive r now) = (s.leftOff r c).onFields i SpliceFields.left := by
  have record : ((s.onRecord r fun _ => c).onFields i SpliceFields.left).splice.records[r] = c := onRecord_at s r _
  rw [leaveActive_of now own closing]
  unfold State.leftOff InsertionRecord.leftAs
  dsimp only
  by_cases settled : c.outstanding = 0
  · have twice := onRecord_onRecord s r (fun _ => c) fun _ => ({ c with unconfirmed := 0 } : InsertionRecord).freed
    rw [if_pos settled, if_pos settled, if_pos settled, closeRecord_settled record]
    exact congrArg (fun w : State => ((w.onContentEntry c.content fun e => { e with useCount := e.useCount - 1 }).told
      [.asRun r { c with unconfirmed := 0 }]).onFields i SpliceFields.left) twice
  · rw [if_neg settled, if_neg settled, if_neg settled]
    rfl

/-! ## The return begins (R106, R108) -/

/-- Mark pending at a return packet (R108). -/
def State.owedAt (s : State) (i : Fin 64) (r : Fin 68) (forced : Bool) : Bool :=
  s.splice.services[i].markPending || forced || s.splice.records[r].clockJump

theorem beginReturn_eq (forced : Bool) : s.beginReturn i r forced =
    (s.onRecord r fun y => { y with forcedReturn := y.forcedReturn || forced }).onFields i fun f =>
      { f with markPending := s.owedAt i r forced } := by
  unfold State.beginReturn State.returnMark State.oweMark State.owedAt
  rw [onRecord_at]
  dsimp only
  cases forced with
  | true => simp
  | false =>
    cases jump : s.splice.records[r].clockJump with
    | true => simp
    | false =>
      refine (onFields_of_fixed ?_).symm
      simp

/-- The record of an insertion that returns at a packet with that network time, CLOSING (R107, R110). -/
def State.returnClosing (s : State) (r : Fin 68) (now : Option Time90) (forced : Bool) : InsertionRecord :=
  { s.splice.records[r] with
    state := .closing, endTime := s.clock, tReturn := now, deadline := none, bound := .unset
    forcedReturn := s.splice.records[r].forcedReturn || forced
    closeExpiry := some (s.clock + BitVec.ofNat 48 (s.limits.close * 27000)) }

/-- The record of an insertion whose return has begun. -/
def State.returnRecord (s : State) (r : Fin 68) (now : Option Time90) (forced : Bool) : InsertionRecord :=
  { s.splice.records[r] with deadline := s.dueAt r now, forcedReturn := s.splice.records[r].forcedReturn || forced }

/-- The state in which a return packet is decided. -/
def State.returnBegun (s : State) (i : Fin 64) (r : Fin 68) (now : Option Time90) (forced : Bool) : State :=
  (s.onRecord r fun _ => s.returnRecord r now forced).onFields i fun f => { f with markPending := s.owedAt i r forced }

theorem deadlined_beginReturn (now : Option Time90) (forced : Bool) :
    (s.deadlined r now).beginReturn i r forced = s.returnBegun i r now forced := by
  have owed : (s.deadlined r now).owedAt i r forced = s.owedAt i r forced := by
    unfold State.owedAt
    rw [deadlined_record]
    rfl
  have record : ((s.deadlined r now).onRecord r fun y => { y with forcedReturn := y.forcedReturn || forced }) =
      s.onRecord r fun _ => s.returnRecord r now forced := (onRecord_onRecord ..).trans (onRecord_congr rfl)
  rw [beginReturn_eq, owed, record]
  rfl

theorem returnBegun_record (now : Option Time90) (forced : Bool) :
    (s.returnBegun i r now forced).splice.records[r] = s.returnRecord r now forced := onRecord_at s r _

/-- The record leaves the state in which its return has begun. -/
theorem returnBegun_leaves {f : SpliceFields → SpliceFields} (now : Option Time90) (forced : Bool) (own : s.splice.records[r].service = i) :
    State.producing (((s.returnBegun i r now forced).onFields i f).leaveActive r now) =
      (((s.leftOff r (s.returnClosing r now forced)).onFields i fun f => { f with markPending := s.owedAt i r forced }).onFields i f).onFields i
        SpliceFields.left := by
  have record : ((s.returnBegun i r now forced).onFields i f).splice.records[r] = s.returnRecord r now forced :=
    returnBegun_record (i := i) now forced
  rw [leaveActive_leftOff (c := s.returnClosing r now forced) (i := i) now (by rw [record]; exact own) (by rw [record]; rfl), leftOff_onFields]
  unfold State.returnBegun
  rw [leftOff_onFields, leftOff_onRecord]

/-! ## A return packet (R106) -/

/-- The packet is a return packet: an entry point, or one at which the return is forced. -/
def State.returnsAt (s : State) (d : Service) (x : TakeNotice) (r : Fin 68) : Prop :=
  entryPoint d x = true ∨ ((s.t90 x.service x.n).any fun v => s.splice.records[r].deadline.any fun l => hasReached v l) = true ∨
    (s.t90 x.service x.n = none ∧ s.splice.records[r].bound = .passed)

theorem forcedAt_true {now : Option Time90} (due : (now.any fun v => s.splice.records[r].deadline.any fun l => hasReached v l) = true ∨
    (now = none ∧ s.splice.records[r].bound = .passed)) : (s.splice.records[r].dueBy (s.dueAt r now)).forcedAt now = true := by
  unfold InsertionRecord.forcedAt InsertionRecord.dueBy State.dueAt
  cases now with
  | none => exact beq_iff_eq.mpr (due.resolve_left Bool.false_ne_true).2
  | some v =>
    have reached := due.resolve_right fun both => nomatch both.1
    cases deadline : s.splice.records[r].deadline with
    | none =>
      rw [deadline] at reached
      exact absurd reached Bool.false_ne_true
    | some l =>
      rw [deadline] at reached
      exact reached

theorem returningPacket_returns (returns : s.returnsAt d x r) :
    s.returningPacket d x r = (s.deadlined r (s.t90 x.service x.n)).returnHere d x r (!entryPoint d x) := by
  have deadline : s.setReturnDeadline r (s.t90 x.service x.n) = s.deadlined r (s.t90 x.service x.n) := setReturnDeadline_eq _
  unfold State.returningPacket
  dsimp only
  rw [deadline, deadlined_record]
  cases entry : entryPoint d x with
  | true => rfl
  | false =>
    have forced : (s.splice.records[r].dueBy (s.dueAt r (s.t90 x.service x.n))).forcedAt (s.t90 x.service x.n) = true :=
      forcedAt_true (returns.resolve_left (by rw [entry]; exact Bool.false_ne_true))
    rw [forced]
    rfl

/-- The service of a packet that passes at its return (R107). -/
def SpliceFields.passedHome (f : SpliceFields) (comp : Nat) (o : OutputCC) (mark : Bool) : SpliceFields :=
  { f with state := .idle, current := none, runQueue := [], roleMap := [], outputCC := f.outputCC.set comp o, markPending := mark }

theorem returnToNetwork_untested (untested : s.splice.services[x.service].test = none) (own : s.splice.records[r].service = x.service)
    (forced : Bool) {c : Component} (component : d.comps[x.comp]? = some c) :
    (s.returnBegun x.service r (s.t90 x.service x.n) forced).returnToNetwork d x r false none =
      let given := (s.splice.services[x.service].outputCC.getD x.comp {}).give false x.cc x.payload
      let mark := s.owedAt x.service r forced && x.clockReference && x.comp == d.clock
      ⟨(s.leftOff r (s.returnClosing r (s.t90 x.service x.n) forced)).onFields x.service fun f =>
        f.passedHome x.comp given.2 (s.owedAt x.service r forced && !mark), .pass (some ⟨c.output, given.1, mark⟩), []⟩ := by
  extract_lets given mark
  let b := s.returnBegun x.service r (s.t90 x.service x.n) forced
  have service : b.splice.services[x.service] = { s.splice.services[x.service] with markPending := s.owedAt x.service r forced } :=
    onFields_at ..
  have time : b.t90 x.service x.n = s.t90 x.service x.n := rfl
  have rewritten : b.passRewrite d x = (b.onFields x.service fun f =>
      { f with outputCC := f.outputCC.set x.comp given.2, markPending := f.markPending && !mark }, .pass (some ⟨c.output, given.1, mark⟩)) := by
    rw [passRewrite_eq, outputPid_of_component component]
    unfold State.marks
    rw [service]
  unfold State.returnToNetwork
  rw [rewritten, time]
  dsimp only
  rw [returnBegun_leaves _ _ own, onFields_onFields, onFields_onFields, onFields_onFields]
  refine congrArg (fun w : State => Decided.mk w _ _) ?_
  refine testPacket_of_untested ?_ ..
  obtain ⟨n, rest⟩ := leftOff_rest s r (s.returnClosing r (s.t90 x.service x.n) forced)
  rw [onFields_at, rest]
  exact untested

/-- A return packet passes with rewrite, where no cue is under test (R107). -/
theorem returnHere_untested (untested : s.splice.services[x.service].test = none) (own : s.splice.records[r].service = x.service)
    (forced : Bool) {c : Component} (component : d.comps[x.comp]? = some c) :
    (s.deadlined r (s.t90 x.service x.n)).returnHere d x r forced =
      let given := (s.splice.services[x.service].outputCC.getD x.comp {}).give false x.cc x.payload
      let mark := s.owedAt x.service r forced && x.clockReference && x.comp == d.clock
      ⟨(s.leftOff r (s.returnClosing r (s.t90 x.service x.n) forced)).onFields x.service fun f =>
        f.passedHome x.comp given.2 (s.owedAt x.service r forced && !mark), .pass (some ⟨c.output, given.1, mark⟩), []⟩ := by
  have test : (s.deadlined r (s.t90 x.service x.n)).splice.services[x.service].test = none := untested
  have time : (s.deadlined r (s.t90 x.service x.n)).t90 x.service x.n = s.t90 x.service x.n := rfl
  unfold State.returnHere
  dsimp only
  rw [test, time, deadlined_beginReturn]
  dsimp only [Option.filter]
  exact returnToNetwork_untested untested own forced component

end Sys2Proof.Machine
end

section
/-! SUPPORT. A chained return (05, R107), and the statement about returns. -/

namespace Sys2Proof.Machine

variable {s u v : State} {i : Fin 64} {d : Service} {x : TakeNotice} {r r' : Fin 68} {t : CueTest} {e : QueueEntry} {cdef : ContentDef}

/-- The state in which a chained return splices out: the old record has left. -/
def State.chained (s : State) (i : Fin 64) (r : Fin 68) (now : Option Time90) (forced : Bool) : State :=
  ((s.leftOff r (s.returnClosing r now forced)).onFields i fun f => { f with markPending := s.owedAt i r forced }).onFields i SpliceFields.left

theorem returnBegun_chained (now : Option Time90) (forced : Bool) (own : s.splice.records[r].service = i) :
    State.producing ((s.returnBegun i r now forced).leaveActive r now) = s.chained i r now forced := by
  have same : (s.returnBegun i r now forced).onFields i id = s.returnBegun i r now forced := onFields_of_fixed rfl
  have leaves := returnBegun_leaves (f := id) now forced own
  rw [same] at leaves
  rw [leaves]
  exact congrArg (fun w : State => w.onFields i SpliceFields.left) (onFields_of_fixed rfl)

/-- What the chained splice-out finds of the state at the packet. -/
structure State.Chains (s b : State) (i : Fin 64) (r : Fin 68) (c : InsertionRecord) (owed : Bool) : Prop where
  record : b.splice.records[r] = c.leftAs
  records : ∀ q : Fin 68, q ≠ r → b.splice.records[q] = s.splice.records[q]
  service : b.splice.services[i] = { s.splice.services[i] with markPending := owed, current := none, runQueue := [], roleMap := [] }
  report : b.report = (s.leftOff r c).report
  prefetch : b.content.prefetch = s.content.prefetch
  entry : ∀ k : Fin 128, ∃ n, b.content.entries[k] = { s.content.entries[k] with useCount := n }
  cue : b.cue = s.cue
  timebase : b.timebase = s.timebase
  clock : b.clock = s.clock

theorem chains_of {b off : State} {c : InsertionRecord} {owed : Bool} {n : Nat} (left : off = s.leftOff r c)
    (rest : off =
      { s with
        splice := { s.splice with records := modifyAt s.splice.records r fun _ => c.leftAs }
        content := { s.content with entries := modifyAt s.content.entries c.content fun e => { e with useCount := e.useCount - n } }
        report := off.report })
    (isBase : b = (off.onFields i fun f => { f with markPending := owed }).onFields i SpliceFields.left) : s.Chains b i r c owed := by
  have services : off.splice.services = s.splice.services := by rw [rest]
  have records : off.splice.records = modifyAt s.splice.records r fun _ => c.leftAs := by rw [rest]
  have entries : off.content.entries = modifyAt s.content.entries c.content fun e => { e with useCount := e.useCount - n } := by rw [rest]
  have kept : off.content.prefetch = s.content.prefetch ∧ off.cue = s.cue ∧ off.timebase = s.timebase ∧ off.clock = s.clock := by
    rw [rest]
    exact ⟨rfl, rfl, rfl, rfl⟩
  obtain ⟨prefetch, cue, timebase, clock⟩ := kept
  subst isBase
  refine ⟨?_, fun q other => ?_, ?_, left ▸ rfl, prefetch, fun k => ?_, cue, timebase, clock⟩
  · refine Eq.trans (congrArg (fun v : Vector InsertionRecord 68 => v[r]) records) ?_
    rw [modifyAt_fin, if_pos rfl]
  · refine Eq.trans (congrArg (fun v : Vector InsertionRecord 68 => v[q]) records) ?_
    rw [modifyAt_fin, if_neg fun same => other same.symm]
  · rw [onFields_at, onFields_at, services]
    rfl
  · refine ⟨if c.content = k then s.content.entries[k].useCount - n else s.content.entries[k].useCount, ?_⟩
    refine Eq.trans (congrArg (fun v : Vector ContentEntry 128 => v[k]) entries) ?_
    rw [modifyAt_fin]
    split <;> rfl

theorem chained_chains (now : Option Time90) (forced : Bool) :
    s.Chains (s.chained i r now forced) i r (s.returnClosing r now forced) (s.owedAt i r forced) := by
  obtain ⟨n, rest⟩ := leftOff_rest s r (s.returnClosing r now forced)
  exact chains_of rfl rest rfl

/-- A return packet that is a splice point of the cue under test, whose conditions hold, splices out in its turn. -/
theorem returnHere_chains {k : Clock} (clear : s.alert.overlays[x.service] = .none)
    (test : s.splice.services[x.service].test = some t) (point : s.pointOf d x t = true) (own : s.splice.records[r].service = x.service)
    (clock : s.timebase.clocks[x.service] = some k) (locked : k.state = .locked)
    (unheld : s.splice.services[x.service].alertHold = false) (another : r' ≠ r) (free : s.splice.records[r'].state = .free)
    (room : s.report.reservation < 68) (forced : Bool) :
    (s.deadlined r (s.t90 x.service x.n)).returnHere d x r forced =
      (s.chained x.service r (s.t90 x.service x.n) forced).spliceOut d x t.cue (some r) := by
  let b := s.returnBegun x.service r (s.t90 x.service x.n) forced
  have service : b.splice.services[x.service] = { s.splice.services[x.service] with markPending := s.owedAt x.service r forced } :=
    onFields_at ..
  have record : b.splice.records[r'] = s.splice.records[r'] := (modifyAt_fin ..).trans (if_neg fun same => another same.symm)
  have met : b.spliceReason x.service false = none :=
    (spliceReason_clear (s := b) clear).trans (cause_none (s := b) (r := r') clock locked (by rw [service]; exact unheld) (by rw [record]; exact free) room)
  have time : (s.deadlined r (s.t90 x.service x.n)).t90 x.service x.n = s.t90 x.service x.n := rfl
  have test' : (s.deadlined r (s.t90 x.service x.n)).splice.services[x.service].test = some t := test
  unfold State.returnHere
  dsimp only
  rw [test', time, deadlined_beginReturn, met]
  simp only [Option.filter, splicePoint_eq, point, if_true]
  rw [returnBegun_chained _ _ own]

theorem runFormed_counters (w : State) (content : Fin 128) : (w.runFormed i d content cdef).splice.services[i].outputCC =
    runDeltas (roleMap cdef.comps d.comps) w.content.entries[content].firstCC w.splice.services[i].outputCC :=
  congrArg SpliceFields.outputCC (onFields_at w i fun f =>
    { f with
      roleMap := roleMap cdef.comps d.comps
      outputCC := runDeltas (roleMap cdef.comps d.comps) w.content.entries[content].firstCC f.outputCC })

theorem runFormed_mark (w : State) (content : Fin 128) :
    (w.runFormed i d content cdef).splice.services[i].markPending = w.splice.services[i].markPending := by
  unfold State.runFormed
  dsimp only
  rw [onFields_at]

theorem leftOff_clock (c : InsertionRecord) : (s.leftOff r c).clock = s.clock := by
  unfold State.leftOff
  dsimp only
  split <;> rfl

/-- What a start tells is told by the queue and the time alone. -/
theorem started_report {b : ReportBody} (report : u.report = v.report) (clock : u.clock = v.clock) :
    (u.reserve.told [b]).report = (v.reserve.told [b]).report := by
  unfold State.told State.produceAll State.produce State.onReport State.reserve State.onReport
  dsimp only [List.foldl]
  rw [report, clock]

section Chained

variable {b : State} {y : InsertionRecord} {owed : Bool} (chains : s.Chains b x.service r y owed)

include chains

/-- An INSERT of the chained run, as one at the packet's own state. -/
theorem State.Chains.inserts (g : Generation) (content : Fin 128) (j offset : Nat) (h : Header) (comp : Nat) (c : Component) :
    let one := (b.runFormed x.service d content cdef).insertTaken d x (.insertion r' g) content cdef j offset h comp c false
    let two := ((s.onFields x.service fun f => { f with markPending := owed }).runFormed x.service d content cdef).insertTaken d x
      (.insertion r' g) content cdef j offset h comp c false
    one.2 = two.2 ∧ one.1.content.prefetch = two.1.content.prefetch ∧
      one.1.splice.services[x.service].outputCC = two.1.splice.services[x.service].outputCC ∧
      one.1.splice.services[x.service].markPending = two.1.splice.services[x.service].markPending := by
  obtain ⟨n, entry⟩ := chains.entry content
  refine insertTaken_congr (u := b.runFormed x.service d content cdef)
    (v := (s.onFields x.service fun f => { f with markPending := owed }).runFormed x.service d content cdef) g j offset h comp c false ?_ ?_
    chains.prefetch
  · rw [runFormed_counters, runFormed_counters, onFields_at, entry, chains.service]
    rfl
  · rw [runFormed_mark, runFormed_mark, onFields_at, chains.service]

theorem State.Chains.spliced {now serial comp : Nat} {first : FirstClock} {h : Header} {rest : List HeaderEntry} {c : Component} {cue : SpliceCue}
    (time : s.t27 x.service x.n = some now) (another : r' ≠ r) (free : s.splice.records[r'].state = .free)
    (lowest : ∀ q : Fin 68, q < r' → s.splice.records[q].state ≠ .free) (queue : s.cue.queues[x.service] = [e])
    (defined : s.content.entries[cue.content].definition = some cdef)
    (iFirst : s.content.entries[cue.content].iFirst = some first) (packets : 2 ≤ cdef.packets)
    (standby : s.splice.services[x.service].standbyQueue = ⟨0, serial, .ready h⟩ :: rest)
    (mapped : (cdef.comps.findIdx? (·.pid == h.pid)).bind (fun ci => (roleMap cdef.comps d.comps).getD ci none) = some comp)
    (component : d.comps[comp]? = some c) :
    b.SplicedOut d x r' (startedRecord s x cue r' now first.value cdef.packets) cdef
      ((b.runFormed x.service d cue.content cdef).insertTaken d x (.insertion r' s.splice.records[r'].generation) cue.content cdef 0
        ((now + 2576980377600 - first.value) % 2576980377600) h comp c false) (b.spliceOut d x cue (some r)) := by
  obtain ⟨n, entry⟩ := chains.entry cue.content
  have record := chains.records r' another
  have started : startRecord b b.splice.records[r'] x cue = startedRecord s x cue r' now first.value cdef.packets := by
    refine (startRecord_eq (cdef := cdef) (now := now) (first := first) ?_ (by rw [entry]; exact defined) (by rw [entry]; exact iFirst)).trans ?_
    · unfold State.t27
      rw [chains.timebase]
      exact time
    · unfold startedRecord
      rw [record, chains.clock]
  refine spliceOut_spliced (e := e) (freeRecord_lowest (by rw [record]; exact free) (fun same => another (Option.some.inj same).symm) fun q lower => ?_)
    (by rw [chains.cue]; exact queue) (by rw [entry]; exact defined) started rfl ⟨rfl, rfl, rfl⟩ rfl packets
    (by rw [chains.service]; exact standby) mapped component rfl
  by_cases own : q = r
  · exact .inr (congrArg some own.symm)
  · exact .inl (by rw [chains.records q own]; exact lowest q lower)

end Chained

end Sys2Proof.Machine

namespace Sys2Proof.Proofs

open Sys2Proof.Machine

/-- Settles O35: with no cue under test the packet passes home; with one whose splice point it is, the return is chained. -/
theorem returnAtAnEntryPoint : Obligations.ReturnAtAnEntryPoint := by
  intro s d x r c i f y t90 forced clear state current active own returns owed closing left gone off
  have decided : s.decidePacket d x = ((s.deadlined r t90).returnHere d x r forced).raised :=
    (decidePacket_returning clear current state).trans (congrArg Decided.raised (returningPacket_returns returns))
  refine ⟨fun untested component => ?home, fun t r' k cLast nLast e cdef h serial rest ci comp first => ?chained⟩
  case home =>
    rw [decided, returnHere_untested untested own forced component]
    rfl
  case chained =>
    intro now old test isTime entry unheld clock locked anchor point room free lowest queue defined iFirst packets standby found map
      component offset started run out
    have time : s.t27 i x.n = some now :=
      (t27_of_clock clock x.n).trans (clock_t27_of_anchor (by rw [locked]; exact nofun) anchor x.n)
    have isPoint : s.pointOf d x t = true := by
      unfold State.pointOf
      rw [t90_of_t27_some time, isTime]
      exact Bool.and_eq_true_iff.mpr ⟨entry, point⟩
    have another : r' ≠ r := fun same =>
      nomatch active.symm.trans ((congrArg (fun q : Fin 68 => s.splice.records[q].state) same).symm.trans free)
    have chains : s.Chains (s.chained i r t90 forced) i r closing owed := chained_chains t90 forced
    have spliced := chains.spliced time another free lowest queue defined iFirst packets standby (by rw [found]; exact map) component
    obtain ⟨action, prefetch, counters, mark⟩ := chains.inserts (d := d) (r' := r') (cdef := cdef) old.generation t.cue.content 0 offset h comp c
    obtain ⟨inserting, current', untested, -, -, counters', mark'⟩ := spliced.fields
    have is : s.decidePacket d x = (((s.chained i r t90 forced).spliceOut d x t.cue (some r)).state,
        ((s.chained i r t90 forced).spliceOut d x t.cue (some r)).action) := by
      rw [decided, returnHere_chains clear test isPoint own clock locked unheld another free room]
      unfold Decided.raised
      rw [spliced.errors]
      rfl
    rw [show out = _ from is]
    exact ⟨another, (spliced.records r another.symm).trans chains.record, spliced.record, inserting, current', untested, spliced.queue,
      counters'.trans counters, mark'.trans mark, spliced.report.trans (started_report chains.report (chains.clock.trans (leftOff_clock (s := s) (r := r) closing).symm)),
      spliced.prefetch.trans prefetch, spliced.action.trans action⟩

end Sys2Proof.Proofs
end

section
/-! SUPPORT. Alert entries that leave the air, services that an alert takes, and the end of an alert (06, R121, R124, R129 to R133). -/

namespace Sys2Proof.Machine

variable {s u v : State} {i : Fin 4} {j : Fin 64} {e : AlertEntry} {cdef : ContentDef}

/-! ## An entry goes CLOSING (R133) -/

theorem alertLeft_onEntry (f : AlertEntry → AlertEntry) : (s.onEntry i f).alertLeft i e = s.alertLeft i e := by
  unfold State.alertLeft
  dsimp only
  rw [onEntry_onEntry, onEntry_onEntry]
  rfl

theorem alertLeft_onFields (f : SpliceFields → SpliceFields) : (s.onFields j f).alertLeft i e = (s.alertLeft i e).onFields j f := by
  unfold State.alertLeft
  dsimp only
  split <;> rfl

/-- Of the fields that an entry had, its state and its duration do not matter when it goes CLOSING. -/
theorem alertLeft_fields (state : AlertState) (expiry : Option StationTime) :
    s.alertLeft i { e with state := state, durationExpiry := expiry } = s.alertLeft i e := rfl

theorem closeEntry_settled (entry : s.alert.entries[i] = e) : State.producing (s.closeEntry i 0) =
    ((s.onEntry i fun _ => ({ e with unconfirmed := 0 } : AlertEntry).freed).onContentEntry e.content fun x =>
      { x with useCount := x.useCount - 1 }).told [.alertAsRun i { e with unconfirmed := 0 }] := by
  subst entry
  rfl

/-- The entry as it goes CLOSING. -/
def State.closingEntry (s : State) (e : AlertEntry) : AlertEntry :=
  { e with
    state := .closing, endTime := some s.clock, durationExpiry := none
    closeExpiry := some (s.clock + BitVec.ofNat 48 (s.limits.close * 27000)) }

theorem entryClosing_of (entry : s.alert.entries[i] = e) : s.entryClosing i =
    let w := s.onEntry i fun _ => s.closingEntry e
    if e.outstanding = 0 then w.closeEntry i 0 else (w, []) := by
  subst entry
  have moved : (s.onEntry i fun e =>
      { e with state := .closing, endTime := some s.clock, closeExpiry := some (after s.clock s.closeTicks), durationExpiry := none }) =
      s.onEntry i fun _ => s.closingEntry s.alert.entries[i] := onEntry_const ..
  unfold State.entryClosing
  dsimp only
  rw [moved]

theorem entryClosing_eq (entry : s.alert.entries[i] = e) : State.producing (s.entryClosing i) = s.alertLeft i e := by
  have closing : (s.onEntry i fun _ => s.closingEntry e).alert.entries[i] = s.closingEntry e := onEntry_at ..
  rw [entryClosing_of entry]
  unfold State.alertLeft
  dsimp only
  by_cases settled : e.outstanding = 0
  · have twice := onEntry_onEntry s i (fun _ => s.closingEntry e) fun _ => ({ s.closingEntry e with unconfirmed := 0 } : AlertEntry).freed
    rw [if_pos settled, if_pos settled, closeEntry_settled closing]
    exact congrArg (fun w : State => (w.onContentEntry e.content fun x => { x with useCount := x.useCount - 1 }).told
      [.alertAsRun i { s.closingEntry e with unconfirmed := 0 }]) twice
  · rw [if_neg settled, if_neg settled]
    rfl

theorem overlaid_eq_false : s.overlaid i = false ↔ ∀ k : Fin 64, s.alert.overlays[k].names i = false := by
  unfold State.overlaid
  rw [← Bool.not_eq_true, List.any_eq_true]
  simp only [Vector.mem_toList_iff, Vector.mem_iff_getElem]
  constructor
  · intro none_ k
    refine Bool.eq_false_iff.mpr fun named => none_ ⟨_, ⟨k.val, k.isLt, rfl⟩, named⟩
  · rintro none_ ⟨o, ⟨k, small, rfl⟩, named⟩
    exact Bool.eq_false_iff.mp (none_ ⟨k, small⟩) named

/-- An ENDING entry that no overlay names leaves the air. -/
theorem settleEntry_eq : s.settleEntry i =
    if s.alert.entries[i].state = .ending ∧ ∀ k : Fin 64, s.alert.overlays[k].names i = false then s.alertLeft i s.alert.entries[i] else s := by
  unfold State.settleEntry
  rw [entryClosing_eq rfl]
  exact if_congr (and_congr_right fun _ => overlaid_eq_false) rfl rfl

/-! ## An alert takes a service (R121, R124) -/

theorem takeService_airs (defined : s.content.entries[s.alert.entries[i].content].definition = some cdef) :
    s.takeService j i = s.airs j i cdef := by
  unfold State.takeService State.startRun
  dsimp only
  have entry : (s.setOverlay j (.airing i s.alert.entries[i].generation)).alert.entries[i] = s.alert.entries[i] := rfl
  rw [entry, fillHeaders_run (s := (s.setOverlay j _).onFields j _) defined]
  unfold State.runAsks State.headersRequested State.airs State.setOverlay State.onFields State.onSplice State.onPath State.onAlert
  simp only [modifyAt_modifyAt]
  rfl

/-! ## The services of an ended alert return (R129, R131) -/

/-- An overlay that airs an entry is RETURNING once the entry has ended. -/
def Overlay.ended (o : Overlay) (i : Fin 4) : Overlay :=
  match o with
  | .airing e g => if e = i then .returning e g else .airing e g
  | o => o

/-- The fields of a service with that overlay, once the entry has ended. -/
def SpliceFields.ended (f : SpliceFields) (o : Overlay) (i : Fin 4) (bound : Bound) : SpliceFields :=
  match o with
  | .airing e _ => if e = i then { f with run := f.run.map fun r => { r with returning := true, bound := bound } } else f
  | _ => f

/-- The services of a list return. -/
def State.servicesEnded (s : State) (i : Fin 4) (bound : Bound) (l : List (Fin 64)) : State :=
  (s.onAlert fun u => { u with overlays := Vector.ofFn fun j : Fin 64 => if j ∈ l then s.alert.overlays[j].ended i else s.alert.overlays[j] }).onSplice
    fun u => { u with services := Vector.ofFn fun j : Fin 64 =>
      if j ∈ l then s.splice.services[j].ended s.alert.overlays[j] i bound else s.splice.services[j] }

theorem endService_eq (s : State) (i : Fin 4) (v : Fin 64) : s.endService i v =
    (s.onAlert fun u => { u with overlays := modifyAt s.alert.overlays v (·.ended i) }).onSplice fun u =>
      { u with services := modifyAt s.splice.services v (·.ended s.alert.overlays[v] i (.armed (after s.clock s.closeTicks))) } := by
  have stays (o : Overlay) (is : s.alert.overlays[v] = o) (fixed : o.ended i = o)
      (same : s.splice.services[v].ended o i (.armed (after s.clock s.closeTicks)) = s.splice.services[v]) :
      ((s.onAlert fun u => { u with overlays := modifyAt s.alert.overlays v (·.ended i) }).onSplice fun u =>
        { u with services := modifyAt s.splice.services v (·.ended s.alert.overlays[v] i (.armed (after s.clock s.closeTicks))) }) = s := by
    rw [modifyAt_of_fixed (by rw [is]; exact fixed), modifyAt_of_fixed (by rw [is]; exact same)]
    rfl
  unfold State.endService
  cases overlay : s.alert.overlays[v] with
  | none => exact ((overlay ▸ stays _ rfl (by rw [overlay]; rfl) (by rw [overlay]; rfl))).symm
  | returning e g => exact ((overlay ▸ stays _ rfl (by rw [overlay]; rfl) (by rw [overlay]; rfl))).symm
  | airing e g =>
    dsimp only
    by_cases own : e = i
    · rw [if_pos own]
      have overlays : s.alert.overlays.set v (.returning e g) = modifyAt s.alert.overlays v (·.ended i) := by
        unfold modifyAt
        rw [overlay]
        exact congrArg (s.alert.overlays.set v) (if_pos own).symm
      have services : (modifyAt s.splice.services v fun f =>
          { f with run := f.run.map fun r => { r with returning := true, bound := .armed (after s.clock s.closeTicks) } }) =
          modifyAt s.splice.services v (·.ended (.airing e g) i (.armed (after s.clock s.closeTicks))) :=
        modifyAt_congr (if_pos own).symm
      rw [← overlays, ← services]
      rfl
    · rw [if_neg own]
      exact (overlay ▸ stays _ rfl (by rw [overlay]; exact if_neg own) (by rw [overlay]; exact if_neg own)).symm

theorem ofFn_getElem_of {α : Type} {n : Nat} (v : Vector α n) (f : Fin n → α) (same : ∀ k : Fin n, f k = v[k]) : Vector.ofFn f = v := by
  refine Vector.ext fun k small => ?_
  rw [Vector.getElem_ofFn]
  exact same ⟨k, small⟩

theorem foldl_endService {b : Bound} (l : List (Fin 64)) (once : l.Nodup) (s : State) (bound : .armed (after s.clock s.closeTicks) = b) :
    l.foldl (fun s v => s.endService i v) s = s.servicesEnded i b l := by
  induction l generalizing s with
  | nil =>
    unfold State.servicesEnded
    rw [ofFn_getElem_of s.alert.overlays _ fun k => if_neg List.not_mem_nil, ofFn_getElem_of s.splice.services _ fun k => if_neg List.not_mem_nil]
    rfl
  | cons v l ih =>
    obtain ⟨fresh, once⟩ := List.nodup_cons.mp once
    have overlay (k : Fin 64) : (if k ∈ l then ((modifyAt s.alert.overlays v (·.ended i))[k]).ended i else (modifyAt s.alert.overlays v (·.ended i))[k]) =
        if k ∈ v :: l then s.alert.overlays[k].ended i else s.alert.overlays[k] := by
      rw [modifyAt_fin]
      by_cases own : v = k
      · subst own
        rw [if_neg fresh, if_pos rfl, if_pos (List.mem_cons_self ..)]
      · rw [if_neg own]
        exact if_congr (by rw [List.mem_cons, or_iff_right fun same => own same.symm]) rfl rfl
    have service (k : Fin 64) :
        (if k ∈ l then ((modifyAt s.splice.services v (·.ended s.alert.overlays[v] i b))[k]).ended ((modifyAt s.alert.overlays v (·.ended i))[k]) i b
        else (modifyAt s.splice.services v (·.ended s.alert.overlays[v] i b))[k]) =
          if k ∈ v :: l then s.splice.services[k].ended s.alert.overlays[k] i b else s.splice.services[k] := by
      rw [modifyAt_fin, modifyAt_fin]
      by_cases own : v = k
      · subst own
        rw [if_neg fresh, if_pos rfl, if_pos (List.mem_cons_self ..)]
      · rw [if_neg own, if_neg own]
        exact if_congr (by rw [List.mem_cons, or_iff_right fun same => own same.symm]) rfl rfl
    have first := endService_eq s i v
    rw [bound] at first
    rw [List.foldl_cons, first]
    refine Eq.trans (ih once _ ?_) ?_
    · exact bound
    unfold State.servicesEnded State.onAlert State.onSplice
    dsimp only
    rw [funext overlay, funext service]

/-- The services that an ended alert airs on, all together. -/
def State.airsEnded (s : State) (i : Fin 4) : State :=
  (s.onAlert fun u => { u with overlays := s.alert.overlays.map (·.ended i) }).onSplice fun u =>
    { u with services := Vector.ofFn fun j : Fin 64 =>
      s.splice.services[j].ended s.alert.overlays[j] i (.armed (after s.clock s.closeTicks)) }

theorem foldl_endService_all (s : State) (i : Fin 4) : (List.finRange 64).foldl (fun s v => s.endService i v) s = s.airsEnded i := by
  have all (v : Vector Overlay 64) : (Vector.ofFn fun j : Fin 64 => if j ∈ List.finRange 64 then v[j].ended i else v[j]) = v.map (·.ended i) :=
    ofFn_getElem_of _ _ fun k => by simp
  rw [foldl_endService _ (List.nodup_finRange 64) s rfl]
  have services (f g : Fin 64 → SpliceFields) : (Vector.ofFn fun j => if j ∈ List.finRange 64 then f j else g j) = Vector.ofFn f :=
    congrArg Vector.ofFn (funext fun j => if_pos (List.mem_finRange j))
  unfold State.servicesEnded
  rw [all, services]
  rfl

/-! ## One alert ends (R129, R130) -/

/-- The entry as it has ended. -/
def AlertEntry.endedBy (e : AlertEntry) (reason : AlertEnd) : AlertEntry :=
  { e with state := .ending, endReason := some reason, durationExpiry := none }

theorem endAlert_eq (reason : AlertEnd) : s.endAlert i reason = ((s.onEntry i (·.endedBy reason)).airsEnded i).settleEntry i := by
  unfold State.endAlert
  dsimp only
  rw [foldl_endService_all]
  rfl

theorem airsEnded_overlays (f : AlertEntry → AlertEntry) :
    ((s.onEntry i f).airsEnded i).alert.overlays = s.alert.overlays.map (·.ended i) := rfl

/-- A service's overlay still names an alert that airs there. -/
theorem endAlert_airing {air : Fin 64} {g : Generation} (airing : s.alert.overlays[air] = .airing i g) (reason : AlertEnd) :
    s.endAlert i reason = (s.onEntry i (·.endedBy reason)).airsEnded i := by
  rw [endAlert_eq, settleEntry_eq]
  refine if_neg fun settles => ?_
  have named := settles.2 air
  have overlay : ((s.onEntry i (·.endedBy reason)).airsEnded i).alert.overlays[air] = .returning i g := by
    rw [airsEnded_overlays, Fin.getElem_fin, Vector.getElem_map, ← Fin.getElem_fin, airing]
    exact if_pos rfl
  rw [overlay] at named
  exact absurd (beq_self_eq_true i) (Bool.eq_false_iff.mp named)

theorem airsEnded_unnamed (unnamed : ∀ (j : Fin 64) g, s.alert.overlays[j] ≠ .airing i g ∧ s.alert.overlays[j] ≠ .returning i g) :
    s.airsEnded i = s := by
  have fixed (j : Fin 64) : s.alert.overlays[j].ended i = s.alert.overlays[j] := by
    cases overlay : s.alert.overlays[j] with
    | none => rfl
    | returning e g => rfl
    | airing e g =>
      have other : e ≠ i := fun own => (unnamed j g).1 (by rw [overlay, own])
      exact if_neg other
  have kept (j : Fin 64) (b : Bound) : s.splice.services[j].ended s.alert.overlays[j] i b = s.splice.services[j] := by
    cases overlay : s.alert.overlays[j] with
    | none => rfl
    | returning e g => rfl
    | airing e g =>
      have other : e ≠ i := fun own => (unnamed j g).1 (by rw [overlay, own])
      exact if_neg other
  have overlays : s.alert.overlays.map (·.ended i) = s.alert.overlays := by
    refine Vector.ext fun k small => ?_
    rw [Vector.getElem_map]
    exact fixed ⟨k, small⟩
  unfold State.airsEnded State.onAlert
  dsimp only
  rw [overlays]
  exact congrArg (fun v => s.onSplice fun u => { u with services := v }) (ofFn_getElem_of s.splice.services _ fun k => kept k _)

theorem names_iff {o : Overlay} : o.names i = true ↔ ∃ g, o = .airing i g ∨ o = .returning i g := by
  cases o with
  | none => exact iff_of_false Bool.false_ne_true fun ⟨_, either⟩ => either.elim nofun nofun
  | airing e g =>
    refine beq_iff_eq.trans ⟨fun own => ⟨g, .inl (own ▸ rfl)⟩, fun ⟨_, either⟩ => ?_⟩
    exact either.elim (fun same => (Overlay.airing.inj same).1) nofun
  | returning e g =>
    refine beq_iff_eq.trans ⟨fun own => ⟨g, .inr (own ▸ rfl)⟩, fun ⟨_, either⟩ => ?_⟩
    exact either.elim nofun fun same => (Overlay.returning.inj same).1

theorem endAlert_unnamed (unnamed : ∀ (j : Fin 64) g, s.alert.overlays[j] ≠ .airing i g ∧ s.alert.overlays[j] ≠ .returning i g)
    (reason : AlertEnd) : s.endAlert i reason = s.alertLeft i { s.alert.entries[i] with endReason := some reason } := by
  have entry : (s.onEntry i (·.endedBy reason)).alert.entries[i] = s.alert.entries[i].endedBy reason := onEntry_at ..
  rw [endAlert_eq, airsEnded_unnamed (s := s.onEntry i _) unnamed, settleEntry_eq, entry, if_pos, alertLeft_onEntry]
  · rfl
  · refine ⟨rfl, fun k => Bool.eq_false_iff.mpr fun named => ?_⟩
    obtain ⟨g, either⟩ := names_iff.mp named
    exact either.elim (unnamed k g).1 (unnamed k g).2

end Sys2Proof.Machine
end

section
/-! SUPPORT. The return packet of an overlay (06, R131 to R133), and ALERT_END (06, R129). -/

namespace Sys2Proof.Machine

variable {s u w : State} {i a : Fin 4} {j : Fin 64} {d : Service} {x : TakeNotice} {cdef : ContentDef}

/-! ## An entry that is left settles alike, whatever else moves -/

theorem settleEntry_onFields (f : SpliceFields → SpliceFields) : (s.onFields j f).settleEntry i = (s.settleEntry i).onFields j f := by
  rw [settleEntry_eq, settleEntry_eq, alertLeft_onFields]
  exact (apply_ite (fun w : State => w.onFields j f) ..).symm

theorem alertLeft_headersRequested (n : Nat) (reads : List MemRead) (e : AlertEntry) :
    (s.headersRequested n reads).alertLeft i e = (s.alertLeft i e).headersRequested n reads := by
  unfold State.alertLeft
  dsimp only
  split <;> rfl

theorem settleEntry_headersRequested (n : Nat) (reads : List MemRead) :
    (s.headersRequested n reads).settleEntry i = (s.settleEntry i).headersRequested n reads := by
  rw [settleEntry_eq, settleEntry_eq, alertLeft_headersRequested]
  exact (apply_ite (fun w : State => w.headersRequested n reads) ..).symm

/-- What an entry that goes CLOSING moves. -/
theorem alertLeft_kept (s : State) (i : Fin 4) (e : AlertEntry) : (s.alertLeft i e).splice = s.splice ∧
    (s.alertLeft i e).alert.overlays = s.alert.overlays ∧
    (∀ c : Fin 128, (s.alertLeft i e).content.entries[c].definition = s.content.entries[c].definition) ∧
    (∀ a : Fin 4, a ≠ i → (s.alertLeft i e).alert.entries[a] = s.alert.entries[a]) := by
  have other {y : AlertEntry} (a : Fin 4) (ne : a ≠ i) : (modifyAt s.alert.entries i fun _ => y)[a] = s.alert.entries[a] :=
    (modifyAt_fin ..).trans (if_neg fun same => ne same.symm)
  have defined (c : Fin 128) : (modifyAt s.content.entries e.content fun x => { x with useCount := x.useCount - 1 })[c].definition =
      s.content.entries[c].definition := by
    rw [modifyAt_fin]
    split <;> rfl
  unfold State.alertLeft
  dsimp only
  split
  · exact ⟨rfl, rfl, defined, other⟩
  · exact ⟨rfl, rfl, fun _ => rfl, other⟩

theorem settleEntry_kept (s : State) (i : Fin 4) : (s.settleEntry i).splice = s.splice ∧
    (s.settleEntry i).alert.overlays = s.alert.overlays ∧
    (∀ c : Fin 128, (s.settleEntry i).content.entries[c].definition = s.content.entries[c].definition) ∧
    (∀ a : Fin 4, a ≠ i → (s.settleEntry i).alert.entries[a] = s.alert.entries[a]) := by
  rw [settleEntry_eq]
  split
  · exact alertLeft_kept ..
  · exact ⟨rfl, rfl, fun _ => rfl, fun _ _ => rfl⟩

/-- The entry that is left settles where no other service's overlay names it. -/
theorem settles_iff {o : Overlay} (under : ∀ k : Fin 64, u.alert.overlays[k] = if j = k then o else s.alert.overlays[k])
    (unnamed : s.alert.entries[i].state = .ending → o.names i = false) :
    (s.alert.entries[i].state = .ending ∧ ∀ k : Fin 64, u.alert.overlays[k].names i = false) ↔
      (s.alert.entries[i].state = .ending ∧
        ¬ ∃ k : Fin 64, k ≠ j ∧ ∃ g, s.alert.overlays[k] = .airing i g ∨ s.alert.overlays[k] = .returning i g) := by
  refine and_congr_right fun ending => ⟨fun none_ ⟨k, other, named⟩ => ?_, fun none_ k => ?_⟩
  · have is := none_ k
    rw [under, if_neg fun same => other same.symm] at is
    exact Bool.eq_false_iff.mp is (names_iff.mpr named)
  · rw [under]
    by_cases own : j = k
    · rw [if_pos own]
      exact unnamed ending
    · rw [if_neg own]
      exact Bool.eq_false_iff.mpr fun named => none_ ⟨k, fun same => own same.symm, names_iff.mp named⟩

/-! ## The strongest alert that covers a service (R132) -/

/-- The entry is ACTIVE and has captured the service. -/
def State.Covers (s : State) (j : Fin 64) (a : Fin 4) : Prop :=
  s.alert.entries[a].state = .active ∧ s.alert.entries[a].captured.getLsbD j.val = true

theorem covers_iff : s.covers a j = true ↔ s.Covers j a := by
  unfold State.covers State.Covers
  rw [Bool.and_eq_true, beq_iff_eq]

theorem strongest_none (uncovered : ∀ a, ¬ s.Covers j a) : s.strongest j = none := by
  have fails (a : Fin 4) : s.covers a j = false := Bool.eq_false_iff.mpr fun is => uncovered a (covers_iff.mp is)
  unfold State.strongest
  rw [show List.finRange 4 = [0, 1, 2, 3] from rfl]
  simp only [List.foldl, fails, Bool.false_eq_true, if_false]

theorem strongest_one (alone : ∀ a', s.Covers j a' ↔ a' = a) : s.strongest j = some a := by
  have is (a' : Fin 4) : s.covers a' j = decide (a' = a) := by
    rw [Bool.eq_iff_iff, covers_iff, decide_eq_true_iff]
    exact alone a'
  unfold State.strongest
  rw [show List.finRange 4 = [0, 1, 2, 3] from rfl]
  simp only [List.foldl, is]
  clear alone is
  fin_cases a <;> rfl

/-! ## The return packet of an overlay (R131, R132) -/

/-- The packet is a return packet of the run. -/
def State.runReturns (s : State) (d : Service) (x : TakeNotice) (q : AlertRun) : Prop :=
  entryPoint d x = true ∨ ((s.t90 x.service x.n).any fun v => q.deadline.any fun l => hasReached v l) = true ∨
    (s.t90 x.service x.n = none ∧ q.bound = .passed)

/-- The run with the return deadline that the packet sets. -/
def AlertRun.dueBy (q : AlertRun) (limit : Option Time90) : AlertRun := { q with deadline := q.deadline.or limit }

theorem setRunDeadline_eq {q : AlertRun} (run : s.splice.services[j].run = some q) (now : Option Time90) : s.setRunDeadline j now =
    s.onFields j fun f => { f with run := some (q.dueBy (returnLimit s now)) } := by
  unfold State.setRunDeadline
  rw [onRun_eq run]
  refine onFields_congr ?_
  unfold AlertRun.dueBy returnLimit
  cases deadline : q.deadline with
  | some l => exact congrArg (fun v => { s.splice.services[j] with run := some { q with deadline := v } }) deadline
  | none =>
    cases now with
    | some v => rfl
    | none => exact congrArg (fun v => { s.splice.services[j] with run := some { q with deadline := v } }) deadline

theorem runForced_of_due {q : AlertRun} {now limit : Option Time90} (due : (now.any fun v => q.deadline.any fun l => hasReached v l) = true ∨
    (now = none ∧ q.bound = .passed)) : (q.dueBy limit).forced now = true := by
  unfold AlertRun.forced AlertRun.dueBy
  cases now with
  | none => exact beq_iff_eq.mpr (due.resolve_left Bool.false_ne_true).2
  | some v =>
    have reached := due.resolve_right fun both => nomatch both.1
    cases deadline : q.deadline with
    | none =>
      rw [deadline] at reached
      exact absurd reached Bool.false_ne_true
    | some l =>
      rw [deadline] at reached
      exact reached

theorem overlayDecision_returns {q : AlertRun} (run : s.splice.services[x.service].run = some q) (returning : q.returning = true)
    (returns : s.runReturns d x q) : ∃ z, s.overlayDecision d x =
      (s.onFields x.service fun f => { f with run := some z }).alertReturn d x q.entry := by
  let z := q.dueBy (returnLimit s (s.t90 x.service x.n))
  refine ⟨z, ?_⟩
  have run' : (s.onFields x.service fun f => { f with run := some z }).splice.services[x.service].run = some z :=
    congrArg SpliceFields.run (onFields_at s x.service fun f => { f with run := some z })
  have due : (entryPoint d x || z.forced (s.t90 x.service x.n)) = true := by
    rcases returns with entry | due
    · rw [entry, Bool.true_or]
    · rw [runForced_of_due due, Bool.or_true]
  unfold State.overlayDecision
  rw [run]
  dsimp only
  rw [if_pos returning, setRunDeadline_eq run, run', Option.getD_some, if_pos due]
  rfl

/-- The fields of a service whose overlay has ended. -/
def SpliceFields.uncovered (f : SpliceFields) : SpliceFields :=
  { f with run := none, runQueue := [], roleMap := [], alertHold := false, markPending := true }

theorem alertReturn_none (z : AlertRun) (uncovered : ∀ a, ¬ s.Covers x.service a) (leaving : Fin 4) :
    (s.onFields x.service fun f => { f with run := some z }).alertReturn d x leaving =
      let left := ((s.setOverlay x.service .none).settleEntry leaving).onFields x.service SpliceFields.uncovered
      ⟨(left.passRewrite d x).1, (left.passRewrite d x).2, []⟩ := by
  have none_ : (s.onFields x.service fun f => { f with run := some z }).strongest x.service = none := strongest_none (s := s.onFields _ _) uncovered
  have fields : ((s.onFields x.service fun f => { f with run := some z }).setOverlay x.service .none).onFields x.service SpliceFields.uncovered =
      (s.setOverlay x.service .none).onFields x.service SpliceFields.uncovered := onFields_onFields (s.setOverlay x.service .none) x.service _ _
  unfold State.alertReturn
  rw [none_]
  dsimp only
  rw [← settleEntry_onFields, ← fields]
  rfl

/-- The packet passes home where no ACTIVE alert covers the service. -/
theorem passRewrite_uncovered {c : Component} (component : d.comps[x.comp]? = some c) (same : w.splice = s.splice) :
    (w.onFields x.service SpliceFields.uncovered).passRewrite d x =
      let given := (s.splice.services[x.service].outputCC.getD x.comp {}).give false x.cc x.payload
      let mark := x.clockReference && x.comp == d.clock
      (w.onFields x.service fun f =>
        { f.uncovered with outputCC := f.outputCC.set x.comp given.2, markPending := !mark }, .pass (some ⟨c.output, given.1, mark⟩)) := by
  have service : (w.onFields x.service SpliceFields.uncovered).splice.services[x.service] = s.splice.services[x.service].uncovered := by
    rw [onFields_at, same]
  rw [passRewrite_eq, outputPid_of_component component]
  unfold State.marks
  rw [service]
  dsimp only
  rw [onFields_onFields]
  rfl

end Sys2Proof.Machine
end

section
/-! SUPPORT. The alert that resumes at the return packet of another (06, R124, R125, R132), and the statement about the end of an alert. -/

namespace Sys2Proof.Machine

variable {s u w : State} {i a : Fin 4} {j : Fin 64} {d : Service} {x : TakeNotice} {cdef : ContentDef}

/-- The run of an alert that starts from packet 0 (R124). -/
def AlertEntry.startsRun (e : AlertEntry) (a : Fin 4) : AlertRun := ⟨a, e.generation, e.mode, e.content, true, 0, 0, false, none, .unset⟩

/-- The fields of a service on which an alert resumes. -/
def SpliceFields.resumed (f : SpliceFields) (q : AlertRun) (queue : List HeaderEntry) : SpliceFields :=
  { f with run := some q, markPending := true, runQueue := queue }

/-- The service airs an alert that has resumed there. -/
theorem takeService_oweMark (z : AlertRun) (defined : s.content.entries[s.alert.entries[a].content].definition = some cdef) :
    ((s.onFields j fun f => { f with run := some z }).takeService j a).oweMark j =
      ((s.setOverlay j (.airing a s.alert.entries[a].generation)).onFields j fun f =>
        f.resumed (s.alert.entries[a].startsRun a) (headerEntries s.splice.nextHeader (min 16 cdef.packets))).headersRequested
          (min 16 cdef.packets) (headerReads j s.splice.nextHeader cdef (min 16 cdef.packets)) := by
  rw [takeService_airs (s := s.onFields j fun f => { f with run := some z }) defined]
  unfold State.airs State.oweMark State.headersRequested State.setOverlay State.onFields State.onSplice State.onPath State.onAlert
  simp only [modifyAt_modifyAt]
  rfl

theorem settleEntry_active (active : s.alert.entries[i].state = .active) : s.settleEntry i = s := by
  rw [settleEntry_eq]
  refine if_neg fun ⟨ending, _⟩ => ?_
  rw [active] at ending
  exact nomatch ending

/-- An ACTIVE entry is not touched by the settling of an entry. -/
theorem settleEntry_entry (active : s.alert.entries[a].state = .active) (i : Fin 4) :
    (s.settleEntry i).alert.entries[a] = s.alert.entries[a] := by
  by_cases own : a = i
  · subst own
    rw [settleEntry_active active]
  · exact (settleEntry_kept s i).2.2.2 a own

/-- The headers of a run that has just been asked for have not come. -/
theorem headFor_asked {serial n : Nat} (queue : s.splice.services[j].runQueue = headerEntries serial n) :
    s.splice.services[j].headFor 0 = none ∨ s.splice.services[j].headFor 0 = some .loading := by
  cases n with
  | zero =>
    refine .inl ?_
    unfold SpliceFields.headFor
    rw [queue]
    rfl
  | succ n =>
    refine .inr (headFor_cons (e := ⟨0, serial + 0, .loading⟩) (rest := ((List.range n).map Nat.succ).map fun k => ⟨k, serial + k, .loading⟩) ?_)
    rw [queue]
    unfold headerEntries
    rw [List.range_succ_eq_map]
    rfl

/-- A packet under a FULL alert whose headers have just been asked for. -/
theorem airingPacket_asked {q : AlertRun} {serial n : Nat} (run : s.splice.services[x.service].run = some q) (full : q.mode = .full)
    (start : q.cursor = 0) (defined : s.content.entries[q.content].definition = some cdef)
    (queue : s.splice.services[x.service].runQueue = headerEntries serial n) :
    s.airingPacket d x q = ⟨s, .null, [⟨.fetchLate, x.service.val, contentPacketAddress cdef 0⟩]⟩ := by
  have late := headFor_asked (j := x.service) queue
  rw [airingPacket_takes (.inl full), alertTake_steady run defined (by rw [startReady_late late, Bool.and_false])]
  unfold AlertRun.view
  rw [start, takeContent_late defined _ _ _ _ _ late]
  rfl

/-- The state in which an alert has resumed. -/
def State.resumedOn (s : State) (j : Fin 64) (a leaving : Fin 4) (cdef : ContentDef) : State :=
  (((s.setOverlay j (.airing a s.alert.entries[a].generation)).settleEntry leaving).onFields j fun f =>
    f.resumed (s.alert.entries[a].startsRun a) (headerEntries s.splice.nextHeader (min 16 cdef.packets))).headersRequested
      (min 16 cdef.packets) (headerReads j s.splice.nextHeader cdef (min 16 cdef.packets))

theorem resumedOn_content (leaving : Fin 4) : (s.resumedOn j a leaving cdef).content =
    ((s.setOverlay j (.airing a s.alert.entries[a].generation)).settleEntry leaving).content := by
  unfold State.resumedOn State.headersRequested State.onPath State.onFields State.onSplice
  dsimp only

theorem resumedOn_alert (leaving : Fin 4) : (s.resumedOn j a leaving cdef).alert =
    ((s.setOverlay j (.airing a s.alert.entries[a].generation)).settleEntry leaving).alert := by
  unfold State.resumedOn State.headersRequested State.onPath State.onFields State.onSplice
  dsimp only

theorem resumedOn_service (leaving : Fin 4) : (s.resumedOn j a leaving cdef).splice.services[j] =
    s.splice.services[j].resumed (s.alert.entries[a].startsRun a) (headerEntries s.splice.nextHeader (min 16 cdef.packets)) := by
  have kept : ((s.setOverlay j (.airing a s.alert.entries[a].generation)).settleEntry leaving).splice = s.splice := (settleEntry_kept ..).1
  refine (onFields_at _ j _).trans ?_
  rw [kept]

theorem alertReturn_strongest (strongest : s.strongest x.service = some a) (leaving : Fin 4) : s.alertReturn d x leaving =
    let w := ((s.takeService x.service a).oweMark x.service).settleEntry leaving
    w.airingPacket d x (w.alert.entries[a].newRun a) := by
  unfold State.alertReturn
  rw [strongest]
  rfl

theorem alertReturn_some (z : AlertRun) (alone : ∀ a', s.Covers x.service a' ↔ a' = a) (full : s.alert.entries[a].mode = .full)
    (defined : s.content.entries[s.alert.entries[a].content].definition = some cdef) (leaving : Fin 4) :
    (s.onFields x.service fun f => { f with run := some z }).alertReturn d x leaving =
      ⟨s.resumedOn x.service a leaving cdef, .null, [⟨.fetchLate, x.service.val, contentPacketAddress cdef 0⟩]⟩ := by
  have strongest : (s.onFields x.service fun f => { f with run := some z }).strongest x.service = some a :=
    strongest_one (s := s.onFields _ _) alone
  have active : s.alert.entries[a].state = .active := ((alone a).mpr rfl).1
  have taken : (((s.onFields x.service fun f => { f with run := some z }).takeService x.service a).oweMark x.service).settleEntry leaving =
      s.resumedOn x.service a leaving cdef := by
    rw [takeService_oweMark z defined, settleEntry_headersRequested, settleEntry_onFields]
    rfl
  have entry : (s.resumedOn x.service a leaving cdef).alert.entries[a] = s.alert.entries[a] := by
    rw [resumedOn_alert]
    exact settleEntry_entry (s := s.setOverlay x.service (.airing a s.alert.entries[a].generation)) active leaving
  have defined' : (s.resumedOn x.service a leaving cdef).content.entries[s.alert.entries[a].content].definition = some cdef := by
    rw [resumedOn_content]
    exact ((settleEntry_kept (s.setOverlay x.service (.airing a s.alert.entries[a].generation)) leaving).2.2.1 _).trans defined
  have decided := airingPacket_asked (s := s.resumedOn x.service a leaving cdef) (d := d) (q := s.alert.entries[a].startsRun a)
    (by rw [resumedOn_service]; rfl) full rfl defined' (by rw [resumedOn_service]; rfl)
  rw [alertReturn_strongest strongest, taken]
  dsimp only
  rw [entry]
  exact decided

/-! ## The decision at the return packet -/

section Return

variable {g : Generation} {q : AlertRun} (overlay : s.alert.overlays[x.service] = .returning i g)
  (run : s.splice.services[x.service].run = some q) (returning : q.returning = true) (entry : q.entry = i)
  (untested : s.splice.services[x.service].test = none) (returns : s.runReturns d x q)

include overlay run returning entry untested returns

/-- A return packet is decided by the alert that then covers the service, if one does. -/
theorem decidePacket_returns {out : Decided} (decided : ∀ z, (s.onFields x.service fun f => { f with run := some z }).alertReturn d x i = out)
    (after : out.state.splice.services[x.service].test = none) : s.decidePacket d x = out.raised := by
  have covered : s.alert.overlays[x.service] ≠ .none := by
    rw [overlay]
    exact fun same => nomatch same
  obtain ⟨z, made⟩ := overlayDecision_returns run returning returns
  rw [entry, decided z] at made
  rw [decidePacket_covered covered, overlayPacket_untested untested, made, testPacket_of_untested after]

/-- No ACTIVE alert covers the service: the packet passes home (R132). -/
theorem decidePacket_uncovered (uncovered : ∀ a, ¬ s.Covers x.service a) {c : Component} (component : d.comps[x.comp]? = some c) :
    s.decidePacket d x =
      let given := (s.splice.services[x.service].outputCC.getD x.comp {}).give false x.cc x.payload
      let mark := x.clockReference && x.comp == d.clock
      (((s.setOverlay x.service .none).settleEntry i).onFields x.service fun f =>
        { f.uncovered with outputCC := f.outputCC.set x.comp given.2, markPending := !mark }, .pass (some ⟨c.output, given.1, mark⟩)) := by
  have kept : ((s.setOverlay x.service .none).settleEntry i).splice = s.splice := (settleEntry_kept ..).1
  have passes := passRewrite_uncovered component kept
  rw [decidePacket_returns overlay run returning entry untested returns fun z => alertReturn_none z uncovered i]
  · unfold Decided.raised
    dsimp only
    rw [passes]
    rfl
  · dsimp only
    rw [passes]
    dsimp only
    rw [onFields_at, kept]
    exact untested

/-- One ACTIVE alert covers the service: it resumes (R132). -/
theorem decidePacket_resumes (alone : ∀ a', s.Covers x.service a' ↔ a' = a) (full : s.alert.entries[a].mode = .full)
    (defined : s.content.entries[s.alert.entries[a].content].definition = some cdef) : s.decidePacket d x =
      ((s.resumedOn x.service a i cdef).raise .fetchLate x.service.val (contentPacketAddress cdef 0) none, .null) := by
  rw [decidePacket_returns overlay run returning entry untested returns fun z => alertReturn_some z alone full defined i]
  · rfl
  · rw [resumedOn_service]
    exact untested

end Return

/-! ## ALERT_END (R129) -/

theorem alertEnd_ends {ref : CueRef} {alertId : BitVec 16} (out : s.resetHeld = false) (started : s.fault.part ≠ .starting)
    (e : s.handleAlertEnd ref alertId = u) : ∃ t, exec (.alertEnd ref alertId) s = .next t ∧ u.EndsAs t :=
  takenCue_ends (f := fun s => s.handleAlertEnd ref alertId) out started e

theorem activeWith_one {alertId : BitVec 16} (active : s.alert.entries[i].state = .active) (named : s.alert.entries[i].alertId = alertId)
    (alone : ∀ j : Fin 4, s.alert.entries[j].state = .active → s.alert.entries[j].alertId = alertId → j = i) :
    s.activeWith alertId = [i] := by
  have is (j : Fin 4) : (s.alert.entries[j].state == .active && s.alert.entries[j].alertId == alertId) = decide (j = i) := by
    rw [Bool.eq_iff_iff, Bool.and_eq_true, beq_iff_eq, beq_iff_eq, decide_eq_true_iff]
    exact ⟨fun ⟨a, b⟩ => alone j a b, fun same => same ▸ ⟨active, named⟩⟩
  unfold State.activeWith
  rw [funext is]
  exact (List.filter_eq ..).trans (by rw [List.count_eq_one_of_mem (List.nodup_finRange 4) (List.mem_finRange i)]; exact List.replicate_one)

theorem activeWith_nil {alertId : BitVec 16} (unknown : ∀ j : Fin 4, ¬ (s.alert.entries[j].state = .active ∧ s.alert.entries[j].alertId = alertId)) :
    s.activeWith alertId = [] := by
  refine List.filter_eq_nil_iff.mpr fun j _ both => unknown j ?_
  rw [Bool.and_eq_true, beq_iff_eq, beq_iff_eq] at both
  exact both

theorem handleAlertEnd_eq {ref : CueRef} {alertId : BitVec 16} (operating : s.fault.part = .operating) : s.handleAlertEnd ref alertId =
    match s.activeWith alertId with
    | [] => s.told [cueAnswer ref 7 none none .notFound none]
    | i :: rest => ((i :: rest).foldl (fun s i => s.endAlert i .ended) s).told [cueAnswer ref 7 none none .done none] := by
  simp only [State.handleAlertEnd, not_bypassed operating]
  cases s.activeWith alertId <;> rfl

/-- An ACTIVE alert ends by its duration expiry, or as the one with the id of an ALERT_END. -/
theorem endAlert_ends {ended : AlertEnd → State} (out : s.resetHeld = false) (is : ∀ why, s.endAlert i why = ended why) :
    (∀ x, s.alert.entries[i].durationExpiry = some x → (s.clock - x).toNat < 2 ^ 47 →
      ∃ t, exec (.alertDurationExpiry i) s = .next t ∧ (ended .expired).EndsAs t) ∧
    (∀ ref, s.fault.part = .operating → s.alert.entries[i].state = .active →
      (∀ j : Fin 4, s.alert.entries[j].state = .active → s.alert.entries[j].alertId = s.alert.entries[i].alertId → j = i) →
      ∃ t, exec (.alertEnd ref s.alert.entries[i].alertId) s = .next t ∧
        ((ended .ended).told [cueAnswer ref 7 none none .done none]).EndsAs t) := by
  refine ⟨fun x armed passed => ?_, fun ref operating active alone => ?_⟩
  · exact occurs_ends (f := fun s => s.endAlert i .expired) out (due_of_armed armed passed) (is .expired)
  · refine alertEnd_ends out (not_starting operating) ?_
    rw [handleAlertEnd_eq operating, activeWith_one active rfl alone, ← is]
    dsimp only [List.foldl]

/-- The alert ends on the services it airs on, field by field. -/
theorem endAlert_fields {m : Overlay → Overlay} {f : SpliceEngine → Fin 64 → SpliceFields} {air : Fin 64} {g : Generation}
    (airing : s.alert.overlays[air] = .airing i g) (why : AlertEnd) (overlays : ∀ o, m o = o.ended i)
    (services : ∀ u (j : Fin 64), f u j = u.services[j].ended s.alert.overlays[j] i (.armed (after s.clock s.closeTicks))) :
    s.endAlert i why = ((s.onEntry i fun e => { e with state := .ending, endReason := some why, durationExpiry := none }).onAlert fun u =>
      { u with overlays := u.overlays.map m }).onSplice fun u => { u with services := Vector.ofFn (f u) } := by
  have made : f = fun u j => u.services[j].ended s.alert.overlays[j] i (.armed (after s.clock s.closeTicks)) :=
    funext fun u => funext (services u)
  rw [endAlert_airing airing, made, funext overlays]
  unfold State.airsEnded State.onEntry State.onAlert State.onSplice AlertEntry.endedBy State.closeTicks
  dsimp only

end Sys2Proof.Machine

namespace Sys2Proof.Proofs

open Sys2Proof.Machine

/-- Settles O40: the end by expiry and by ALERT_END, by whether an overlay names the alert; and the return packet. -/
theorem alertEnds : Obligations.AlertEnds := by
  refine ⟨fun s i out => ?ends, fun s ref alertId out operating unknown => ?unknown, fun s d x i g q c => ?returns⟩
  case ends =>
    intro e ends
    have all (ended : AlertEnd → State) (is : ∀ why, s.endAlert i why = ended why) : ends ended := endAlert_ends out is
    clear_value ends
    refine ⟨fun air g airing => all _ fun why => endAlert_fields airing why (fun o => ?_) fun u j => ?_, fun unnamed =>
      all _ (endAlert_unnamed unnamed)⟩
    · cases o <;> rfl
    · unfold SpliceFields.ended
      cases s.alert.overlays[j] <;> rfl
  case unknown =>
    refine alertEnd_ends out (not_starting operating) ?_
    rw [handleAlertEnd_eq operating, activeWith_nil unknown]
  case returns =>
    intro j f now overlay run returning entry untested returns covers named settled under
    have settles (o : Overlay) (unnamed : s.alert.entries[i].state = .ending → o.names i = false) :
        (s.setOverlay j o).settleEntry i = settled (under o) :=
      settleEntry_eq.trans (if_congr (settles_iff (s := s) (u := s.setOverlay j o) (fun k => set_fin ..) unnamed) rfl rfl)
    refine ⟨fun uncovered component => ?_, fun a cdef alone full defined => ?_⟩
    · rw [decidePacket_uncovered overlay run returning entry untested returns uncovered component, settles .none fun _ => rfl]
      rfl
    · have other : s.alert.entries[i].state = .ending → (Overlay.airing a s.alert.entries[a].generation).names i = false := fun ending => by
        refine beq_eq_false_iff_ne.mpr fun same => ?_
        have active := ((alone a).mpr rfl).1
        rw [same, ending] at active
        exact nomatch active
      rw [decidePacket_resumes overlay run returning entry untested returns alone full defined]
      have starts : s.alert.entries[a].startsRun a =
          ⟨a, s.alert.entries[a].generation, .full, s.alert.entries[a].content, true, 0, 0, false, none, .unset⟩ := by
        unfold AlertEntry.startsRun
        rw [full]
      unfold State.resumedOn
      rw [settles _ other, starts]
      rfl

end Sys2Proof.Proofs
end

section
/-! SUPPORT. An alert that starts takes services (06, R113, R120 to R124): each service as it is offered, and all in turn. -/

namespace Sys2Proof.Machine

variable {s u w : State} {i y : Fin 4} {v : Fin 64} {r : Fin 68} {c : Fin 128} {d : ContentDef}

/-! ## The preempt request of a service (R113) -/

/-- The fields of a service that an alert has preempted. -/
def SpliceFields.preempted (f : SpliceFields) (rest : SpliceState) : SpliceFields :=
  { f with alertHold := true, current := none, runQueue := [], roleMap := [], state := rest }

/-- The insertion that an alert cuts short. -/
def State.preemptedRecord (s : State) (r : Fin 68) : InsertionRecord :=
  { s.splice.records[r] with
    state := .closing, endReason := some .preempted, endTime := s.clock, tReturn := none, deadline := none, bound := .unset
    closeExpiry := some (s.clock + BitVec.ofNat 48 (s.limits.close * 27000)) }

theorem cutShort_preempted (own : s.splice.records[r].service = v) :
    State.producing (s.cutShort r .preempted) = (s.leftOff r (s.preemptedRecord r)).onFields v SpliceFields.left := by
  have record : (s.onRecord r fun y => { y with endReason := some .preempted }).splice.records[r] =
      { s.splice.records[r] with endReason := some .preempted } := onRecord_at s r _
  unfold State.cutShort
  rw [leaveActive_leftOff (s := s.onRecord r _) (i := v) (c := s.preemptedRecord r) none (by rw [record]; exact own) (by rw [record]; rfl), leftOff_onRecord]

theorem preempted_none (current : s.splice.services[v].current = none) : s.preempted v = s.onFields v fun f =>
    { f with alertHold := true, state := if s.splice.services[v].test.isSome then .armed else .idle } := by
  unfold State.preempted
  rw [current]

theorem preempted_some (current : s.splice.services[v].current = some r) : s.preempted v =
    (s.leftOff r (s.preemptedRecord r)).onFields v fun f => f.preempted (if s.splice.services[v].test.isSome then .armed else .idle) := by
  rw [← leftOff_onFields]
  unfold State.preempted
  rw [current]
  unfold State.leftOff InsertionRecord.leftAs
  dsimp only
  by_cases settled : s.splice.records[r].outstanding = 0
  · have none_ : (s.preemptedRecord r).outstanding = 0 := settled
    rw [if_pos settled, if_pos none_, if_pos none_]
    rfl
  · have some_ : (s.preemptedRecord r).outstanding ≠ 0 := settled
    rw [if_neg settled, if_neg some_, if_neg some_]
    rfl

theorem preempt_none (current : s.splice.services[v].current = none) : s.preempt v = s.preempted v := by
  have held : (s.onFields v fun f => { f with alertHold := true }).splice.services[v].current = none := by
    rw [onFields_at]
    exact current
  rw [preempted_none current]
  unfold State.preempt
  dsimp only
  rw [held]
  dsimp only
  rw [onFields_onFields]
  rfl

theorem preempt_some (current : s.splice.services[v].current = some r) (own : s.splice.records[r].service = v) :
    s.preempt v = s.preempted v := by
  have held : (s.onFields v fun f => { f with alertHold := true }).splice.services[v].current = some r := by
    rw [onFields_at]
    exact current
  have kept : (s.leftOff r (s.preemptedRecord r)).splice.services = s.splice.services := by
    obtain ⟨n, rest⟩ := leftOff_rest s r (s.preemptedRecord r)
    rw [rest]
  have same : (s.onFields v fun f => { f with alertHold := true }).preemptedRecord r = s.preemptedRecord r := rfl
  rw [preempted_some current]
  unfold State.preempt
  dsimp only
  rw [held]
  dsimp only
  rw [cutShort_preempted (s := s.onFields v _) own, same, leftOff_onFields, onFields_onFields, onFields_onFields]
  refine onFields_congr ?_
  rw [kept]
  rfl

/-- A service's current record is its own. -/
def State.Owned (s : State) : Prop := ∀ (v : Fin 64) (r : Fin 68), s.splice.services[v].current = some r → s.splice.records[r].service = v

theorem preempt_eq (owned : s.Owned) : s.preempt v = s.preempted v := by
  cases current : s.splice.services[v].current with
  | none => exact preempt_none current
  | some r => exact preempt_some current (owned v r current)

/-! ## A service is offered (R121) -/

/-- What the offers of an alert rest on: `i` is the entry accepted last, and its content is defined. -/
structure State.Offers (s : State) (i : Fin 4) (c : Fin 128) (d : ContentDef) : Prop where
  owned : s.Owned
  content : s.alert.entries[i].content = c
  newest : s.alert.startOrder = s.alert.entries[i].startOrder + 1
  defined : s.content.entries[c].definition = some d

theorem takeService_offers (content : s.alert.entries[i].content = c) (defined : s.content.entries[c].definition = some d) :
    s.takeService v i = s.airs v i d := by
  subst content
  exact takeService_airs defined

theorem displace_eq (offers : s.Offers i c d) : s.displace v i y = s.displacing v i y d := by
  have content : (s.onEntry y fun e => { e with preemptedBy := e.preemptedBy.set v (some s.alert.entries[i].alertId) }).alert.entries[i].content = c := by
    refine Eq.trans (congrArg AlertEntry.content (modifyAt_fin ..)) ?_
    split
    · exact offers.content
    · exact offers.content
  unfold State.displace State.displacing
  dsimp only
  rw [takeService_offers (s := s.onEntry y _) content offers.defined]
  exact settleEntry_eq

/-- The entry accepted last is the newest. -/
theorem stronger_newest (newest : s.alert.startOrder = s.alert.entries[i].startOrder + 1) : s.stronger i y = true ↔
    s.alert.entries[y].priority < s.alert.entries[i].priority ∨
      (s.alert.entries[y].priority = s.alert.entries[i].priority ∧ s.alert.entries[y].startOrder ≠ s.alert.entries[i].startOrder) := by
  have age : s.entryAge i = 0 := by
    unfold State.entryAge
    rw [newest]
    bv_omega
  have older : 0 < s.entryAge y ↔ s.alert.entries[y].startOrder ≠ s.alert.entries[i].startOrder := by
    unfold State.entryAge
    rw [newest]
    generalize s.alert.entries[y].startOrder = a
    generalize s.alert.entries[i].startOrder = b
    bv_omega
  unfold State.stronger
  rw [age]
  simp only [Bool.or_eq_true, decide_eq_true_eq, Bool.and_eq_true, beq_iff_eq, older]
  exact or_congr_right (and_congr_left fun _ => eq_comm)

theorem outranked_iff : s.outranked v i = true ↔ ∃ j : Fin 4, s.alert.entries[j].state = .active ∧
    s.alert.entries[j].captured.getLsbD v.val = true ∧ s.alert.entries[i].priority < s.alert.entries[j].priority := by
  unfold State.outranked
  rw [List.any_eq_true]
  refine ⟨fun ⟨j, _, both⟩ => ?_, fun ⟨j, active, captured, weaker⟩ => ⟨j, List.mem_finRange j, ?_⟩⟩
  · obtain ⟨covers, weaker⟩ := Bool.and_eq_true_iff.mp both
    obtain ⟨active, captured⟩ := covers_iff.mp covers
    exact ⟨j, active, captured, of_decide_eq_true weaker⟩
  · exact Bool.and_eq_true_iff.mpr ⟨covers_iff.mpr ⟨active, captured⟩, decide_eq_true weaker⟩

theorem State.Offers.of (h : s.Offers i c d)
    (current : ∀ (v : Fin 64) (r : Fin 68), u.splice.services[v].current = some r → s.splice.services[v].current = some r)
    (service : ∀ r : Fin 68, u.splice.records[r].service = s.splice.records[r].service)
    (content : u.alert.entries[i].content = s.alert.entries[i].content) (order : u.alert.entries[i].startOrder = s.alert.entries[i].startOrder)
    (next : u.alert.startOrder = s.alert.startOrder) (defined : u.content.entries[c].definition = s.content.entries[c].definition) :
    u.Offers i c d :=
  ⟨fun v r now => (service r).trans (h.owned v r (current v r now)), content.trans h.content,
    next.trans (h.newest.trans (congrArg (· + 1) order.symm)), defined.trans h.defined⟩

/-- An update of a service's fields that keeps its current record, or clears it. -/
theorem onFields_current {f : SpliceFields → SpliceFields} (less : ∀ g r, (f g).current = some r → g.current = some r) (v' : Fin 64) (r : Fin 68)
    (now : (s.onFields v f).splice.services[v'].current = some r) : s.splice.services[v'].current = some r := by
  rw [State.onFields_splice_services, modifyAt_fin] at now
  split at now
  · exact less _ r now
  · exact now

theorem leftOff_offers (h : s.Offers i c d) {z : InsertionRecord} (service : z.service = s.splice.records[r].service) :
    (s.leftOff r z).Offers i c d := by
  obtain ⟨n, rest⟩ := leftOff_rest s r z
  rw [rest]
  refine h.of (fun _ _ now => now) (fun q => ?_) rfl rfl rfl ?_
  · have left : z.leftAs.service = z.service := by
      unfold InsertionRecord.leftAs
      split <;> rfl
    refine (congrArg InsertionRecord.service (modifyAt_fin ..)).trans ?_
    split
    · next own => exact own ▸ left.trans service
    · rfl
  · refine (congrArg ContentEntry.definition (modifyAt_fin ..)).trans ?_
    split <;> rfl

theorem preempted_offers (h : s.Offers i c d) (v : Fin 64) : (s.preempted v).Offers i c d := by
  cases current : s.splice.services[v].current with
  | none =>
    rw [preempted_none current]
    exact h.of (onFields_current fun _ _ now => now) (fun _ => rfl) rfl rfl rfl rfl
  | some r =>
    rw [preempted_some current]
    have off : (s.leftOff r (s.preemptedRecord r)).Offers i c d := leftOff_offers h rfl
    generalize s.leftOff r (s.preemptedRecord r) = w at off ⊢
    have dropped (g : SpliceFields) (rest : SpliceState) (q : Fin 68) (now : (g.preempted rest).current = some q) : g.current = some q := nomatch now
    exact off.of (onFields_current fun g q => dropped g _ q) (fun _ => rfl) rfl rfl rfl rfl

theorem airs_offers (h : s.Offers i c d) (v : Fin 64) : (s.airs v i d).Offers i c d := by
  have aired : (s.onAlert fun u => { u with overlays := u.overlays.set v (.airing i s.alert.entries[i].generation) }).Offers i c d :=
    h.of (fun _ _ now => now) (fun _ => rfl) rfl rfl rfl rfl
  exact aired.of (onFields_current (s := s.onAlert _) (f := fun f =>
      { f with
        run := some ⟨i, s.alert.entries[i].generation, s.alert.entries[i].mode, s.alert.entries[i].content, true, 0, 0, false, none, .unset⟩
        runQueue := headerEntries s.splice.nextHeader (min 16 d.packets) }) fun _ _ now => now) (fun _ => rfl) rfl rfl rfl rfl

theorem onEntry_offers (h : s.Offers i c d) {f : AlertEntry → AlertEntry} (content : (f s.alert.entries[y]).content = s.alert.entries[y].content)
    (order : (f s.alert.entries[y]).startOrder = s.alert.entries[y].startOrder) : (s.onEntry y f).Offers i c d := by
  have at_ : (s.onEntry y f).alert.entries[i] = if y = i then f s.alert.entries[i] else s.alert.entries[i] := modifyAt_fin ..
  refine h.of (fun _ _ now => now) (fun _ => rfl) ?_ ?_ rfl rfl
  · rw [at_]
    split
    · next own => exact own ▸ content
    · rfl
  · rw [at_]
    split
    · next own => exact own ▸ order
    · rfl

theorem settleEntry_offers (h : s.Offers i c d) : (s.settleEntry y).Offers i c d := by
  rw [settleEntry_eq]
  unfold State.alertLeft
  dsimp only
  split
  · split
    · have closed := onEntry_offers (y := y) h (f := fun _ =>
        { s.closingEntry s.alert.entries[y] with
          unconfirmed := 0, state := .free, generation := s.alert.entries[y].generation + 1, closeExpiry := none }) rfl rfl
      refine closed.of (fun _ _ now => now) (fun _ => rfl) rfl rfl rfl ?_
      refine (congrArg ContentEntry.definition (modifyAt_fin ..)).trans ?_
      split <;> rfl
    · exact onEntry_offers (y := y) h (f := fun _ => s.closingEntry s.alert.entries[y]) rfl rfl
  · exact h

theorem displacing_eq (s : State) (v : Fin 64) (i y : Fin 4) (d : ContentDef) : s.displacing v i y d =
    (((s.onEntry y fun e => { e with preemptedBy := e.preemptedBy.set v (some s.alert.entries[i].alertId) }).airs v i d).settleEntry y) :=
  settleEntry_eq.symm

theorem displacing_offers (h : s.Offers i c d) (v : Fin 64) (y : Fin 4) : (s.displacing v i y d).Offers i c d := by
  rw [displacing_eq]
  exact settleEntry_offers (airs_offers (onEntry_offers h rfl rfl) v)

theorem offered_offers (h : s.Offers i c d) (v : Fin 64) : (s.offered v i d).1.Offers i c d := by
  unfold State.offered
  dsimp only
  cases s.alert.overlays[v] with
  | none => exact airs_offers (preempted_offers h v) v
  | airing y g =>
    dsimp only
    split
    · exact displacing_offers h v y
    · exact h
  | returning y g =>
    dsimp only
    split
    · exact h
    · exact displacing_offers h v y

theorem offer_eq (offers : s.Offers i c d) : s.offer v i = s.offered v i d := by
  unfold State.offer State.offered
  dsimp only
  cases s.alert.overlays[v] with
  | none =>
    have moved := preempted_offers offers v
    dsimp only
    rw [preempt_eq offers.owned, takeService_offers moved.content moved.defined]
  | airing y g =>
    dsimp only
    rw [displace_eq offers]
    exact if_congr (stronger_newest offers.newest) rfl rfl
  | returning y g =>
    dsimp only
    rw [displace_eq offers]
    exact if_congr outranked_iff rfl rfl

/-! ## The captured services in turn (R120) -/

/-- The offers over a list of services, one after another. -/
theorem offers_fold (set : ServiceSet) (l : List (Fin 64)) (h : s.Offers i c d) (taken : ServiceSet) :
    l.foldl (fun p v => if set.getLsbD v.val then ((p.1.offer v i).1, if (p.1.offer v i).2 then p.2 ||| BitVec.twoPow 64 v.val else p.2) else p)
      (s, taken) =
    l.foldl (fun p v => if set.getLsbD v.val = true then
      ((p.1.offered v i d).1, if (p.1.offered v i d).2 = true then p.2 ||| BitVec.twoPow 64 v.val else p.2) else p) (s, taken) := by
  induction l generalizing s taken with
  | nil => rfl
  | cons v l ih =>
    rw [List.foldl_cons, List.foldl_cons, offer_eq h]
    split
    · exact ih (offered_offers h v) _
    · exact ih h _

theorem offerAll_eq (set : ServiceSet) (h : s.Offers i c d) : s.offerAll i set = s.offeredAll i set d := offers_fold set _ h 0

end Sys2Proof.Machine
end

section
/-! SUPPORT. ALERT_START (06, R119, R120, R122): its refusals in their order, its entry, and the services it captures. -/

namespace Sys2Proof.Machine

variable {s u w : State} {i : Fin 4} {v : Fin 64} {c : Fin 128} {d : ContentDef} {ref : CueRef} {q : AlertRequest}

/-! ## The checks of the Alert Unit (R119) -/

theorem lowest_free_alert_none (full : ∀ e : Fin 4, s.alert.entries[e].state ≠ .free) : lowest s.alert.entries (·.state == .free) = none :=
  lowest_none fun e => beq_eq_false_iff_ne.mpr (full e)

theorem lowest_free_alert (some_ : ¬ ∀ e : Fin 4, s.alert.entries[e].state ≠ .free) : ∃ i, lowest s.alert.entries (·.state == .free) = some i := by
  refine Option.ne_none_iff_exists'.mp fun absent => some_ fun e => ?_
  exact beq_eq_false_iff_ne.mp (Bool.eq_false_iff.mpr (List.find?_eq_none.mp absent e (List.mem_finRange e)))

theorem requestAlert_full (full : ∀ e : Fin 4, s.alert.entries[e].state ≠ .free) : s.requestAlert ref q = (s, some .tableFull) := by
  unfold State.requestAlert
  rw [lowest_free_alert_none full]

section Free

variable (free : ∃ i, lowest s.alert.entries (·.state == .free) = some i)

include free

theorem requestAlert_unsuited (unsuited : s.suits q = false) : s.requestAlert ref q = (s, some .content) := by
  obtain ⟨i, is⟩ := free
  unfold State.requestAlert
  rw [is, unsuited]
  rfl

theorem requestAlert_reportFull (suited : s.suits q = true) (full : 72 ≤ s.report.reservation) :
    s.requestAlert ref q = (s, some .reportFull) := by
  obtain ⟨i, is⟩ := free
  have room : s.alertRoom = false := decide_eq_false (Nat.not_lt.mpr full)
  unfold State.requestAlert
  rw [is, suited, room]
  rfl

theorem requestAlert_unready (suited : s.suits q = true) (some_ : s.report.reservation < 72)
    (unready : s.content.entries[q.content].state ≠ .ready) : s.requestAlert ref q = (s, some .content) := by
  obtain ⟨i, is⟩ := free
  have room : s.alertRoom = true := decide_eq_true some_
  have state : (s.contentState q.content != .ready) = true := bne_iff_ne.mpr unready
  unfold State.requestAlert
  rw [is, suited, room, state]
  rfl

end Free

/-- The state once the entry has been accepted (R120, steps 1 to 3). -/
def State.alertAccepted (s : State) (i : Fin 4) (c : Fin 128) (e : AlertEntry) : State :=
  (((s.onReport fun u => { u with reservation := u.reservation + 1 }).onContentEntry c fun x => { x with useCount := x.useCount + 1 }).onEntry i fun _ =>
    e).onAlert fun u => { u with startOrder := u.startOrder + 1 }

theorem accepted_eq (s : State) (i : Fin 4) (ref : CueRef) (q : AlertRequest) :
    (((s.reserve.hold q.content).onEntry i fun old => startEntry (s.reserve.hold q.content) old ref q).onAlert fun u =>
      { u with startOrder := u.startOrder + 1 }) = s.alertAccepted i q.content (startEntry s s.alert.entries[i] ref q) := by
  have entry : ((s.reserve.hold q.content).onEntry i fun old => startEntry (s.reserve.hold q.content) old ref q) =
      (s.reserve.hold q.content).onEntry i fun _ => startEntry s s.alert.entries[i] ref q := onEntry_congr rfl
  rw [entry]
  rfl

theorem startAlert_eq (s : State) (i : Fin 4) (ref : CueRef) (q : AlertRequest) : (s.reserve.hold q.content).startAlert i ref q =
    let all := (s.alertAccepted i q.content (startEntry s s.alert.entries[i] ref q)).offerAll i (s.captured q.groups)
    all.1.told [.alertStarted ⟨i, all.1.alert.entries[i], all.2⟩] := by
  have set : (s.reserve.hold q.content).captured q.groups = s.captured q.groups := rfl
  unfold State.startAlert
  dsimp only
  rw [accepted_eq, set]
  rfl

theorem requestAlert_accepts (free : s.alert.entries[i].state = .free) (first : ∀ j : Fin 4, j < i → s.alert.entries[j].state ≠ .free)
    (suited : s.suits q = true) (some_ : s.report.reservation < 72) (ready : s.content.entries[q.content].state = .ready) :
    s.requestAlert ref q =
      let all := (s.alertAccepted i q.content (startEntry s s.alert.entries[i] ref q)).offerAll i (s.captured q.groups)
      (all.1.told [.alertStarted ⟨i, all.1.alert.entries[i], all.2⟩], none) := by
  have lowest : lowest s.alert.entries (·.state == .free) = some i :=
    lowest_some (beq_iff_eq.mpr free) fun j lower => beq_eq_false_iff_ne.mpr (first j lower)
  have room : s.alertRoom = true := decide_eq_true some_
  have state : (s.contentState q.content != .ready) = false := bne_eq_false_iff_eq.mpr ready
  unfold State.requestAlert
  rw [lowest, suited, room, state]
  exact congrArg (·, none) (startAlert_eq ..)

theorem handleAlertStart_eq {b : AlertBody} (operating : s.fault.part = .operating) (checked : checkAlert b = some q)
    (present : s.content.entries[q.content].state ≠ .free) : s.handleAlertStart ref b =
      match s.requestAlert ref q with
      | (s, some refusal) => s.told [cueAnswer ref 6 none none refusal none]
      | (s, none) => s := by
  have taken : s.contentFree q.content = false := Bool.eq_false_iff.mpr fun free => present (contentFree_iff.mp free)
  simp only [State.handleAlertStart, not_bypassed operating, checked, taken]
  rfl

/-! ## The services that an accepted alert is offered -/

theorem alertAccepted_defined {e : AlertEntry} (defined : s.content.entries[c].definition = some d) :
    (s.alertAccepted i c e).content.entries[c].definition = some d := by
  refine (congrArg ContentEntry.definition (modifyAt_fin ..)).trans ?_
  rw [if_pos rfl]
  exact defined

theorem alertAccepted_offers {e : AlertEntry} (owned : s.Owned) (content : e.content = c) (order : e.startOrder = s.alert.startOrder)
    (defined : s.content.entries[c].definition = some d) : (s.alertAccepted i c e).Offers i c d := by
  have entry : (s.alertAccepted i c e).alert.entries[i] = e := (modifyAt_fin ..).trans (if_pos rfl)
  exact ⟨owned, by rw [entry]; exact content, by rw [entry, order]; rfl, alertAccepted_defined defined⟩

theorem offerAll_none (s : State) (i : Fin 4) : s.offerAll i 0 = (s, 0) := by
  unfold State.offerAll
  generalize List.finRange 64 = l
  induction l with
  | nil => rfl
  | cons v l ih =>
    rw [List.foldl_cons, if_neg (by simp)]
    exact ih

/-- One service alone is offered. -/
theorem offerAll_one (s : State) (i : Fin 4) (v : Fin 64) : s.offerAll i (BitVec.twoPow 64 v.val) =
    ((s.offer v i).1, if (s.offer v i).2 then BitVec.twoPow 64 v.val else 0) := by
  have own (k : Fin 64) : (BitVec.twoPow 64 v.val).getLsbD k.val = decide (k = v) := by
    rw [BitVec.getLsbD_twoPow, decide_eq_true v.isLt, Bool.true_and]
    exact decide_eq_decide.mpr ⟨fun e => Fin.ext e.symm, fun e => e ▸ rfl⟩
  have alone : (List.finRange 64).filter (fun k => decide (k = v)) = [v] :=
    (List.filter_eq ..).trans (by rw [List.count_eq_one_of_mem (List.nodup_finRange 64) (List.mem_finRange v)]; exact List.replicate_one)
  have folds := List.foldl_filter (p := fun k : Fin 64 => (BitVec.twoPow 64 v.val).getLsbD k.val)
    (f := fun (p : State × ServiceSet) k => ((p.1.offer k i).1, if (p.1.offer k i).2 then p.2 ||| BitVec.twoPow 64 k.val else p.2))
    (l := List.finRange 64) (init := (s, (0 : ServiceSet)))
  unfold State.offerAll
  refine folds.symm.trans ?_
  rw [funext own, alone]
  simp

/-- The fields of a service at rest that an alert takes. -/
def SpliceFields.takenBy (f : SpliceFields) (run : AlertRun) (queue : List HeaderEntry) : SpliceFields :=
  { f with alertHold := true, run := some run, state := if f.test.isSome then .armed else .idle, runQueue := queue }

/-- A service with no overlay and no insertion is taken. -/
theorem offer_rest {e : AlertEntry} (entry : s.alert.entries[i] = e) (clear : s.alert.overlays[v] = .none)
    (idle : s.splice.services[v].current = none) (defined : s.content.entries[e.content].definition = some d) :
    s.offer v i =
      (((s.onAlert fun u => { u with overlays := u.overlays.set v (.airing i e.generation) }).onFields v fun f =>
        f.takenBy (e.startsRun i) (headerEntries s.splice.nextHeader (min 16 d.packets))).headersRequested (min 16 d.packets)
          (headerReads v s.splice.nextHeader d (min 16 d.packets)), true) := by
  subst entry
  have airs : ((s.onFields v fun f => { f with alertHold := true, state := if s.splice.services[v].test.isSome then .armed else .idle }).airs v i d) =
      ((s.onAlert fun u => { u with overlays := u.overlays.set v (.airing i s.alert.entries[i].generation) }).onFields v fun f =>
        f.takenBy (s.alert.entries[i].startsRun i) (headerEntries s.splice.nextHeader (min 16 d.packets))).headersRequested (min 16 d.packets)
          (headerReads v s.splice.nextHeader d (min 16 d.packets)) := by
    have fields := modifyAt_congr (v := s.splice.services) (j := v)
      (f := (fun f => { f with
          run := some (s.alert.entries[i].startsRun i), runQueue := headerEntries s.splice.nextHeader (min 16 d.packets) }) ∘
        fun f => { f with alertHold := true, state := if s.splice.services[v].test.isSome then .armed else .idle })
      (g := fun f => f.takenBy (s.alert.entries[i].startsRun i) (headerEntries s.splice.nextHeader (min 16 d.packets))) rfl
    unfold State.airs State.headersRequested State.onFields State.onSplice State.onPath State.onAlert
    dsimp only
    rw [modifyAt_modifyAt, ← fields]
    rfl
  unfold State.offer
  rw [clear]
  dsimp only
  rw [preempt_none idle, preempted_none idle, takeService_offers (s := s.onFields v _) rfl defined, airs]

theorem suits_of {comps : ContentDef} (defined : s.content.entries[q.content].definition = some comps) :
    s.suits q = true ↔ q.mode = .full ∨ ∀ x ∈ comps.comps, x.role = .audio := by
  unfold State.suits
  rw [defined]
  cases q.mode with
  | full => exact iff_of_true rfl (.inl rfl)
  | audioOnly => simp

/-- What a well-formed ALERT_START asks for. -/
def askedAlert (b : AlertBody) (c : Fin 128) (priority : b.priority.toNat < 4) : AlertRequest :=
  ⟨b.alertId, b.groups, ⟨b.priority.toNat, priority⟩, if b.mode = 0 then .full else .audioOnly, c, b.duration⟩

section Asked

variable {b : AlertBody} (priority : b.priority.toNat < 4)

theorem checkAlert_asked (groups : b.groups ≠ 0) (content : b.content.toNat = c.val) (mode : b.mode = 0 ∨ b.mode = 1) :
    checkAlert b = some (askedAlert b c priority) := checkAlert_some priority mode groups content

theorem asked_suits (mode : b.mode = 0 ∨ b.mode = 1) (defined : s.content.entries[c].definition = some d) :
    s.suits (askedAlert b c priority) = true ↔ ¬ (b.mode = 1 ∧ ∃ x ∈ d.comps, x.role ≠ .audio) := by
  refine (suits_of (q := askedAlert b c priority) defined).trans ?_
  unfold askedAlert
  rcases mode with e | e <;> simp [e]

/-- Where it is refused, that is all it does. -/
theorem alertStart_refused {o : CueOutcome} (out : s.resetHeld = false) (operating : s.fault.part = .operating)
    (checked : checkAlert b = some q) (present : s.content.entries[q.content].state ≠ .free) (refused : s.requestAlert ref q = (s, some o)) :
    ∃ t, exec (.alertStart ref b) s = .next t ∧ (s.told [cueAnswer ref 6 none none o none]).EndsAs t := by
  refine alertStart_ends out (not_starting operating) ?_
  rw [handleAlertStart_eq operating checked present, refused]

/-- Where it is accepted, its captured services are offered to it. -/
theorem alertStart_accepted (out : s.resetHeld = false) (operating : s.fault.part = .operating) (checked : checkAlert b = some q)
    (free : s.alert.entries[i].state = .free) (first : ∀ j : Fin 4, j < i → s.alert.entries[j].state ≠ .free)
    (suited : s.suits q = true) (room : s.report.reservation < 72) (ready : s.content.entries[q.content].state = .ready)
    {all : State × ServiceSet}
    (offers : (s.alertAccepted i q.content (startEntry s s.alert.entries[i] ref q)).offerAll i (s.captured q.groups) = all)
    {e : AlertEntry} (entry : all.1.alert.entries[i] = e) :
    ∃ t, exec (.alertStart ref b) s = .next t ∧ (all.1.told [.alertStarted ⟨i, e, all.2⟩]).EndsAs t := by
  subst offers entry
  have present : s.content.entries[q.content].state ≠ .free := fun gone => nomatch ready.symm.trans gone
  refine alertStart_ends out (not_starting operating) ?_
  rw [handleAlertStart_eq operating checked present, requestAlert_accepts free first suited room ready]

end Asked

end Sys2Proof.Machine

namespace Sys2Proof.Proofs

open Sys2Proof.Machine

/-- Settles O46: the refusals in their order; the acceptance, and the services it is offered. -/
theorem alertStartHandled : Obligations.AlertStartHandled := by
  refine ⟨fun s ref b c d out operating content priority mode groups present defined => ?refused,
    fun s ref b c d i out operating content priority suited groups ready defined room free first => ?accepted⟩
  case refused =>
    intro told full unsuited
    have checked := checkAlert_asked priority groups content mode
    have suits := asked_suits priority mode defined
    have answered {o : CueOutcome} := alertStart_refused (ref := ref) (o := o) out operating checked present
    refine ⟨fun is => answered (requestAlert_full is), fun some_ bad => answered (requestAlert_unsuited (lowest_free_alert some_) ?_),
      fun some_ good over_ => answered (requestAlert_reportFull (lowest_free_alert some_) (suits.mpr good) over_),
      fun some_ good under unready => answered (requestAlert_unready (lowest_free_alert some_) (suits.mpr good) under unready)⟩
    exact Bool.eq_false_iff.mpr fun good => suits.mp good bad
  case accepted =>
    intro set mode e started all
    have known : b.mode = 0 ∨ b.mode = 1 := suited.imp_right And.left
    have suits : s.suits (askedAlert b c priority) = true := by
      refine (asked_suits priority known defined).mpr ?_
      rintro ⟨one, x, mem, other⟩
      rcases suited with zero | ⟨-, audio⟩
      · rw [zero] at one
        exact absurd one (by decide)
      · exact other (audio x mem)
    have accepted {all : State × ServiceSet} (offers : started.offerAll i set = all) {x : AlertEntry} (entry : all.1.alert.entries[i] = x) :=
      alertStart_accepted (ref := ref) out operating (checkAlert_asked priority groups content known) free first suits room ready offers entry
    have entry : started.alert.entries[i] = e := (modifyAt_fin ..).trans (if_pos rfl)
    refine ⟨fun kept => ?_, fun empty => ?_, fun v alone clear idle => ?_⟩
    · have owned : s.Owned := fun v r current => (kept.current v r current).2
      exact accepted (offerAll_eq set (alertAccepted_offers owned rfl rfl defined)) rfl
    · have none_ : started.offerAll i set = (started, 0) := by rw [empty]; exact offerAll_none started i
      exact accepted none_ entry
    · have one : started.offerAll i set = _ := (congrArg (started.offerAll i) alone).trans (offerAll_one started i v)
      have held : started.content.entries[e.content].definition = some d := alertAccepted_defined defined
      rw [offer_rest entry clear idle held] at one
      rw [alone]
      exact accepted one entry

end Sys2Proof.Proofs
end

section
/-! SUPPORT. What the blocks that watch a forwarded beat leave alone of the processor-side port: the requests held, the burst that is
open, and how many reads are outstanding (08, R151). Operation by operation, in the order of the model. -/

namespace Sys2Proof.Machine

variable {s : State}

/-- What of the Path Unit the port's next acceptance rests on. -/
def PathUnit.port (p : PathUnit) : List PortRequest × Option Nat × Nat := (p.held, p.openBurst, p.reads.length)

@[simp] theorem windows_port (p : PathUnit) (w : Vector WindowEntry 16) : { p with windows := w }.port = p.port := rfl

/-! ## Folds and records -/

theorem foldl_port {α : Type} {f : State → α → State} (keeps : ∀ s a, (f s a).path.port = s.path.port) (l : List α) (s : State) :
    (l.foldl f s).path.port = s.path.port := by
  induction l generalizing s with
  | nil => rfl
  | cons a l ih => exact (ih _).trans (keeps s a)

@[simp] theorem produceAll_port (l : List ReportBody) : (s.produceAll l).path.port = s.path.port :=
  congrArg PathUnit.port (produceAll_path s l)

@[simp] theorem produce_port (b : ReportBody) : (s.produce b).path.port = s.path.port := rfl

@[simp] theorem producing_port (p : State × List ReportBody) : (State.producing p).path.port = p.1.path.port := produceAll_port p.2

theorem allFromMemory_port (p : PathUnit) : p.allFromMemory.port = p.port := by
  have fold (l : List ProcRead) (a : PathUnit × List ProcRead) :
      let b := l.foldl (fun (acc : PathUnit × List ProcRead) r =>
        let (q, r') := acc.1.fromMemory r
        (q, acc.2 ++ [r'])) a
      b.1.port = a.1.port ∧ b.2.length = a.2.length + l.length := by
    induction l generalizing a with
    | nil => exact ⟨rfl, rfl⟩
    | cons r l ih =>
      obtain ⟨port, length⟩ := ih (a.1.fromMemory r |>.1, a.2 ++ [a.1.fromMemory r |>.2])
      refine ⟨port, length.trans ?_⟩
      simp only [List.length_append, List.length_cons, List.length_nil]
      omega
  obtain ⟨port, length⟩ := fold p.reads (p, [])
  obtain ⟨held, open_⟩ := Prod.mk.inj port
  exact congrArg₂ Prod.mk held (congrArg₂ Prod.mk (Prod.mk.inj open_).1 (length.trans (Nat.zero_add _)))

theorem bypassed_port (p : PathUnit) : p.bypassed.port = p.port := allFromMemory_port _

@[simp] theorem enterBypass_port (answer : List ReportBody) : (s.enterBypass answer).path.port = s.path.port := by
  rw [enterBypass_path]
  exact bypassed_port _

@[simp] theorem raise_port (k : ErrorKind) (index address : Nat) (packet : Option (List Byte)) :
    (s.raise k index address packet).path.port = s.path.port :=
  (raise_path s k index address packet).elim (congrArg PathUnit.port) fun same => by rw [same]; exact bypassed_port _

@[simp] theorem mapSources_port (f : ByteSource → ByteSource) : (s.mapSources f).path.port = s.path.port :=
  congrArg (fun n => (s.path.held, s.path.openBurst, n)) (List.length_map _)

/-! ## Holds, fetches and staging buffers -/

@[simp] theorem hold_port (c : Fin 128) : (s.hold c).path.port = s.path.port := rfl

@[simp] theorem releaseHold_port (c : Fin 128) : (s.releaseHold c).path.port = s.path.port := rfl

@[simp] theorem startScan_port : s.startScan.path.port = s.path.port := rfl

@[simp] theorem requestFetch_port (r : MemRead) : (s.requestFetch r).path.port = s.path.port := rfl

@[simp] theorem allocatePrefetch_port (o : Owner) (t : FetchTarget) : (s.allocatePrefetch o t).1.path.port = s.path.port := by
  unfold State.allocatePrefetch
  split <;> simp

@[simp] theorem releasePrefetch_port (b : Fin 256) (o : Owner) : (s.releasePrefetch b o).path.port = s.path.port := rfl

@[simp] theorem setStaging_port (b : Fin 8) (u : Option StagingUse) : (s.setStaging b u).path.port = s.path.port := rfl

@[simp] theorem setWait_port (b : Fin 8) (w : StagingWait) : (s.setWait b w).path.port = s.path.port := by
  unfold State.setWait
  split <;> simp

@[simp] theorem giveDemand_port (d : Fin 4) (b : Fin 8) (t : FetchTarget) : (s.giveDemand d b t).path.port = s.path.port :=
  setWait_port (s :=
  (s.onContent _).onPath _) ..

@[simp] theorem requestDemand_port (b : Fin 8) (t : FetchTarget) : (s.requestDemand b t).path.port = s.path.port := by
  unfold State.requestDemand
  split <;> simp

@[simp] theorem serveDemandWait_port : s.serveDemandWait.path.port = s.path.port := by
  unfold State.serveDemandWait
  split <;> simp

@[simp] theorem letGoDemand_port (b : Fin 8) (w : StagingWait) : (s.letGoDemand b w).path.port = s.path.port := by
  unfold State.letGoDemand
  split <;> simp

/-! ## Closing and notices (05, 5.8; 06, 6.6) -/

@[simp] theorem closeRecord_port (i : Fin 68) (u : Count32) : (s.closeRecord i u).1.path.port = s.path.port := rfl

@[simp] theorem leaveActive_port (i : Fin 68) (t : Option Time90) : (s.leaveActive i t).1.path.port = s.path.port := by
  unfold State.leaveActive
  dsimp only
  split <;> simp

@[simp] theorem cutShort_port (i : Fin 68) (reason : EndReason) : (s.cutShort i reason).1.path.port = s.path.port :=
  leaveActive_port (s :=
  s.onRecord _ _) ..

@[simp] theorem recordNotice_port (i : Fin 68) (g : Generation) (a : Bool) : (s.recordNotice i g a).path.port = s.path.port := by
  unfold State.recordNotice
  dsimp only
  repeat' split
  all_goals simp

@[simp] theorem closeEntry_port (i : Fin 4) (u : Count32) : (s.closeEntry i u).1.path.port = s.path.port := rfl

@[simp] theorem entryClosing_port (i : Fin 4) : (s.entryClosing i).1.path.port = s.path.port := by
  unfold State.entryClosing
  dsimp only
  split <;> simp

@[simp] theorem settleEntry_port (i : Fin 4) : (s.settleEntry i).path.port = s.path.port := by
  unfold State.settleEntry
  split <;> simp

@[simp] theorem entryNotice_port (i : Fin 4) (g : Generation) (v : Fin 64) (a : Bool) : (s.entryNotice i g v a).path.port = s.path.port := by
  unfold State.entryNotice
  dsimp only
  repeat' split
  all_goals simp

@[simp] theorem notice_port (x : Source) (a : Bool) : (s.notice x a).path.port = s.path.port := by
  unfold State.notice
  split <;> simp

@[simp] theorem discard_port (w : Fin 16) (slot : Nat) (g : Generation) (d : Disposition) : (s.discard w slot g d).path.port = s.path.port := by
  unfold State.discard
  dsimp only
  repeat' split
  all_goals simp

/-! ## Clocks and staging buffers -/

@[simp] theorem jumpNotice_port (i : Fin 64) : (s.jumpNotice i).path.port = s.path.port := by
  unfold State.jumpNotice
  split <;> simp

@[simp] theorem handleSample_port (i : Fin 64) (x : Sample) : (s.handleSample i x).path.port = s.path.port := by
  unfold State.handleSample
  dsimp only
  repeat' split
  all_goals simp

@[simp] theorem silenceOccurs_port (i : Fin 64) : (s.silenceOccurs i).path.port = s.path.port := by
  unfold State.silenceOccurs
  split <;> simp

@[simp] theorem rearmSilence_port (i : Fin 64) : (s.rearmSilence i).path.port = s.path.port := by
  unfold State.rearmSilence
  dsimp only
  repeat' split
  all_goals simp

@[simp] theorem rearmAll_port : s.rearmAll.path.port = s.path.port := foldl_port (fun _ _ => rearmSilence_port _) ..

@[simp] theorem freeStaging_port (b : Fin 8) : (s.freeStaging b).path.port = s.path.port := by
  unfold State.freeStaging
  split <;> simp

@[simp] theorem voidStaging_port (b : Fin 8) : (s.voidStaging b).path.port = s.path.port := by
  unfold State.voidStaging
  split <;> simp

@[simp] theorem dropVoid_port (b : Fin 8) : (s.dropVoid b).path.port = s.path.port := by
  unfold State.dropVoid
  split
  · split <;> simp
  · simp

@[simp] theorem dropVoids_port : s.dropVoids.path.port = s.path.port := foldl_port (fun _ _ => dropVoid_port _) ..

@[simp] theorem freeStagingOf_port (w : Fin 16) : (s.freeStagingOf w).path.port = s.path.port := by
  unfold State.freeStagingOf
  rw [mapSources_port]
  exact foldl_port (fun _ _ => freeStaging_port _) ..

/-! ## Header queues and cue queues -/

@[simp] theorem joinHeader_port (i : Fin 64) (standby : Bool) (c : Fin 128) (k : Nat) : (s.joinHeader i standby c k).path.port = s.path.port :=
  rfl

@[simp] theorem fillHeaders_port (i : Fin 64) (standby : Bool) (c : Fin 128) : (s.fillHeaders i standby c).path.port = s.path.port :=
  foldl_port (fun _ _ => joinHeader_port ..) ..

@[simp] theorem armNotice_port (i : Fin 64) (c : SpliceCue) : (s.armNotice i c).path.port = s.path.port := by simp [State.armNotice]

@[simp] theorem endTest_port (i : Fin 64) : (s.endTest i).path.port = s.path.port := rfl

@[simp] theorem armHead_port (fuel : Nat) (i : Fin 64) : (s.armHead fuel i).path.port = s.path.port := by
  induction fuel generalizing s with
  | zero => rfl
  | succ fuel ih =>
    unfold State.armHead
    split
    · rfl
    · split
      · dsimp only
        split <;> simp [ih]
      · rfl
      · rfl
      · simp [ih]
      · simp [ih]

@[simp] theorem arm_port (i : Fin 64) : (s.arm i).path.port = s.path.port := by simp [State.arm]

@[simp] theorem missHead_port (i : Fin 64) (x : Miss) : (s.missHead i x).path.port = s.path.port := by
  unfold State.missHead
  split <;> simp

@[simp] theorem fireHead_port (i : Fin 64) : (s.fireHead i).path.port = s.path.port := by simp [State.fireHead]

@[simp] theorem dropEntry_port (i : Fin 64) (e : QueueEntry) : (s.dropEntry i e).path.port = s.path.port := by
  unfold State.dropEntry
  split <;> simp

@[simp] theorem contentNotice_port (c : Fin 128) : (s.contentNotice c).path.port = s.path.port := by
  refine foldl_port (fun s i => ?_) ..
  split
  · split <;> simp
  · rfl

@[simp] theorem flushQueue_port (i : Fin 64) : (s.flushQueue i).1.path.port = s.path.port := foldl_port (fun _ _ => dropEntry_port ..) ..

/-! ## Output continuity, marks, content packets -/

@[simp] theorem giveCC_port (i : Fin 64) (comp : Nat) (ins : Bool) (cc : CC) (p : Bool) :
    (s.giveCC i comp ins cc p).1.path.port = s.path.port := rfl

@[simp] theorem takeMark_port (i : Fin 64) (d : Service) (comp : Nat) (c : Bool) : (s.takeMark i d comp c).1.path.port = s.path.port := by
  unfold State.takeMark
  split <;> simp

@[simp] theorem oweMark_port (i : Fin 64) : (s.oweMark i).path.port = s.path.port := rfl

@[simp] theorem passRewrite_port (d : Service) (x : TakeNotice) : (s.passRewrite d x).1.path.port = s.path.port := by simp [State.passRewrite]

@[simp] theorem formRun_port (i : Fin 64) (d : Service) (c : Fin 128) : (s.formRun i d c).path.port = s.path.port := rfl

@[simp] theorem consumeHead_port (i : Fin 64) (c : Fin 128) (l : Bool) : (s.consumeHead i c l).path.port = s.path.port := by
  unfold State.consumeHead
  dsimp only
  repeat' split
  all_goals simp

@[simp] theorem written_port (x : Source) : (s.written x).path.port = s.path.port := by
  unfold State.written
  split <;> simp

@[simp] theorem insertPacket_port (d : Service) (x : TakeNotice) (r : RunView) (hd : Header) (comp : Nat) (f : Bool) :
    (s.insertPacket d x r hd comp f).1.path.port = s.path.port := by simp [State.insertPacket]

@[simp] theorem takeContent_port (d : Service) (x : TakeNotice) (r : RunView) (f : Bool) :
    (s.takeContent d x r f).1.state.path.port = s.path.port := by
  unfold State.takeContent
  dsimp only
  repeat' split
  all_goals simp

@[simp] theorem testPacket_port (d : Service) (x : TakeNotice) (rec : Bool) (r : Option MissReason) :
    (s.testPacket d x rec r).path.port = s.path.port := by
  unfold State.testPacket
  dsimp only
  repeat' split
  all_goals simp

/-! ## Insertions and returns -/

@[simp] theorem enterReturning_port (i : Fin 64) (r : Fin 68) (e : EndReason) : (s.enterReturning i r e).path.port = s.path.port := rfl

@[simp] theorem setReturnDeadline_port (r : Fin 68) (t : Option Time90) : (s.setReturnDeadline r t).path.port = s.path.port := rfl

@[simp] theorem insertionTake_port (d : Service) (x : TakeNotice) (r : Fin 68) : (s.insertionTake d x r).state.path.port = s.path.port := by
  unfold State.insertionTake
  dsimp only
  split <;> simp

@[simp] theorem contentEnds_port (x : TakeNotice) (r : Fin 68) : (s.contentEnds x r).path.port = s.path.port := by
  unfold State.contentEnds
  dsimp only
  repeat' split
  all_goals simp

@[simp] theorem spliceOut_port (d : Service) (x : TakeNotice) (c : SpliceCue) (closed : Option (Fin 68)) :
    (s.spliceOut d x c closed).state.path.port = s.path.port := by
  unfold State.spliceOut
  split
  · rfl
  · simp [State.reserve]

@[simp] theorem countNull_port (r : Fin 68) : (s.countNull r).path.port = s.path.port := rfl

@[simp] theorem returnMark_port (i : Fin 64) (r : Fin 68) (f : Bool) : (s.returnMark i r f).path.port = s.path.port := by
  unfold State.returnMark
  split <;> simp

@[simp] theorem beginReturn_port (i : Fin 64) (r : Fin 68) (f : Bool) : (s.beginReturn i r f).path.port = s.path.port := by
  simp [State.beginReturn]

@[simp] theorem returnToNetwork_port (d : Service) (x : TakeNotice) (r : Fin 68) (a : Bool) (e : Option MissReason) :
    (s.returnToNetwork d x r a e).state.path.port = s.path.port := by
  unfold State.returnToNetwork
  simp

@[simp] theorem returnHere_port (d : Service) (x : TakeNotice) (r : Fin 68) (f : Bool) :
    (s.returnHere d x r f).state.path.port = s.path.port := by
  unfold State.returnHere
  dsimp only
  split <;> simp

@[simp] theorem returningPacket_port (d : Service) (x : TakeNotice) (r : Fin 68) : (s.returningPacket d x r).state.path.port = s.path.port := by
  unfold State.returningPacket
  dsimp only
  repeat' split
  all_goals simp

@[simp] theorem insertingPacket_port (d : Service) (x : TakeNotice) (r : Fin 68) : (s.insertingPacket d x r).state.path.port = s.path.port := by
  unfold State.insertingPacket
  dsimp only
  split <;> simp

@[simp] theorem exhaustedPacket_port (d : Service) (x : TakeNotice) (r : Fin 68) : (s.exhaustedPacket d x r).state.path.port = s.path.port := by
  unfold State.exhaustedPacket
  dsimp only
  repeat' split
  all_goals simp

@[simp] theorem networkPacket_port (d : Service) (x : TakeNotice) : (s.networkPacket d x).state.path.port = s.path.port := by
  unfold State.networkPacket
  dsimp only
  split <;> simp

@[simp] theorem splicePacket_port (d : Service) (x : TakeNotice) : (s.splicePacket d x).state.path.port = s.path.port := by
  unfold State.splicePacket
  dsimp only
  split <;> simp

/-! ## Alerts on air -/

@[simp] theorem startRun_port (v : Fin 64) (i : Fin 4) : (s.startRun v i).path.port = s.path.port := by simp [State.startRun]

@[simp] theorem onRun_port (v : Fin 64) (f : AlertRun → AlertRun) : (s.onRun v f).path.port = s.path.port := rfl

@[simp] theorem loopRun_port (v : Fin 64) (c : Fin 128) : (s.loopRun v c).path.port = s.path.port := by simp [State.loopRun]

theorem runStart_port (d : Service) (x : TakeNotice) (r : AlertRun) : (s.runStart d x r).1.path.port = s.path.port := by
  simp [State.runStart]

@[simp] theorem alertTake_port (d : Service) (x : TakeNotice) (r : AlertRun) : (s.alertTake d x r).state.path.port = s.path.port := by
  have started : (if r.startPending && s.splice.services[x.service].startReady then s.runStart d x r else (s, false)).1.path.port =
      s.path.port := by
    split
    · exact runStart_port ..
    · rfl
  unfold State.alertTake
  dsimp only
  generalize (if r.startPending && s.splice.services[x.service].startReady then s.runStart d x r else (s, false)) = z at started ⊢
  split
  · split <;> simp [started]
  · simp [started]

@[simp] theorem airingPacket_port (d : Service) (x : TakeNotice) (r : AlertRun) : (s.airingPacket d x r).state.path.port = s.path.port := by
  unfold State.airingPacket
  split <;> simp

@[simp] theorem alertReturn_port (d : Service) (x : TakeNotice) (l : Fin 4) : (s.alertReturn d x l).state.path.port = s.path.port := by
  unfold State.alertReturn
  split <;> simp

@[simp] theorem overlayDecision_port (d : Service) (x : TakeNotice) : (s.overlayDecision d x).state.path.port = s.path.port := by
  unfold State.overlayDecision
  split
  · simp
  · split
    · dsimp only
      split <;> simp [State.setRunDeadline]
    · simp

@[simp] theorem overlayPacket_port (d : Service) (x : TakeNotice) : (s.overlayPacket d x).state.path.port = s.path.port := by
  simp [State.overlayPacket]

@[simp] theorem decidePacket_port (d : Service) (x : TakeNotice) : (s.decidePacket d x).1.path.port = s.path.port := by
  refine (foldl_port (fun _ _ => raise_port ..) ..).trans ?_
  split <;> simp

/-! ## Services that are offered -/

@[simp] theorem preempt_port (v : Fin 64) : (s.preempt v).path.port = s.path.port := by
  unfold State.preempt
  dsimp only [State.onFields_path]
  split <;> simp

@[simp] theorem takeService_port (v : Fin 64) (i : Fin 4) : (s.takeService v i).path.port = s.path.port := by simp [State.takeService]

@[simp] theorem displace_port (v : Fin 64) (i o : Fin 4) : (s.displace v i o).path.port = s.path.port := by simp [State.displace]

@[simp] theorem offer_port (v : Fin 64) (i : Fin 4) : (s.offer v i).1.path.port = s.path.port := by
  unfold State.offer
  split
  · simp
  · split <;> simp
  · split <;> simp

@[simp] theorem endService_port (i : Fin 4) (v : Fin 64) : (s.endService i v).path.port = s.path.port := by
  unfold State.endService
  split
  · split <;> simp
  · rfl
  · rfl

@[simp] theorem endAlert_port (i : Fin 4) (r : AlertEnd) : (s.endAlert i r).path.port = s.path.port :=
  (settleEntry_port _).trans (foldl_port (fun _ _ => endService_port ..) ..)

end Sys2Proof.Machine
end

section
/-! SUPPORT. The same for the Ingest Parser, configuration records, cues and the Start-up Loader; with it, that a forwarded beat's copies
leave a port at rest idle (08, R154, R155). -/

namespace Sys2Proof.Machine

variable {s : State}

/-! ## Ingest Parser and Slot Table (01) -/

@[simp] theorem setMode_port (w : Fin 16) (a : AssemblyMode) : (s.setMode w a).path.port = s.path.port := by
  unfold State.setMode
  split <;> simp

@[simp] theorem raisePacket_port (k : ErrorKind) (i : Nat) (w : Fin 16) (slot : Nat) (b : List Byte) :
    (s.raisePacket k i w slot b).path.port = s.path.port := by simp [State.raisePacket]

@[simp] theorem checkContinuity_port (i : Fin 64) (comp : Nat) (w : Fin 16) (slot : Nat) (b : List Byte) :
    (s.checkContinuity i comp w slot b).path.port = s.path.port := by
  unfold State.checkContinuity
  dsimp only
  repeat' split
  all_goals simp

@[simp] theorem serviceTake_port (d : Service) (i : Fin 64) (comp : Nat) (w : Fin 16) (slot : Nat) (c : Count32) (b : List Byte) :
    (s.serviceTake d i comp w slot c b).1.path.port = s.path.port := by
  unfold State.serviceTake
  dsimp only
  repeat' split
  all_goals simp

@[simp] theorem takePacket_port (w : Fin 16) (slot : Nat) (c : Count32) (b : List Byte) :
    (s.takePacket w slot c b).1.path.port = s.path.port := by
  unfold State.takePacket
  split
  · split
    · rfl
    · split <;> simp
  · simp

@[simp] theorem settleOld_port (w : Fin 16) (slot : Nat) : (s.settleOld w slot).path.port = s.path.port := by
  unfold State.settleOld
  dsimp only
  repeat' split
  all_goals simp

@[simp] theorem takeFromStaging_port (w : Fin 16) (slot : Nat) (b : Fin 8) : (s.takeFromStaging w slot b).path.port = s.path.port := by
  unfold State.takeFromStaging
  split
  · rfl
  · split <;> simp

@[simp] theorem settleStaging_port (w : Fin 16) (slot : Nat) : (s.settleStaging w slot).path.port = s.path.port := by
  unfold State.settleStaging
  rw [mapSources_port]
  exact foldl_port (fun _ _ => takeFromStaging_port ..) ..

@[simp] theorem take_port (w : Fin 16) (slot : Nat) (p : Option (List Byte)) : (s.take w slot p).path.port = s.path.port := by
  unfold State.take
  split
  · rfl
  · cases p <;> simp [State.storeTake]

@[simp] theorem voidPass_port (w : Fin 16) (slot : Nat) (b : Fin 8) : (s.voidPass w slot b).path.port = s.path.port := by
  unfold State.voidPass
  split
  · rfl
  · split
    · split <;> simp
    · rfl
    · rfl

@[simp] theorem fillSlot_port (w : Fin 16) (slot : Nat) : (s.fillSlot w slot).path.port = s.path.port :=
  (foldl_port (fun _ _ => voidPass_port ..) ..).trans rfl

@[simp] theorem record_port (w : Fin 16) (slot : Nat) (b : List Byte) : (s.record w slot b).path.port = s.path.port := by
  unfold State.record
  dsimp only
  split <;> simp

@[simp] theorem beginSlot_port (x : IngestWrite) : (s.beginSlot x).path.port = s.path.port := by simp [State.beginSlot]

@[simp] theorem sequenceBreak_port (x : IngestWrite) (b : List Byte) : (s.sequenceBreak x b).path.port = s.path.port := by
  simp [State.sequenceBreak]

@[simp] theorem tear_port (x : IngestWrite) (slot : Nat) (b : List Byte) : (s.tear x slot b).path.port = s.path.port := by simp [State.tear]

@[simp] theorem ingestWrite_port (x : IngestWrite) : (s.ingestWrite x).path.port = s.path.port := by
  unfold State.ingestWrite
  dsimp only
  repeat' split
  all_goals simp

@[simp] theorem ingestBeat_port (a : Nat) (d : BeatData) (e : Enables) : (s.ingestBeat a d e).path.port = s.path.port :=
  foldl_port (fun _ _ => ingestWrite_port _) ..

/-! ## Configuration records -/

@[simp] theorem settleSlot_port (w : Fin 16) (slot : Nat) : (s.settleSlot w slot).path.port = s.path.port := by
  unfold State.settleSlot
  dsimp only
  split <;> simp

@[simp] theorem settleWindow_port (w : Fin 16) : (s.settleWindow w).path.port = s.path.port := foldl_port (fun _ _ => settleSlot_port ..) ..

@[simp] theorem dropWindow_port (i : Fin 16) (old : WindowEntry) (b : Bool) : (s.dropWindow i old b).path.port = s.path.port := by
  unfold State.dropWindow
  split
  · rfl
  · dsimp only
    split <;> simp
  · simp
  · rfl
  · rfl

@[simp] theorem setUpWindow_port (i : Fin 16) (e : WindowEntry) : (s.setUpWindow i e).path.port = s.path.port := by
  cases e <;> rfl

@[simp] theorem replaceWindow_port (i : Fin 16) (e : WindowEntry) : (s.replaceWindow i e).path.port = s.path.port := by
  simp [State.replaceWindow]

@[simp] theorem applyWindow_port (r : WindowRec) : (s.applyWindow r).1.path.port = s.path.port := by
  unfold State.applyWindow
  split
  · dsimp only
    split
    · rfl
    · split <;> simp
  · rfl

@[simp] theorem defineService_port (i : Fin 64) (d : Service) : (s.defineService i d).path.port = s.path.port := rfl

@[simp] theorem undefineService_port (i : Fin 64) : (s.undefineService i).path.port = s.path.port := rfl

@[simp] theorem applyService_port (r : ServiceRec) : (s.applyService r).1.path.port = s.path.port := by
  unfold State.applyService
  dsimp only
  repeat' split
  all_goals simp

@[simp] theorem applyGroup_port (b : Bool) (r : GroupRec) : (s.applyGroup b r).1.path.port = s.path.port := by
  unfold State.applyGroup
  split <;> simp

@[simp] theorem applyLimits_port (r : LimitsRec) : (s.applyLimits r).1.path.port = s.path.port := by
  unfold State.applyLimits
  dsimp only
  split <;> simp

@[simp] theorem applyPolicy_port (r : PolicyRec) : (s.applyPolicy r).1.path.port = s.path.port := by
  unfold State.applyPolicy
  split
  · rfl
  · split <;> simp

@[simp] theorem configure_port (b : Bool) (r : ConfigRecord) : (s.configure b r).1.path.port = s.path.port := by
  cases r with
  | window r => exact applyWindow_port r
  | service r => exact applyService_port r
  | group r => exact applyGroup_port b r
  | arbiter r => rfl
  | limits r => exact applyLimits_port r
  | policy r => exact applyPolicy_port r

/-! ## Cues -/

@[simp] theorem answerCue_port (ref : CueRef) (k : Byte) (v : Option Byte) (id : Option (BitVec 32)) (o : CueOutcome) (d : Option Byte) :
    (s.answerCue ref k v id o d).path.port = s.path.port := rfl

@[simp] theorem enqueue_port (i : Fin 64) (c : SpliceCue) : (s.enqueue i c).path.port = s.path.port := by
  unfold State.enqueue
  dsimp only
  repeat' split
  all_goals simp

@[simp] theorem handleSplice_port (b : Bool) (ref : CueRef) (x : SpliceBody) : (s.handleSplice b ref x).path.port = s.path.port := by
  unfold State.handleSplice
  dsimp only
  repeat' split
  all_goals simp

@[simp] theorem cancelEntry_port (i : Fin 64) (k : Nat) (e : QueueEntry) : (s.cancelEntry i k e).path.port = s.path.port := by
  unfold State.cancelEntry
  split <;> simp

@[simp] theorem handleCancel_port (ref : CueRef) (v : Byte) (id : BitVec 32) : (s.handleCancel ref v id).path.port = s.path.port := by
  unfold State.handleCancel
  dsimp only
  repeat' split
  all_goals simp

@[simp] theorem handleFlush_port (ref : CueRef) (v : Byte) : (s.handleFlush ref v).path.port = s.path.port := by
  unfold State.handleFlush
  dsimp only
  repeat' split
  all_goals simp

@[simp] theorem returnRequest_port (i : Fin 64) : (s.returnRequest i).path.port = s.path.port := by
  unfold State.returnRequest
  dsimp only
  split <;> simp

@[simp] theorem handleReturnNow_port (ref : CueRef) (v : Byte) : (s.handleReturnNow ref v).path.port = s.path.port := by
  unfold State.handleReturnNow
  dsimp only
  repeat' split
  all_goals simp

@[simp] theorem offerAll_port (i : Fin 4) (c : ServiceSet) : (s.offerAll i c).1.path.port = s.path.port := by
  unfold State.offerAll
  generalize List.finRange 64 = l
  suffices all : ∀ p : State × ServiceSet, (l.foldl (fun p service =>
      if c.getLsbD service.val then
        let (s, took) := p.1.offer service i
        (s, if took then p.2 ||| BitVec.twoPow 64 service.val else p.2)
      else p) p).1.path.port = p.1.path.port from all (s, 0)
  induction l with
  | nil => exact fun _ => rfl
  | cons v l ih =>
    intro p
    refine (ih _).trans ?_
    dsimp only
    split <;> simp

@[simp] theorem startAlert_port (i : Fin 4) (ref : CueRef) (r : AlertRequest) : (s.startAlert i ref r).path.port = s.path.port := by
  simp [State.startAlert]

@[simp] theorem requestAlert_port (ref : CueRef) (r : AlertRequest) : (s.requestAlert ref r).1.path.port = s.path.port := by
  unfold State.requestAlert
  split
  · rfl
  · repeat' split
    all_goals simp [State.reserve, State.unreserve]

@[simp] theorem handleAlertStart_port (ref : CueRef) (b : AlertBody) : (s.handleAlertStart ref b).path.port = s.path.port := by
  unfold State.handleAlertStart
  dsimp only
  split
  · rfl
  · split
    · rfl
    · next q _ =>
      split
      · rfl
      · have kept := requestAlert_port (s := s) ref q
        split
        · next e => rw [e] at kept; exact kept
        · next e => rw [e] at kept; exact kept

@[simp] theorem handleAlertEnd_port (ref : CueRef) (id : BitVec 16) : (s.handleAlertEnd ref id).path.port = s.path.port := by
  unfold State.handleAlertEnd
  dsimp only
  split
  · rfl
  · split
    · rfl
    · exact (answerCue_port (s := List.foldl _ _ _) ..).trans (foldl_port (fun _ _ => endAlert_port ..) ..)

@[simp] theorem handleContentDefine_port (ref : CueRef) (b : DefineBody) : (s.handleContentDefine ref b).path.port = s.path.port := by
  unfold State.handleContentDefine
  dsimp only
  repeat' split
  all_goals rfl

@[simp] theorem releaseContent_port (c : Fin 128) : (s.releaseContent c).path.port = s.path.port := by
  simp [State.releaseContent]

@[simp] theorem handleContentRelease_port (ref : CueRef) (b : Byte) : (s.handleContentRelease ref b).path.port = s.path.port := by
  unfold State.handleContentRelease
  dsimp only
  repeat' split
  all_goals simp

@[simp] theorem handleConfigure_port (ref : CueRef) (r : ConfigRecord) : (s.handleConfigure ref r).path.port = s.path.port := by
  simp [State.handleConfigure]

@[simp] theorem applyGroups_port : s.applyGroups.path.port = s.path.port := rfl

@[simp] theorem pendApply_port (ref : CueRef) : (s.pendApply ref).path.port = s.path.port := by
  unfold State.pendApply
  dsimp only
  split <;> simp

@[simp] theorem handleApplyStaged_port (ref : CueRef) (g a : Bool) : (s.handleApplyStaged ref g a).path.port = s.path.port := by
  unfold State.handleApplyStaged
  dsimp only
  repeat' split
  all_goals simp

@[simp] theorem handleAckError_port (ref : CueRef) : (s.handleAckError ref).path.port = s.path.port := by
  unfold State.handleAckError
  split <;> simp

@[simp] theorem handleBypass_port (ref : CueRef) : (s.handleBypass ref).path.port = s.path.port := by
  unfold State.handleBypass
  split <;> simp

@[simp] theorem handleResume_port (ref : CueRef) : (s.handleResume ref).path.port = s.path.port := by
  unfold State.handleResume State.returnIfClear
  dsimp only
  split <;> rfl

@[simp] theorem handleCue_port (ref : CueRef) (b : List Byte) : (s.handleCue ref b).path.port = s.path.port := by
  unfold State.handleCue
  split
  case h_10 => split <;> simp
  all_goals simp

@[simp] theorem takeCue_port (r : CueRing) : (s.takeCue r).path.port = s.path.port := handleCue_port (s := (s.onCue _).handCueTaken _) ..

@[simp] theorem takeCues_port (fuel : Nat) : (s.takeCues fuel).path.port = s.path.port := by
  induction fuel generalizing s with
  | zero => rfl
  | succ fuel ih =>
    unfold State.takeCues
    split
    · rfl
    · split
      · exact (ih ..).trans (takeCue_port _)
      · rfl

@[simp] theorem cueBeat_port (a : Nat) (d : BeatData) (e : Enables) : (s.cueBeat a d e).path.port = s.path.port := by
  unfold State.cueBeat
  split <;> simp

/-! ## Start-up Loader -/

@[simp] theorem endStartUp_port (f : Option StartFailure) : (s.endStartUp f).path.port = s.path.port := by
  unfold State.endStartUp
  dsimp only
  split <;> simp

@[simp] theorem failStartUp_port (f : StartFailure) : (s.failStartUp f).path.port = s.path.port := by simp [State.failStartUp]

@[simp] theorem loadRecord_port (b : Bool) (r : ConfigRecord) : (s.loadRecord b r).path.port = s.path.port := by simp [State.loadRecord]

@[simp] theorem takeBoot_port (b : BootShadow) : (s.takeBoot b).path.port = s.path.port := by
  unfold State.takeBoot
  dsimp only
  repeat' split
  all_goals simp

@[simp] theorem snoopBoot_port (fuel : Nat) : (s.snoopBoot fuel).path.port = s.path.port := by
  induction fuel generalizing s with
  | zero => rfl
  | succ fuel ih =>
    unfold State.snoopBoot
    split
    · split
      · exact (ih ..).trans (takeBoot_port _)
      · rfl
    · rfl

@[simp] theorem bootBeat_port (a : Nat) (d : BeatData) (e : Enables) : (s.bootBeat a d e).path.port = s.path.port := by
  unfold State.bootBeat
  split <;> simp

/-! ## The four blocks that watch a forwarded beat (R154) -/

theorem reportBeat_port (address : Nat) (data : BeatData) (enables : Enables) :
    (s.reportBeat address data enables).path.port = s.path.port := by
  unfold State.reportBeat
  split
  · rfl
  · split <;> rfl

theorem watchers_port (address : Nat) (data : BeatData) (enables : Enables) :
    (s.watchers address data enables).path.port = s.path.port :=
  (bootBeat_port ..).trans ((reportBeat_port ..).trans ((cueBeat_port ..).trans (ingestBeat_port ..)))

theorem State.PortIdle.of_port {t : State} (idle : s.PortIdle) (same : t.path.port = s.path.port) : t.PortIdle := by
  obtain ⟨held, rest⟩ := Prod.mk.inj same
  obtain ⟨openBurst, reads⟩ := Prod.mk.inj rest
  refine ⟨held.trans idle.held, openBurst.trans idle.openBurst, List.eq_nil_of_length_eq_zero (reads.trans ?_)⟩
  rw [idle.reads]
  rfl

theorem watchers_idle (idle : s.PortIdle) (address : Nat) (data : BeatData) (enables : Enables) :
    (s.watchers address data enables).PortIdle := idle.of_port (watchers_port ..)

/-- A beat no byte of which is watched leaves the state as it is. -/
theorem watchers_unwatched {address : Nat} {data : BeatData} {enables : Enables}
    (unseen : ∀ k < 16, enables.getLsbD k = true → windowAt s.path.windows (address + k) = none)
    (unsnooped : s.loader.boot = none ∨ 0x4000 ≤ address) (outside : windowAt s.path.windows address = none) :
    s.watchers address data enables = s := by
  unfold State.watchers
  rw [ingestBeat_unseen fun k lt on => spanAt_none (unseen k lt on),
    cueBeat_elsewhere fun w _ _ here => (nomatch outside.symm.trans here), reportBeat_none outside, bootBeat_unsnooped unsnooped]

end Sys2Proof.Machine

namespace Sys2Proof.Proofs

open Sys2Proof.Machine

/-- Settles O11: the blocks that watch the beat leave the port idle (`watchers_idle`). -/
theorem forwardedWriteBeat : Obligations.ForwardedWriteBeat := by
  intro s beat data enables out quiet free a queued
  have idle : queued.PortIdle := ⟨quiet.held, quiet.openBurst, quiet.reads⟩
  have ends := forwardedWrite_ends out quiet (decideWrite_forward free) (watchers_idle idle a data enables)
  refine ⟨ends, fun unseen unsnooped outside => ?_⟩
  have unwatched : queued.watchers a data enables = queued := watchers_unwatched unseen unsnooped outside
  obtain ⟨t, runs, same⟩ := ends
  exact ⟨t, runs, unwatched ▸ same⟩

end Sys2Proof.Proofs
end
